-- ==== Sys2Proof/Word.lean ====
section
/-! DEFINITION. The word types of the QX9 (spec/00 R2, R3; spec/01 R13): a byte of memory, a 32-bit general register, a 64-bit
address or register pair. -/

namespace Sys2Proof

/-- A byte of memory or of the stored program (R2, R32). -/
abbrev Byte := BitVec 8

/-- A 32-bit general register, mask or queue entry (R59, R60, R198). -/
abbrev Word := BitVec 32

/-- A 64-bit address, PC or register pair (R32, R59). -/
abbrev Addr := BitVec 64

end Sys2Proof
end

