-- ==== Sys2Proof/Syntax.lean ====
section
/-! DEFINITION. The syntax of the QX9: operand codes (spec/02 R45, R46), type codes (R50), the internal word's fields (R43), trap
causes (spec/20 R376), the names of lanes, warps, groups and management registers, and ONE constructor of `Instr` for each row of
the table of operations and events. -/

namespace Sys2Proof

/-- What an operand code of a D, A, B or C field names (R45, R46). -/
inductive Operand where
  | g (n : Nat)      -- general register g0 to g127
  | q (n : Nat)      -- queue register q0 to q15
  | m (n : Nat)      -- mask register m0 to m11
  | lc (n : Nat)     -- loop counter lc0 to lc2
  | sr (n : Nat)     -- special register, code 0xA0 + n (R46)
  | z                -- reads as zero, discards writes (R48)
  | absent           -- reads as the absent code of the type (R48)
  | imm              -- 0xFE: the immediate in X
  | none             -- 0xFF: no operand
  | ill (c : Nat)    -- an illegal code, kept as it stands
  deriving DecidableEq, Repr

/-- The type code T (R50). -/
inductive Ty where
  | none | b8 | b16 | b32 | b64 | b128 | i8 | i16 | i32 | i64 | n8 | n16 | n32 | n64
  | f16 | bf16 | f32 | e4m3 | e5m2 | q4 | q8 | px2 | h2 | bh2 | q4x8
  | ill (k : Nat)    -- codes 25 to 31: 25 + k
  deriving DecidableEq, Repr

/-- The fields of the 96-bit internal word, less OP (R43). -/
structure IWord where
  ge : Bool          -- guarded
  gn : Bool          -- guard negate
  gr : Nat           -- guard register, 0 to 127
  gb : Nat           -- guard bit, 0 to 31
  d : Operand
  a : Operand
  b : Operand
  c : Operand
  wc : Bool
  wb : Bool
  wa : Bool
  t : Ty
  x : Word
  deriving DecidableEq, Repr

/-- The 64 cause codes (R376). -/
inductive Cause where
  | none
  | illOpcode
  | illEncoding
  | illOperand
  | illType
  | illModifier
  | privileged
  | fetchFault
  | softTrap
  | breakpoint
  | singleStep
  | emptyRead
  | intDivZero
  | loopNest
  | loopRange
  | fpTrap
  | notPresent
  | permission
  | compressedWrite
  | misaligned
  | noncanonical
  | spadBounds
  | uncorrectable
  | transformFailed
  | roadworks
  | privateBounds
  | constBounds
  | poison
  | remoteTimeout
  | storageError
  | capacityTierError
  | atomicAlign
  | illConvergence
  | maskMismatch
  | queueUnconfigured
  | queueEmptyTrap
  | barrierMismatch
  | matrixNotOwner
  | matrixConfig
  | matrixFormat
  | setBadHandle
  | setUniverse
  | setStoreFull
  | dequeBad
  | streamBadCmd
  | iterRecordBad
  | monitorLimit
  | specIllegal
  | watchdog
  | kill
  | saveFailed
  | admissionTimeout
  | debugHalt
  | traceOverflow
  | sealedViolation
  | fabricError
  | launchFault
  | dependenceFailed
  | handlerFault
  | engineReset
  | thermalHalt
  | firmwareAbort
  | hostAbort
  | machineCheck
  deriving DecidableEq, Repr

/-- A group: the model's name of its gang, and the group index in the gang (R46). -/
structure GroupId where
  gang : Nat
  group : Nat
  deriving DecidableEq, Repr

/-- A warp of a group (R46, R60). -/
structure WarpId where
  gang : Nat
  group : Nat
  warp : Nat
  deriving DecidableEq, Repr

/-- A lane of a warp (R46, R60). -/
structure LaneId where
  gang : Nat
  group : Nat
  warp : Nat
  lane : Nat
  deriving DecidableEq, Repr

/-- A routing table as an update brings it: its bytes, the public keys that are to verify it, and the signatures of both (R413, R419). -/
structure SignedTable where
  table : List Byte
  key : List Byte
  sig : List Byte
  deriving DecidableEq, Repr

/-- The names of the management block's registers (R406), block by block: module, die, context, launch queue, Skim engine, storage
binding. -/
inductive MName where
  | ready | fail | modctl | hwlock | fwstat | attnonce | attaddr | attgo | hwindev | hwinhost | hwinsize | hwbase | modid | ftmo | thot | tcrit | kladdr | klgo | klstat | engrst | hostkey
  | xinv | fbbase | fbsize | fbhead | fbtail | xreplay | sqovbase | sqovsize | sqovused | sqmon | trbase | trsize | trhead | trtail | trdrop | admbudget | admres | admheld | cormap
  | ctxctl | ctxop | vector | wdog | drainb | privroot | privsz | privcnt | troot | savebase | savesize | saveslot | ctxkey | admwd | dbgctl | dbgpc | dbgpcen | dbgstep | dbgrun | dbgsel | dbgdata | dbgdump | lcblo | lcbhi | wrbase | wrlen | dbggrid
  | lqbase | lqctl
  | skbase | sksize | sktail | skhead
  | nsbctl | nsbcap | nsbsq | nsbcq | nsbdb | nsbds | nsbbus | nsbstg
  deriving DecidableEq, Repr

/-- One management register: its name, the index of its block (die, context, queue or engine; 0 for the module) and its index in
an array of registers (DBGPC0 to 7, HWIN0 to 15, storage binding 0 to 15; 0 where there is no array) (R406, R407). -/
structure MReg where
  name : MName
  i : Nat
  j : Nat
  deriving DecidableEq, Repr

/-- One constructor for each row of the table of operations and events. A constructor with an `IWord` is an instruction the fill
unit expands (R58); the others are events of the device, with the unit each names. -/
inductive Instr where
  /-- NOP (R116): No operation; only the PC advances. -/
  | nop (w : IWord)
  /-- BRA (R119): Branches to the next instruction's address plus the displacement in X. -/
  | bra (w : IWord)
  /-- BRX (R119): Branches to the 64-bit address in a register pair. -/
  | brx (w : IWord)
  /-- CALL (R119): Branches by displacement and writes the return address to a register pair. -/
  | call (w : IWord)
  /-- CALLX (R119): Branches to a register-pair address and writes the return address to a register pair. -/
  | callx (w : IWord)
  /-- RET (R119): Returns to the address in a register pair. -/
  | ret (w : IWord)
  /-- EXIT (R120): Ends each active lane: clears its mask bits, discards its pending deliveries, loop records and open try, and triggers it. -/
  | exit (w : IWord)
  /-- JOIN (R121): Sets the bit of each active lane in a mask and rechecks the warp's waits. -/
  | join (w : IWord)
  /-- LEAVE (R121): Clears the bit of each active lane in a mask and rechecks the warp's waits. -/
  | leave (w : IWord)
  /-- WAITM (R122): Parks each active lane on a mask until every lane of the mask is parked there. -/
  | waitm (w : IWord)
  /-- MSET (R123): Writes a mask from a value taken from the lowest active lane, ANDed with m0. -/
  | mset (w : IWord)
  /-- MGET (R124): Writes the value of a mask to a register of each active lane. -/
  | mget (w : IWord)
  /-- MAND (R123): Writes the AND of two masks, ANDed with m0, to a mask. -/
  | mand (w : IWord)
  /-- MOR (R123): Writes the OR of two masks, ANDed with m0, to a mask. -/
  | mor (w : IWord)
  /-- MNOT (R123): Writes the complement of a mask, ANDed with m0, to a mask. -/
  | mnot (w : IWord)
  /-- YIELD (R127): Advances the PC and moves the warp's current path away from the yielding lanes. -/
  | yield (w : IWord)
  /-- LOOP (R129): Starts a counted loop on a loop counter with the count taken from a register. -/
  | loop (w : IWord)
  /-- LOOPX (R129): Starts a counted loop with an immediate count and body length. -/
  | loopx (w : IWord)
  /-- LBRK (R131): Ends the loop on a counter and jumps to its end. -/
  | lbrk (w : IWord)
  /-- BARG (R134): Parks each active lane on one of the group's eight barriers. -/
  | barg (w : IWord)
  /-- BARN (R134): Parks each active lane on one of the gang's four barriers. -/
  | barn (w : IWord)
  /-- FESET (R138): ORs bits into the lane's fflags and optionally returns the old value. -/
  | feset (w : IWord)
  /-- FECLR (R138): Clears bits of the lane's fflags and optionally returns the old value. -/
  | feclr (w : IWord)
  /-- MOV (R151): Copies a value bit for bit, including into a special register. -/
  | mov (w : IWord)
  /-- MOVI (R144): Writes an immediate literal to the destination. -/
  | movi (w : IWord)
  /-- IADD (R144): Integer addition with saturation, or wrapping for bN types. -/
  | iadd (w : IWord)
  /-- ISUB (R144): Integer subtraction. -/
  | isub (w : IWord)
  /-- INEG (R144): Integer negation. -/
  | ineg (w : IWord)
  /-- IABS (R144): Integer absolute value. -/
  | iabs (w : IWord)
  /-- IMUL (R144): Integer multiplication. -/
  | imul (w : IWord)
  /-- IMULH (R144): High half of the exact integer product. -/
  | imulh (w : IWord)
  /-- IMAD (R144): Integer multiply-add with a single saturation or wrap. -/
  | imad (w : IWord)
  /-- IMADW (R144): Widening multiply-add into a 64-bit result. -/
  | imadw (w : IWord)
  /-- IDIV (R145): Integer division truncating toward zero; traps on division by zero. -/
  | idiv (w : IWord)
  /-- IREM (R145): Integer remainder with the sign of A; traps on division by zero. -/
  | irem (w : IWord)
  /-- IMIN (R144): Lesser of two integers. -/
  | imin (w : IWord)
  /-- IMAX (R144): Greater of two integers. -/
  | imax (w : IWord)
  /-- ISET (R146): Integer comparison that writes 1 or 0. -/
  | iset (w : IWord)
  /-- SEL (R144): Selects A or B by bit 0 of C. -/
  | sel (w : IWord)
  /-- AND (R144): Bitwise AND. -/
  | and (w : IWord)
  /-- OR (R144): Bitwise OR. -/
  | or (w : IWord)
  /-- XOR (R144): Bitwise XOR. -/
  | xor (w : IWord)
  /-- NOT (R144): Bitwise complement. -/
  | not (w : IWord)
  /-- SHL (R147): Shift left. -/
  | shl (w : IWord)
  /-- SHR (R147): Logical shift right. -/
  | shr (w : IWord)
  /-- SAR (R147): Arithmetic shift right. -/
  | sar (w : IWord)
  /-- ROT (R147): Rotate left by B mod w. -/
  | rot (w : IWord)
  /-- BFX (R148): Extracts a bit field. -/
  | bfx (w : IWord)
  /-- BFI (R148): Inserts a bit field. -/
  | bfi (w : IWord)
  /-- POPC (R144): Counts the one bits. -/
  | popc (w : IWord)
  /-- CLZ (R144): Counts the leading zeros. -/
  | clz (w : IWord)
  /-- CTZ (R144): Counts the trailing zeros. -/
  | ctz (w : IWord)
  /-- BREV (R144): Reverses the bit order. -/
  | brev (w : IWord)
  /-- PRMB (R149): Permutes bytes of B:A under nibble selectors. -/
  | prmb (w : IWord)
  /-- LEA (R150): Forms base plus a scaled, extended index. -/
  | lea (w : IWord)
  /-- FADD (R152): f32 addition. -/
  | fadd (w : IWord)
  /-- FSUB (R152): f32 subtraction. -/
  | fsub (w : IWord)
  /-- FMUL (R152): f32 multiplication. -/
  | fmul (w : IWord)
  /-- FFMA (R152): f32 fused multiply-add rounded once. -/
  | ffma (w : IWord)
  /-- FMIN (R153): f32 minimum with NaN and signed-zero rules. -/
  | fmin (w : IWord)
  /-- FMAX (R153): f32 maximum with NaN and signed-zero rules. -/
  | fmax (w : IWord)
  /-- FABS (R152): f32 absolute value. -/
  | fabs (w : IWord)
  /-- FNEG (R152): f32 negation. -/
  | fneg (w : IWord)
  /-- FSET (R154): f32 comparison that writes 1 or 0. -/
  | fset (w : IWord)
  /-- FCLASS (R155): Classifies a float value into one bit. -/
  | fclass (w : IWord)
  /-- FDOT2 (R156): Two-element dot product plus an f32 addend. -/
  | fdot2 (w : IWord)
  /-- HADD2 (R152): Packed half-precision addition. -/
  | hadd2 (w : IWord)
  /-- HMUL2 (R152): Packed half-precision multiplication. -/
  | hmul2 (w : IWord)
  /-- HFMA2 (R152): Packed half-precision fused multiply-add. -/
  | hfma2 (w : IWord)
  /-- CVT (R157): Converts between number formats, optionally scaled by a block exponent. -/
  | cvt (w : IWord)
  /-- QGRP (R158): Quantises an f32 value to a q4 or q8 code. -/
  | qgrp (w : IWord)
  /-- DQGRP (R158): Dequantises a q4 or q8 code to f32. -/
  | dqgrp (w : IWord)
  /-- AMXREC (R111): Records an absolute maximum in a scale record of the matrix engine. -/
  | amxrec (w : IWord)
  /-- AMXGET (R112): Derives a power-of-two scale from a scale record. -/
  | amxget (w : IWord)
  /-- BEXP (R160): Runs the Plumb unit on a block of 32 elements and returns a block exponent. -/
  | bexp (w : IWord)
  /-- ABSENT (R161): Tests which elements are absent codes. -/
  | absent (w : IWord)
  /-- ABSENT_MK (R161): Replaces the selected elements with absent codes. -/
  | absentMk (w : IWord)
  /-- RCP (R162): f32 reciprocal. -/
  | rcp (w : IWord)
  /-- RSQ (R162): f32 reciprocal square root. -/
  | rsq (w : IWord)
  /-- SQRT (R162): f32 square root. -/
  | sqrt (w : IWord)
  /-- EXP2 (R162): f32 power of two. -/
  | exp2 (w : IWord)
  /-- LOG2 (R162): f32 base-2 logarithm. -/
  | log2 (w : IWord)
  /-- SINPI (R162): f32 sin(pi x). -/
  | sinpi (w : IWord)
  /-- COSPI (R162): f32 cos(pi x). -/
  | cospi (w : IWord)
  /-- TANH (R162): f32 hyperbolic tangent. -/
  | tanh (w : IWord)
  /-- PADD (R163): Saturating add of packed pixels. -/
  | padd (w : IWord)
  /-- PSUB (R163): Saturating subtraction of packed pixels. -/
  | psub (w : IWord)
  /-- PMIN (R163): Minimum of packed pixels. -/
  | pmin (w : IWord)
  /-- PMAX (R163): Maximum of packed pixels. -/
  | pmax (w : IWord)
  /-- PAVG (R163): Rounded average of packed pixels. -/
  | pavg (w : IWord)
  /-- PABD (R163): Absolute difference of packed pixels. -/
  | pabd (w : IWord)
  /-- PSAD (R164): Sum of absolute pixel differences plus an accumulator. -/
  | psad (w : IWord)
  /-- PMAD (R164): Pixel gain and offset. -/
  | pmad (w : IWord)
  /-- PSHR (R163): Shifts packed pixels right. -/
  | pshr (w : IWord)
  /-- PPACK (R163): Packs two n32 values into pixels. -/
  | ppack (w : IWord)
  /-- PUNPK (R163): Unpacks one pixel to n32. -/
  | punpk (w : IWord)
  /-- PCLMP (R163): Clamps packed pixels between bounds. -/
  | pclmp (w : IWord)
  /-- SHFI (R171): Shuffle from an indexed lane. -/
  | shfi (w : IWord)
  /-- SHFU (R171): Shuffle from the lane idx below. -/
  | shfu (w : IWord)
  /-- SHFD (R171): Shuffle from the lane idx above. -/
  | shfd (w : IWord)
  /-- SHFX (R171): Shuffle from the lane L XOR idx. -/
  | shfx (w : IWord)
  /-- BCST (R171): Broadcasts one lane's value to the active lanes. -/
  | bcst (w : IWord)
  /-- QSWH (R172): Horizontal quad exchange. -/
  | qswh (w : IWord)
  /-- QSWV (R172): Vertical quad exchange. -/
  | qswv (w : IWord)
  /-- QSWD (R172): Diagonal quad exchange. -/
  | qswd (w : IWord)
  /-- QBCST (R172): Broadcast within a quad. -/
  | qbcst (w : IWord)
  /-- VANY (R173): Vote: true in any active lane. -/
  | vany (w : IWord)
  /-- VALL (R173): Vote: true in every active lane. -/
  | vall (w : IWord)
  /-- VBAL (R173): Ballot of the active lanes' predicates. -/
  | vbal (w : IWord)
  /-- SCANI (R176): Inclusive scan over the active lanes. -/
  | scani (w : IWord)
  /-- SCANE (R176): Exclusive scan over the active lanes. -/
  | scane (w : IWord)
  /-- REDW (R176): Reduction over the warp's active lanes. -/
  | redw (w : IWord)
  /-- MATCH (R177): Mask of the active lanes holding an equal bit pattern. -/
  | matchLanes (w : IWord)
  /-- ELECT (R174): Writes 1 to the lowest active lane and 0 to the others. -/
  | elect (w : IWord)
  /-- LD (R188): Loads from flat memory; the destination stays empty until delivery. -/
  | ld (w : IWord)
  /-- ST (R188): Stores to flat memory. -/
  | st (w : IWord)
  /-- LDS (R194): Loads from scratchpad. -/
  | lds (w : IWord)
  /-- STS (R194): Stores to scratchpad. -/
  | sts (w : IWord)
  /-- LDC (R197): Loads from the grid's constant window. -/
  | ldc (w : IWord)
  /-- PREF (R193): Prefetches a line, with no result and no fault. -/
  | pref (w : IWord)
  /-- FENCE (R192): Orders the lane's accesses at a scope. -/
  | fence (w : IWord)
  /-- AADD (R318): Atomic add at the home Square, returning the old value. -/
  | aadd (w : IWord)
  /-- AMIN (R318): Atomic minimum. -/
  | amin (w : IWord)
  /-- AMAX (R318): Atomic maximum. -/
  | amax (w : IWord)
  /-- AAND (R318): Atomic AND. -/
  | aand (w : IWord)
  /-- AOR (R318): Atomic OR. -/
  | aor (w : IWord)
  /-- AXOR (R318): Atomic XOR. -/
  | axor (w : IWord)
  /-- AXCH (R318): Atomic exchange. -/
  | axch (w : IWord)
  /-- ACAS (R318): Atomic compare-and-swap. -/
  | acas (w : IWord)
  /-- AINCB (R318): Atomic increment bounded by B. -/
  | aincb (w : IWord)
  /-- AINCW (R318): Atomic increment wrapping at a modulus. -/
  | aincw (w : IWord)
  /-- ADECZ (R318): Atomic decrement that stops at zero. -/
  | adecz (w : IWord)
  /-- AADDL (R319): Atomic add limited by a neighbouring word, returning a fail flag. -/
  | aaddl (w : IWord)
  /-- RADD (R318): Add reduction at memory, with no result. -/
  | radd (w : IWord)
  /-- RMIN (R318): Minimum reduction at memory. -/
  | rmin (w : IWord)
  /-- RMAX (R318): Maximum reduction at memory. -/
  | rmax (w : IWord)
  /-- DQPUSH (R322): Pushes an entry at the bottom of a deque. -/
  | dqpush (w : IWord)
  /-- DQPOP (R322): Pops an entry from the bottom of a deque. -/
  | dqpop (w : IWord)
  /-- DQSTEAL (R322): Steals an entry from the top of a deque. -/
  | dqsteal (w : IWord)
  /-- MARM (R324): Arms the lane's monitor on a line and returns the value there. -/
  | marm (w : IWord)
  /-- MWAIT (R326): Waits until the lane's monitor triggers or a timeout passes. -/
  | mwait (w : IWord)
  /-- SNEW (R343): Creates an empty set and returns its handle. -/
  | snew (w : IWord)
  /-- SFREE (R343): Frees a set and advances its generation. -/
  | sfree (w : IWord)
  /-- SINS (R342): Inserts an element into a set. -/
  | sins (w : IWord)
  /-- SDEL (R342): Deletes an element from a set. -/
  | sdel (w : IWord)
  /-- SHAS (R342): Tests membership of an element. -/
  | shas (w : IWord)
  /-- SCARD (R344): Returns the cardinality of a set. -/
  | scard (w : IWord)
  /-- SUNI (R344): Writes the union of two sets to the destination set. -/
  | suni (w : IWord)
  /-- SINT (R344): Writes the intersection of two sets to the destination set. -/
  | sint (w : IWord)
  /-- SDIF (R344): Writes the difference of two sets to the destination set. -/
  | sdif (w : IWord)
  /-- SCPY (R344): Copies a set into the destination set. -/
  | scpy (w : IWord)
  /-- SCLR (R344): Empties a set. -/
  | sclr (w : IWord)
  /-- SNEXT (R344): Returns the least member at or above e. -/
  | snext (w : IWord)
  /-- SRANK (R344): Returns the number of members below e. -/
  | srank (w : IWord)
  /-- SLOAD (R344): Inserts the elements of an array in memory. -/
  | sload (w : IWord)
  /-- SSTOR (R344): Writes the least members of a set to memory. -/
  | sstor (w : IWord)
  /-- SCOST (R350): Reads a set counter and optionally clears it. -/
  | scost (w : IWord)
  /-- SREP (R349): Reports the form and cost of the block holding e. -/
  | srep (w : IWord)
  /-- MACQ (R284): Requests ownership of the core's matrix engine. -/
  | macq (w : IWord)
  /-- MREL (R285): Waits for the engine's commands, folds FL, returns the token and hands ownership on. -/
  | mrel (w : IWord)
  /-- MCFG (R289): Loads and checks a tile configuration and clears the accumulator store. -/
  | mcfg (w : IWord)
  /-- MWLD (R292): Queues a command that latches a weight tile. -/
  | mwld (w : IWord)
  /-- MSTR (R294): Queues a command that streams activation rows densely into a tile. -/
  | mstr (w : IWord)
  /-- MSPR (R295): Queues a command that streams activation rows with zero products skipped. -/
  | mspr (w : IWord)
  /-- MDRN (R299): Drains accumulator rows to registers, mr or scratchpad. -/
  | mdrn (w : IWord)
  /-- MZER (R300): Clears a tile's entries. -/
  | mzer (w : IWord)
  /-- MLDA (R300): Loads accumulator rows from scratchpad. -/
  | mlda (w : IWord)
  /-- MSTA (R300): Stores accumulator rows to scratchpad. -/
  | msta (w : IWord)
  /-- MCNT (R301): Returns the contributor counts of a row. -/
  | mcnt (w : IWord)
  /-- MSYNC (R302): Waits for all earlier commands and returns the engine status. -/
  | msync (w : IWord)
  /-- MSTAT (R302): Returns the engine status at issue without waiting. -/
  | mstat (w : IWord)
  /-- CPY (R262): Starts a copy and returns its ticket. -/
  | cpy (w : IWord)
  /-- CPYW (R262): Starts a copy on a channel and returns the new issue end. -/
  | cpyw (w : IWord)
  /-- CPYW_CLR (R268): Clears a channel's error once its earlier copies have completed. -/
  | cpywClr (w : IWord)
  /-- CPYT (R262): Starts a copy between two iterator records. -/
  | cpyt (w : IWord)
  /-- CHWP (R267): Delivers a channel's write pointer. -/
  | chwp (w : IWord)
  /-- SWAIT (R260): Waits for a ticket's command and returns its status. -/
  | swait (w : IWord)
  /-- SWAIT_ALL (R260): Waits for every command the lane issued and returns a summary status. -/
  | swaitAll (w : IWord)
  /-- ISCFG (R274): Configures an indirect stream from scratchpad. -/
  | iscfg (w : IWord)
  /-- ISGO (R274): Starts an indirect stream gathering into a queue. -/
  | isgo (w : IWord)
  /-- ISSTP (R275): Stops a running indirect stream. -/
  | isstp (w : IWord)
  /-- ITDEF (R271): Defines an iterator record from scratchpad. -/
  | itdef (w : IWord)
  /-- SWEEP (R272): Starts an element-wise or reducing operation over iterator records. -/
  | sweep (w : IWord)
  /-- SRD (R276): Starts a storage read of blocks from a binding. -/
  | srd (w : IWord)
  /-- TRY (R204): Opens or nests a speculative try with a checkpoint. -/
  | tryOpen (w : IWord)
  /-- COMMIT (R209): Closes a try and applies its buffered stores as one event. -/
  | commit (w : IWord)
  /-- ABORT (R210): Aborts the open try with a user code. -/
  | abortTry (w : IWord)
  /-- TSTAT (R211): Delivers tstat after the pending conflict checks. -/
  | tstat (w : IWord)
  /-- QCFG (R199): Configures a queue register for the group. -/
  | qcfg (w : IWord)
  /-- QLEN (R202): Returns the entry count of a queue. -/
  | qlen (w : IWord)
  /-- QRST (R202): Empties a queue and keeps its configuration. -/
  | qrst (w : IWord)
  /-- TRAP (R379): Raises SOFT_TRAP with a code. -/
  | trap (w : IWord)
  /-- TRET (R379): Leaves the handler and resumes at xpc. -/
  | tret (w : IWord)
  /-- TRET_SKIP (R379): Leaves the handler and resumes past the trapping instruction. -/
  | tretSkip (w : IWord)
  /-- TRET_ENDG (R379): Ends the group; the exits trigger. -/
  | tretEndg (w : IWord)
  /-- TRET_ENDR (R379): Ends the grid as a kill with ST 1 and the trap cause. -/
  | tretEndr (w : IWord)
  /-- MFS (R380): Reads a system register in the handler. -/
  | mfs (w : IWord)
  /-- MTS (R380): Writes a system register in the handler. -/
  | mts (w : IWord)
  /-- LNCH (R381): Appends a launch record to a launch queue. -/
  | lnch (w : IWord)
  /-- LTRIG (R382): Marks the lane as triggered for trigger dependants. -/
  | ltrig (w : IWord)
  /-- IDEM (R382): Clears the group's idempotence flag. -/
  | idem (w : IWord)
  /-- BKPT (R384): Stops the lane for the debugger, or raises BREAKPOINT. -/
  | bkpt (w : IWord)
  /-- WATCH (R393): Sets a Stipple watched region. -/
  | watch (w : IWord)
  /-- UNWATCH (R393): Clears a watched region. -/
  | unwatch (w : IWord)
  /-- CNTR (R400): Reads a lane-cycle counter. -/
  | cntr (w : IWord)
  /-- CNTRST (R400): Zeroes the context's lane-cycle bank on the core. -/
  | cntrst (w : IWord)
  /-- TMARK (R401): Writes a trace mark record. -/
  | tmark (w : IWord)
  /-- FAULT_WORD (R39): A bundle issues a fault word, and every lane of it traps with the recorded cause. -/
  | faultWord (cause : Cause) (offset : Nat) (len : Nat)
  /-- INSTRUCTION_FILL (R38): The fill unit expands stored bytes into internal words or fault words. -/
  | instructionFill (core : Nat) (ctx : Nat) (va : BitVec 64)
  /-- OVERDUE (R68): A warp becomes overdue after 64 cycles ready without issuing. -/
  | overdue (w : WarpId)
  /-- PATH_TIMER_EXPIRY (R70): The path timer reaches PATHTMR and moves the warp's current path. -/
  | pathTimerExpiry (w : WarpId)
  /-- WARP_SWAP_OUT (R73): A waiting active warp is swapped out for a ready pending warp. -/
  | warpSwapOut (out : WarpId)
  /-- ACTIVE_SET_AGING (R74): A pending warp ready for 256 cycles displaces an active warp. -/
  | activeSetAging (w : WarpId)
  /-- DELIVERY (R13): A long-latency producer delivers its value and sets the register full. -/
  | delivery (l : LaneId) (k : Nat)
  /-- FAILED_DELIVERY (R190): A fault arising after the access left the lane leaves the register empty and parks the lane. -/
  | failedDelivery (l : LaneId) (k : Nat) (cause : Cause)
  /-- TRAP_DELIVERY (R85): A parked sub-warp's trap is delivered and its lanes start the handler. -/
  | trapDelivery (g : GroupId)
  /-- REPLAY (R87): Lanes parked for a replayable fault reissue their instruction. -/
  | replay (w : WarpId)
  /-- WATCHDOG (R377): A group's watchdog count reaches its limit and a WATCHDOG trap is formed. -/
  | watchdog (g : GroupId)
  /-- ADMISSION_GRANT (R29): The admission unit grants the request at the head of its queue. -/
  | admissionGrant (die : Nat)
  /-- ADMISSION_TIMEOUT (R29): A token wait outlasts the admission watchdog and the lane traps. -/
  | admissionTimeout (die : Nat) (k : Nat)
  /-- MWAIT_TIMEOUT (R326): The MWAIT timeout passes first, and the lane receives TIMEOUT. -/
  | mwaitTimeout (l : LaneId)
  /-- WRITE_APPLY (R244): A flat write arriving at a die is applied, or dropped by its stamp. -/
  | writeApply (die : Nat) (k : Nat)
  /-- SQUARE_OPERATION (R312): The home Square performs an atomic, reduction, deque or monitor request; from 4 on, a Square of another module (log 11). -/
  | squareOperation (die : Nat)
  /-- SET_OPERATION (R335): The home Square performs a set operation. -/
  | setOperation (die : Nat)
  /-- CQ_COMMAND (R261): The twelfth entry pushed to cq completes a command record that the engine checks and issues. -/
  | cqCommand (l : LaneId)
  /-- COPY_CHUNK (R263): The stream engine reads and writes one chunk of a copy. -/
  | copyChunk (core : Nat) (ticket : BitVec 32) (chunk : Nat)
  /-- SWEEP_RETIRE (R273): A sweep retires output elements in iteration order. -/
  | sweepRetire (core : Nat) (ticket : BitVec 32)
  /-- INDIRECT_STREAM_PUSH (R274): An indirect stream reads an index and table element and pushes it into its queue. -/
  | indirectStreamPush (core : Nat) (ticket : BitVec 32)
  /-- STREAM_COMPLETION (R257): A command completes: completion word, cd entry and event record. -/
  | streamCompletion (core : Nat) (ticket : BitVec 32)
  /-- CD_ENTRY_DELIVERY (R259): A completion held in the engine enters cd when room returns. -/
  | cdEntryDelivery (core : Nat)
  /-- MATRIX_COMMAND (R287): The engine executes the next queued command. -/
  | matrixCommand (core : Nat)
  /-- NVME_COMPLETION (R414): The host interface recognises an NVMe completion entry for a storage read. -/
  | nvmeCompletion (ctx binding : Nat) (cid : BitVec 16)
  /-- NVME_TIMEOUT (R414): An NVMe command finds no completion within TMO and the SRD fails. -/
  | nvmeTimeout (core : Nat) (ticket : BitVec 32)
  /-- REMOTE_TIMEOUT (R413): A remote access finds no reply within FTMO and fails. -/
  | remoteTimeout (l : LaneId) (k : Nat)
  /-- LAUNCH_RECORD (R363): The launch unit reads the record at HEAD of a queue and checks it. -/
  | launchRecord (q : Nat)
  /-- GRID_READY (R363): A record's dependences are met and its grid becomes ready. -/
  | gridReady (q : Nat)
  /-- PRIORITY_AGING (R364): A ready grid's effective priority rises every 4 ms. -/
  | priorityAging (q : Nat)
  /-- GANG_PLACEMENT (R364): A waiting or saved gang is placed on a close. -/
  | gangPlacement (gang : Nat) (close : Nat)
  /-- GANG_RETIRE (R31): A gang whose lanes and engine work have ended retires. -/
  | gangRetire (gang : Nat)
  /-- LAUNCH_PREEMPT (R366): The launch unit pre-empts a lower-priority gang for a waiting gang. -/
  | launchPreempt (waiting : Nat) (victim : Nat)
  /-- DRAIN_DEADLINE (R368): A drained gang has not retired after DRAINB × 2 cycles and is saved. -/
  | drainDeadline (gang : Nat)
  /-- SAVE (R369): A pre-empted gang's state is written to the save area once its producers have drained. -/
  | save (gang : Nat)
  /-- PREEMPT (R366): CTXOP PREEMPT pre-empts, or returns to waiting, every gang of the context. -/
  | preempt (ctx : Nat)
  /-- KILL (R370): CTXOP KILL ends every grid of the context. -/
  | kill (ctx : Nat)
  /-- DESTROY (R373): CTXOP DESTROY kills the context and resets its state, sets and key. -/
  | destroy (ctx : Nat)
  /-- XINV (R222): A write with GO starts a translation invalidation. -/
  | xinv (die : Nat) (value : BitVec 64)
  /-- XREPLAY (R225): A write with GO replays the context's parked accesses on the die. -/
  | xreplay (die : Nat) (value : BitVec 64)
  /-- PROMOTE (R235): A Skim command expands a transformed page into HBM and swaps its entry. -/
  | promote (engine : Nat)
  /-- DEMOTE (R235): A Skim command compresses a page into chunks and swaps its entry. -/
  | demote (engine : Nat)
  /-- ENGINE_RESET_STREAM (R278): ENGRST resets a stream engine. -/
  | engineResetStream (core : Nat)
  /-- ENGINE_RESET_MATRIX (R304): ENGRST resets a matrix engine. -/
  | engineResetMatrix (core : Nat)
  /-- ENGINE_RESET_SQUARE (R329): ENGRST resets a Square; from 4 on, a Square of another module (log 11). -/
  | engineResetSquare (die : Nat)
  /-- ENGINE_RESET_SKIM (R236): ENGRST resets a Skim engine. -/
  | engineResetSkim (engine : Nat)
  /-- MRST (R411): A write of MODCTL.MRST resets the module. -/
  | mrst
  /-- PCIE_CONVENTIONAL_RESET (R411): A PCIe conventional reset resets the module. -/
  | pcieConventionalReset
  /-- FUNCTION_LEVEL_RESET (R411): A function-level reset resets the module. -/
  | functionLevelReset
  /-- MODCTL_ABORT (R417): A write of MODCTL.ABORT ends the grids of a context with HOST_ABORT or FIRMWARE_ABORT. -/
  | modctlAbort (ctx : Nat) (byHost : Bool)
  /-- SELF_TEST (R409): A function finishes self-test and sets its READY or FAIL bit. -/
  | selfTest (bit : Nat) (passed : Bool)
  /-- FIRMWARE_VERIFY (R418): The boot ROM verifies the firmware image and reports the outcome. -/
  | firmwareVerify (result : Nat) (svn : BitVec 32)
  /-- SQUARE_READY (R410): The first write to SQOVSIZE after self-test makes the die's Square ready. -/
  | squareReady (die : Nat) (value : BitVec 64)
  /-- JUNCTION_ABOVE_THOT (R417): Junction temperature passes THOT, and token grants stop. -/
  | junctionAboveThot (die : Nat)
  /-- THERMAL_HALT (R417): Junction temperature passes TCRIT, and every grid ends. -/
  | thermalHalt
  /-- MACHINE_CHECK (R417): An uncorrectable error in core or engine state ends the affected grids. -/
  | machineCheck (die : Nat) (unit : Nat)
  /-- ATTESTATION_REPORT (R420): ATTGO 1 writes a signed attestation report. -/
  | attestationReport
  /-- IDENTITY_CERTIFICATE (R421): ATTGO 2 writes the identity certificate. -/
  | identityCertificate
  /-- KEY_LOAD (R421): A key-load message unwraps a context key into a slot and seals the context. -/
  | keyLoad
  /-- KEY_UNLOAD (R421): A key-load message with UNLOAD erases the slot and unseals the context. -/
  | keyUnload
  /-- HALT (R385): A DBGRUN HALT write stops every lane of the context. -/
  | halt (ctx : Nat)
  /-- GO (R383): A DBGRUN GO write resumes every debug-stopped lane of the context. -/
  | go (ctx : Nat)
  /-- DBGSTEP (R388): A DBGSTEP write single-steps the selected debug-stopped lanes. -/
  | dbgstep (ctx : Nat) (value : BitVec 64)
  /-- DBGSEL_READ (R383): A DBGSEL access reads a debug-stopped lane's register into DBGDATA. -/
  | dbgselRead (ctx : Nat) (value : BitVec 64)
  /-- DBGSEL_WRITE (R383): A DBGSEL access writes DBGDATA to a debug-stopped lane's register. -/
  | dbgselWrite (ctx : Nat) (value : BitVec 64)
  /-- DBGDUMP (R389): A DBGDUMP write dumps every debug-stopped lane's state to memory. -/
  | dbgdump (ctx : Nat) (value : BitVec 64)
  /-- TRDROP_READ (R383): A read of TRDROP returns the drop count and clears it. -/
  | trdropRead (die : Nat)
  /-- REGISTER_WRITE (R407): A write to a management register that has no row of its own. -/
  | registerWrite (r : MReg) (value : BitVec 64)
  /-- JUNCTION_BELOW_THOT (R417): Junction temperature falls below THOT, so token grants resume and cores halted by THERMAL_HALT issue again. -/
  | junctionBelowThot (die : Nat)
  /-- SPURIOUS_WAKE (R325): An armed monitor triggers spuriously, at any time, and wakes a waiting MWAIT with WOKEN. -/
  | spuriousWake (l : LaneId)
  /-- FABRIC_ERROR (R413): Aflolas flits fail the link's checks after retries, and the access fails with FABRIC_ERROR. -/
  | fabricError (l : LaneId) (k : Nat)
  /-- ADMRES_CHANGE (R415): The management controller sets ADMRES from measured rail power, which changes the budget available for grants. -/
  | admresChange (die : Nat) (units : BitVec 16)
  /-- ROUTING_TABLE_UPDATE (R413): The host installs a signed routing-table update, which sets MODID and the routes the fabric uses. -/
  | routingTableUpdate (module dsize : BitVec 3) (signed : SignedTable)
  /-- BADCMD (R234): A Skim engine takes a command whose OPC is neither PROMOTE nor DEMOTE and completes it with status BADCMD. -/
  | badcmd (engine : Nat)
  deriving DecidableEq, Repr

end Sys2Proof
end

