-- ==== Sys2Proof/Config.lean ====
section
/-! DEFINITION. What one module fixes for its lifetime, and the free values: constants without a body, which no proof can see into
(log 8, 9, 10, 13, 14). -/

namespace Sys2Proof

/-- The functions whose value within the stated bound the architecture leaves open (spec/06 R162). -/
inductive SpecialFn where
  | rsq | exp2 | log2 | sinpi | cospi | tanh
  deriving DecidableEq, Repr

/-- The bits that every core returns for a special function outside its exact cases, before the bound of R162 is imposed (log 8). -/
opaque Config.special : SpecialFn → Word → Nat

/-- A free value for the n-th open value met in a run (log 9). -/
opaque Config.freeValue : Nat → Word

/-- The elements of the n-th operand set read from another module, whose sets are no part of the state (log 11). -/
opaque Config.farElems : Nat → List Nat

/-- How that operand set is held: 0 its universe, 1 and 2 its mode and the capacity of its table, 3 and on the forms of its blocks, before the bounds
of spec/17 R338 to R340 are imposed (log 11). -/
opaque Config.farShape : Nat → Nat → Nat

/-- The physical close that test fused off on each die (spec/01 R10, R26), before it is taken modulo 13 (log 13). -/
opaque Config.fusedClose : Nat → Nat

/-- SHA-384 (spec/22 R418, R420, R421) of a list of bytes, as 48 bytes read little-endian (log 10). -/
opaque Config.sha384 : List Byte → Nat
/-- Signatures by the device identity and by the fused manufacturer key (spec/22 R420, R421; spec/21 R403), over a digest; the first
argument is true for the manufacturer key (log 10). -/
opaque Config.ed25519 : Bool → Nat → Nat
opaque Config.mlDsa65 : Bool → Nat → Nat
/-- The public keys of the device identity (spec/22 R421) (log 10). -/
opaque Config.identityKey : Nat → Nat
/-- The secrets that the device identity shares with a key-load message: of X25519 with its ephemeral key, and of ML-KEM-768 with its
ciphertext (spec/22 R421) (log 10). -/
opaque Config.x25519 : List Byte → List Byte
opaque Config.mlKem768 : List Byte → List Byte
/-- AES-256-GCM opened under a key: the plaintext of a nonce, additional data, a ciphertext and a tag, none when the tag does not verify
(spec/22 R421) (log 10). -/
opaque Config.gcmOpen : List Byte → Nat → List Byte → List Byte → Nat → Option (List Byte)
/-- A signature over a digest verifies under a public key: by ML-DSA-65 (true) or Ed25519 (spec/22 R419) (log 10). -/
opaque Config.verifies : Bool → List Byte → Nat → List Byte → Bool

/-- The module number and the domain size that a routing table gives, whose layout no rule states (spec/22 R413; log 10). -/
opaque Config.tableModule : List Byte → BitVec 3 × BitVec 3
/-- AES-256-GCM under a context key: the ciphertext and the tag of a plaintext with its nonce and additional data (spec/21 R403)
(log 10). -/
opaque Config.gcmText : Nat → Nat → List Byte → List Byte → List Byte
opaque Config.gcmTag : Nat → Nat → List Byte → List Byte → Nat
/-- The digest of the firmware image that runs (spec/22 R420) (log 10). -/
opaque Config.firmwareDigest : Nat
/-- The device's own layout of a save image or a dump, byte by byte after its header (spec/20 R369, spec/21 R389) (log 14). -/
opaque Config.imageByte : Nat → Nat → Byte
/-- The device's own layout of what a dump (1) or a spilled block (2) holds, from its contents as numbers (spec/21 R389, spec/17 R351)
(log 14, log 20). -/
opaque Config.layout : Nat → List Nat → List Byte
/-- The length of a save image or dump beyond its header, before the bound of R369 is imposed (log 14). -/
opaque Config.imageLength : Nat → Nat

end Sys2Proof
end

