-- ==== Sys2Proof/Machine/Bits.lean ====
section
/-! DEFINITION. Bit fields, sign extension and byte order (spec/00 R2, R3): F[hi:lo] as a number, bits of a register, a list of bytes
with the byte at the lowest address first. -/

namespace Sys2Proof

/-- `fld x hi lo` is the field x[hi:lo] as a number (R3). -/
def fld {n : Nat} (x : BitVec n) (hi lo : Nat) : Nat := (x.toNat >>> lo) % 2 ^ (hi + 1 - lo)

/-- `flg x i` is the bit x[i] (R3). -/
def flg {n : Nat} (x : BitVec n) (i : Nat) : Bool := x.getLsbD i

/-- The low `w` bits of `v` read as a two's complement number. -/
def sext (w v : Nat) : Int :=
  let u := v % 2 ^ w
  if w ≠ 0 ∧ 2 ^ (w - 1) ≤ u then (u : Int) - (2 ^ w : Nat) else u

/-- An integer reduced modulo 2^w. -/
def wrapInt (w : Nat) (x : Int) : Nat := (x % (2 ^ w : Nat)).toNat

/-- The `n` low bytes of `v`, lowest address first (R2). -/
def bytesLE : Nat → Nat → List Byte
  | 0, _ => []
  | n + 1, v => BitVec.ofNat 8 v :: bytesLE n (v / 256)

/-- The number whose bytes, lowest address first, are `bs` (R2). -/
def ofBytesLE : List Byte → Nat
  | [] => 0
  | b :: bs => b.toNat + 256 * ofBytesLE bs

/-- Bit `i` of a number. -/
def natBit (v i : Nat) : Bool := v / 2 ^ i % 2 = 1

/-- Replace bits hi:lo of `v` by the low bits of `x`. -/
def setFld {n : Nat} (v : BitVec n) (hi lo x : Nat) : BitVec n :=
  let m := 2 ^ (hi + 1 - lo)
  BitVec.ofNat n (v.toNat - fld v hi lo * 2 ^ lo + (x % m) * 2 ^ lo)

/-- ⌈a / b⌉ for b > 0. -/
def ceilDiv (a b : Nat) : Nat := (a + b - 1) / b

/-- Clamp an integer into [lo, hi]. -/
def clampInt (lo hi x : Int) : Int := max lo (min hi x)

/-- The number of one bits among the low `w` bits of `v`. -/
def popcount : Nat → Nat → Nat
  | 0, _ => 0
  | w + 1, v => v % 2 + popcount w (v / 2)

/-- Floor of log2, 0 for 0. -/
def ilog2 (n : Nat) : Nat := Nat.log2 n

/-- ⌈log2 n⌉ for n ≥ 1. -/
def clog2 (n : Nat) : Nat := if n ≤ 1 then 0 else Nat.log2 (n - 1) + 1

/-- The positions below `n` at which bit `i` of `m` is set, ascending. -/
def setBits (n : Nat) (m : Word) : List Nat := (List.range n).filter (fun i => m.getLsbD i)

/-- The 32-bit mask with exactly the bits of the list set (R2). -/
def maskOf (ls : List Nat) : Word := ls.foldl (fun m i => m ||| (1#32 <<< i)) 0#32

end Sys2Proof
end

