-- ==== Sys2Proof/WellFormed.lean ====
section
/-! DEFINITION. Which terms of the syntax are the fields an encoding can hold (spec/02 R33 to R35, R43, R45, R46, R50), and which events
name units that the module has (spec/00 R1). -/

namespace Sys2Proof

/-- The codes that R45 and R46 mark illegal. -/
def illegalCode (c : Nat) : Bool :=
  c == 0x9F || c == 0xAF || (0xB5 ≤ c && c ≤ 0xEF) || (0xF2 ≤ c && c ≤ 0xFD)

/-- Each operand is what one code names (R45, R46). -/
def Operand.wf : Operand → Bool
  | .g n => n < 128
  | .q n => n < 16
  | .m n => n < 12
  | .lc n => n < 3
  | .sr n => n < 21 && n != 15
  | .ill c => illegalCode c
  | .z | .absent | .imm | .none => true

/-- An illegal type is one of codes 25 to 31 (R50). -/
def Ty.wf : Ty → Bool
  | .ill k => k < 7
  | _ => true

/-- The guard fields are 0 without guard bytes (R35), and every field fits its width (R43). -/
def IWord.wf (w : IWord) : Bool :=
  w.gr < 128 && w.gb < 32 && (w.ge || (!w.gn && w.gr == 0 && w.gb == 0)) &&
  w.d.wf && w.a.wf && w.b.wf && w.c.wf && w.t.wf

/-- A core by its number over the module: die times 48 plus the logical core (R10). -/
def coreWf (core : Nat) : Bool := core < 192
/-- A compute die (R1). -/
def dieWf (die : Nat) : Bool := die < 4
/-- A Square: 0 to 3 of this module's dies, and 4 more than its domain id that of another module's (R312; log 11). -/
def squareWf (square : Nat) : Bool := square < 36
/-- A hardware context (R1, R357). -/
def ctxWf (ctx : Nat) : Bool := ctx < 64
/-- A lane index and the indices above it (R30, R60, R62). -/
def LaneId.wf (l : LaneId) : Bool := l.group < 4 && l.warp < 32 && l.lane < 32
def WarpId.wf (w : WarpId) : Bool := w.group < 4 && w.warp < 32
def GroupId.wf (g : GroupId) : Bool := g.group < 4

/-- A well-formed instruction: its fields are those of one encoding and, where two rows share an OP, it is the row that its own X and
B name (R161, R255, R378); a well-formed event names units that exist. -/
def Instr.wf : Instr → Bool
  | .nop w => w.wf
  | .bra w => w.wf
  | .brx w => w.wf
  | .call w => w.wf
  | .callx w => w.wf
  | .ret w => w.wf
  | .exit w => w.wf
  | .join w => w.wf
  | .leave w => w.wf
  | .waitm w => w.wf
  | .mset w => w.wf
  | .mget w => w.wf
  | .mand w => w.wf
  | .mor w => w.wf
  | .mnot w => w.wf
  | .yield w => w.wf
  | .loop w => w.wf
  | .loopx w => w.wf
  | .lbrk w => w.wf
  | .barg w => w.wf
  | .barn w => w.wf
  | .feset w => w.wf
  | .feclr w => w.wf
  | .mov w => w.wf
  | .movi w => w.wf
  | .iadd w => w.wf
  | .isub w => w.wf
  | .ineg w => w.wf
  | .iabs w => w.wf
  | .imul w => w.wf
  | .imulh w => w.wf
  | .imad w => w.wf
  | .imadw w => w.wf
  | .idiv w => w.wf
  | .irem w => w.wf
  | .imin w => w.wf
  | .imax w => w.wf
  | .iset w => w.wf
  | .sel w => w.wf
  | .and w => w.wf
  | .or w => w.wf
  | .xor w => w.wf
  | .not w => w.wf
  | .shl w => w.wf
  | .shr w => w.wf
  | .sar w => w.wf
  | .rot w => w.wf
  | .bfx w => w.wf
  | .bfi w => w.wf
  | .popc w => w.wf
  | .clz w => w.wf
  | .ctz w => w.wf
  | .brev w => w.wf
  | .prmb w => w.wf
  | .lea w => w.wf
  | .fadd w => w.wf
  | .fsub w => w.wf
  | .fmul w => w.wf
  | .ffma w => w.wf
  | .fmin w => w.wf
  | .fmax w => w.wf
  | .fabs w => w.wf
  | .fneg w => w.wf
  | .fset w => w.wf
  | .fclass w => w.wf
  | .fdot2 w => w.wf
  | .hadd2 w => w.wf
  | .hmul2 w => w.wf
  | .hfma2 w => w.wf
  | .cvt w => w.wf
  | .qgrp w => w.wf
  | .dqgrp w => w.wf
  | .amxrec w => w.wf
  | .amxget w => w.wf
  | .bexp w => w.wf
  | .absent w => w.wf && !(flg w.x 0 || w.b == .imm)
  | .absentMk w => w.wf && (flg w.x 0 || w.b == .imm)
  | .rcp w => w.wf
  | .rsq w => w.wf
  | .sqrt w => w.wf
  | .exp2 w => w.wf
  | .log2 w => w.wf
  | .sinpi w => w.wf
  | .cospi w => w.wf
  | .tanh w => w.wf
  | .padd w => w.wf
  | .psub w => w.wf
  | .pmin w => w.wf
  | .pmax w => w.wf
  | .pavg w => w.wf
  | .pabd w => w.wf
  | .psad w => w.wf
  | .pmad w => w.wf
  | .pshr w => w.wf
  | .ppack w => w.wf
  | .punpk w => w.wf
  | .pclmp w => w.wf
  | .shfi w => w.wf
  | .shfu w => w.wf
  | .shfd w => w.wf
  | .shfx w => w.wf
  | .bcst w => w.wf
  | .qswh w => w.wf
  | .qswv w => w.wf
  | .qswd w => w.wf
  | .qbcst w => w.wf
  | .vany w => w.wf
  | .vall w => w.wf
  | .vbal w => w.wf
  | .scani w => w.wf
  | .scane w => w.wf
  | .redw w => w.wf
  | .matchLanes w => w.wf
  | .elect w => w.wf
  | .ld w => w.wf
  | .st w => w.wf
  | .lds w => w.wf
  | .sts w => w.wf
  | .ldc w => w.wf
  | .pref w => w.wf
  | .fence w => w.wf
  | .aadd w => w.wf
  | .amin w => w.wf
  | .amax w => w.wf
  | .aand w => w.wf
  | .aor w => w.wf
  | .axor w => w.wf
  | .axch w => w.wf
  | .acas w => w.wf
  | .aincb w => w.wf
  | .aincw w => w.wf
  | .adecz w => w.wf
  | .aaddl w => w.wf
  | .radd w => w.wf
  | .rmin w => w.wf
  | .rmax w => w.wf
  | .dqpush w => w.wf
  | .dqpop w => w.wf
  | .dqsteal w => w.wf
  | .marm w => w.wf
  | .mwait w => w.wf
  | .snew w => w.wf
  | .sfree w => w.wf
  | .sins w => w.wf
  | .sdel w => w.wf
  | .shas w => w.wf
  | .scard w => w.wf
  | .suni w => w.wf
  | .sint w => w.wf
  | .sdif w => w.wf
  | .scpy w => w.wf
  | .sclr w => w.wf
  | .snext w => w.wf
  | .srank w => w.wf
  | .sload w => w.wf
  | .sstor w => w.wf
  | .scost w => w.wf
  | .srep w => w.wf
  | .macq w => w.wf
  | .mrel w => w.wf
  | .mcfg w => w.wf
  | .mwld w => w.wf
  | .mstr w => w.wf
  | .mspr w => w.wf
  | .mdrn w => w.wf
  | .mzer w => w.wf
  | .mlda w => w.wf
  | .msta w => w.wf
  | .mcnt w => w.wf
  | .msync w => w.wf
  | .mstat w => w.wf
  | .cpy w => w.wf
  | .cpyw w => w.wf && !flg w.x 15
  | .cpywClr w => w.wf && flg w.x 15
  | .cpyt w => w.wf
  | .chwp w => w.wf
  | .swait w => w.wf && fld w.x 3 0 != 1
  | .swaitAll w => w.wf && fld w.x 3 0 == 1
  | .iscfg w => w.wf
  | .isgo w => w.wf
  | .isstp w => w.wf
  | .itdef w => w.wf
  | .sweep w => w.wf
  | .srd w => w.wf
  | .tryOpen w => w.wf
  | .commit w => w.wf
  | .abortTry w => w.wf
  | .tstat w => w.wf
  | .qcfg w => w.wf
  | .qlen w => w.wf
  | .qrst w => w.wf
  | .trap w => w.wf
  | .tret w => w.wf && fld w.x 1 0 == 0
  | .tretSkip w => w.wf && fld w.x 1 0 == 1
  | .tretEndg w => w.wf && fld w.x 1 0 == 2
  | .tretEndr w => w.wf && fld w.x 1 0 == 3
  | .mfs w => w.wf
  | .mts w => w.wf
  | .lnch w => w.wf
  | .ltrig w => w.wf
  | .idem w => w.wf
  | .bkpt w => w.wf
  | .watch w => w.wf
  | .unwatch w => w.wf
  | .cntr w => w.wf
  | .cntrst w => w.wf
  | .tmark w => w.wf
  | .faultWord _ offset len => offset < 16 && len ≤ 16
  | .instructionFill core ctx _ => coreWf core && ctxWf ctx
  | .overdue w => w.wf
  | .pathTimerExpiry w => w.wf
  | .warpSwapOut out => out.wf
  | .activeSetAging w => w.wf
  | .delivery l _ => l.wf
  | .failedDelivery l _ _ => l.wf
  | .trapDelivery g => g.wf
  | .replay w => w.wf
  | .watchdog g => g.wf
  | .admissionGrant die => dieWf die
  | .admissionTimeout die _ => dieWf die
  | .mwaitTimeout l => l.wf
  | .writeApply die _ => dieWf die
  | .squareOperation die => squareWf die
  | .setOperation die => dieWf die
  | .cqCommand l => l.wf
  | .copyChunk core _ _ => coreWf core
  | .sweepRetire core _ => coreWf core
  | .indirectStreamPush core _ => coreWf core
  | .streamCompletion core _ => coreWf core
  | .cdEntryDelivery core => coreWf core
  | .matrixCommand core => coreWf core
  | .nvmeCompletion ctx binding _ => ctxWf ctx && decide (binding < 16)
  | .nvmeTimeout core _ => coreWf core
  | .remoteTimeout l _ => l.wf
  | .launchRecord q => q < 64
  | .gridReady q => q < 64
  | .priorityAging q => q < 64
  | .gangPlacement _ close => close < 48
  | .gangRetire _ => true
  | .launchPreempt _ _ => true
  | .drainDeadline _ => true
  | .save _ => true
  | .preempt ctx => ctxWf ctx
  | .kill ctx => ctxWf ctx
  | .destroy ctx => ctxWf ctx
  | .xinv die _ => dieWf die
  | .xreplay die _ => dieWf die
  | .promote engine => engine < 2
  | .demote engine => engine < 2
  | .engineResetStream core => coreWf core
  | .engineResetMatrix core => coreWf core
  | .engineResetSquare die => squareWf die
  | .engineResetSkim engine => engine < 2
  | .mrst => true
  | .pcieConventionalReset => true
  | .functionLevelReset => true
  | .modctlAbort ctx _ => ctxWf ctx
  | .selfTest bit _ => bit < 64
  | .firmwareVerify result _ => result < 5
  | .squareReady die _ => dieWf die
  | .junctionAboveThot die => dieWf die
  | .thermalHalt => true
  | .machineCheck die _ => dieWf die
  | .attestationReport => true
  | .identityCertificate => true
  | .keyLoad => true
  | .keyUnload => true
  | .halt ctx => ctxWf ctx
  | .go ctx => ctxWf ctx
  | .dbgstep ctx _ => ctxWf ctx
  | .dbgselRead ctx _ => ctxWf ctx
  | .dbgselWrite ctx _ => ctxWf ctx
  | .dbgdump ctx _ => ctxWf ctx
  | .trdropRead die => dieWf die
  | .registerWrite _ _ => true
  | .junctionBelowThot die => dieWf die
  | .spuriousWake l => l.wf
  | .fabricError l _ => l.wf
  | .admresChange die _ => dieWf die
  | .routingTableUpdate _ _ _ => true
  | .badcmd engine => engine < 2

end Sys2Proof
end

