-- ==== Sys2Proof/Decode.lean ====
section
/-! DEFINITION. The fill unit's decoding of stored bytes (spec/02 R32 to R38, R45, R50, R58), total on any bytes and rejecting by
cause, and after it the encoder written from the same tables (R33 to R36, R431). -/

namespace Sys2Proof

/-- What an operand code names (R45, R46). -/
def Operand.ofCode (c : Nat) : Operand :=
  if c < 0x80 then .g c
  else if c < 0x90 then .q (c - 0x80)
  else if c < 0x9C then .m (c - 0x90)
  else if c < 0x9F then .lc (c - 0x9C)
  else if c = 0x9F then .ill c
  else if c = 0xAF then .ill c
  else if c < 0xB5 then .sr (c - 0xA0)
  else if c < 0xF0 then .ill c
  else if c = 0xF0 then .z
  else if c = 0xF1 then .absent
  else if c = 0xFE then .imm
  else if c = 0xFF then .none
  else .ill c

/-- The operand code of an operand (R45, R46). -/
def Operand.code : Operand → Nat
  | .g n => n
  | .q n => 0x80 + n
  | .m n => 0x90 + n
  | .lc n => 0x9C + n
  | .sr n => 0xA0 + n
  | .z => 0xF0
  | .absent => 0xF1
  | .imm => 0xFE
  | .none => 0xFF
  | .ill c => c

/-- The legal type codes in order (R50). -/
def Ty.table : List Ty :=
  [.none, .b8, .b16, .b32, .b64, .b128, .i8, .i16, .i32, .i64, .n8, .n16, .n32, .n64, .f16, .bf16, .f32, .e4m3, .e5m2, .q4, .q8, .px2, .h2, .bh2, .q4x8]

/-- The type of a five-bit type code (R50). -/
def Ty.ofCode (c : Nat) : Ty := Ty.table.getD c (.ill (c - 25))

/-- The type code (R50). -/
def Ty.code : Ty → Nat
  | .none => 0
  | .b8 => 1
  | .b16 => 2
  | .b32 => 3
  | .b64 => 4
  | .b128 => 5
  | .i8 => 6
  | .i16 => 7
  | .i32 => 8
  | .i64 => 9
  | .n8 => 10
  | .n16 => 11
  | .n32 => 12
  | .n64 => 13
  | .f16 => 14
  | .bf16 => 15
  | .f32 => 16
  | .e4m3 => 17
  | .e5m2 => 18
  | .q4 => 19
  | .q8 => 20
  | .px2 => 21
  | .h2 => 22
  | .bh2 => 23
  | .q4x8 => 24
  | .ill k => 25 + k

/-- The six-bit cause code (R376). -/
def Cause.code : Cause → Nat
  | .none => 0
  | .illOpcode => 1
  | .illEncoding => 2
  | .illOperand => 3
  | .illType => 4
  | .illModifier => 5
  | .privileged => 6
  | .fetchFault => 7
  | .softTrap => 8
  | .breakpoint => 9
  | .singleStep => 10
  | .emptyRead => 11
  | .intDivZero => 12
  | .loopNest => 13
  | .loopRange => 14
  | .fpTrap => 15
  | .notPresent => 16
  | .permission => 17
  | .compressedWrite => 18
  | .misaligned => 19
  | .noncanonical => 20
  | .spadBounds => 21
  | .uncorrectable => 22
  | .transformFailed => 23
  | .roadworks => 24
  | .privateBounds => 25
  | .constBounds => 26
  | .poison => 27
  | .remoteTimeout => 28
  | .storageError => 29
  | .capacityTierError => 30
  | .atomicAlign => 31
  | .illConvergence => 32
  | .maskMismatch => 33
  | .queueUnconfigured => 34
  | .queueEmptyTrap => 35
  | .barrierMismatch => 36
  | .matrixNotOwner => 37
  | .matrixConfig => 38
  | .matrixFormat => 39
  | .setBadHandle => 40
  | .setUniverse => 41
  | .setStoreFull => 42
  | .dequeBad => 43
  | .streamBadCmd => 44
  | .iterRecordBad => 45
  | .monitorLimit => 46
  | .specIllegal => 47
  | .watchdog => 48
  | .kill => 49
  | .saveFailed => 50
  | .admissionTimeout => 51
  | .debugHalt => 52
  | .traceOverflow => 53
  | .sealedViolation => 54
  | .fabricError => 55
  | .launchFault => 56
  | .dependenceFailed => 57
  | .handlerFault => 58
  | .engineReset => 59
  | .thermalHalt => 60
  | .firmwareAbort => 61
  | .hostAbort => 62
  | .machineCheck => 63

/-- The causes in the order of their codes (R376). -/
def Cause.table : List Cause :=
  [.none, .illOpcode, .illEncoding, .illOperand, .illType, .illModifier, .privileged, .fetchFault,
   .softTrap, .breakpoint, .singleStep, .emptyRead, .intDivZero, .loopNest, .loopRange, .fpTrap,
   .notPresent, .permission, .compressedWrite, .misaligned, .noncanonical, .spadBounds, .uncorrectable, .transformFailed,
   .roadworks, .privateBounds, .constBounds, .poison, .remoteTimeout, .storageError, .capacityTierError, .atomicAlign,
   .illConvergence, .maskMismatch, .queueUnconfigured, .queueEmptyTrap, .barrierMismatch, .matrixNotOwner, .matrixConfig, .matrixFormat,
   .setBadHandle, .setUniverse, .setStoreFull, .dequeBad, .streamBadCmd, .iterRecordBad, .monitorLimit, .specIllegal,
   .watchdog, .kill, .saveFailed, .admissionTimeout, .debugHalt, .traceOverflow, .sealedViolation, .fabricError,
   .launchFault, .dependenceFailed, .handlerFault, .engineReset, .thermalHalt, .firmwareAbort, .hostAbort, .machineCheck]

/-- The cause of a six-bit code (R376). -/
def Cause.ofCode (c : Nat) : Cause := Cause.table.getD c .none

/-- ABSENT's two forms share an OP: MK = 1, or a literal in B, is the make form (R161). -/
def absentForm (w : IWord) : Instr := if flg w.x 0 ∨ w.b = .imm then .absentMk w else .absent w

/-- CPYW with CLR (X[15]) clears the channel's error (R254, R255, R268). -/
def cpywForm (w : IWord) : Instr := if flg w.x 15 then .cpywClr w else .cpyw w

/-- SWAIT with N0 = 1 is the `.all` form (R254, R255). -/
def swaitForm (w : IWord) : Instr := if fld w.x 3 0 = 1 then .swaitAll w else .swait w

/-- TRET's MODE in X[1:0] (R378, R379). -/
def tretForm (w : IWord) : Instr :=
  match fld w.x 1 0 with
  | 0 => .tret w
  | 1 => .tretSkip w
  | 2 => .tretEndg w
  | _ => .tretEndr w

/-- Group 0x0: OP 0x000 onward (R58). -/
def controlOps : List (IWord → Instr) :=
  [.nop, .bra, .brx, .call, .callx, .ret, .exit, .join,
   .leave, .waitm, .mset, .mget, .mand, .mor, .mnot, .yield,
   .loop, .loopx, .lbrk, .barg, .barn, .feset, .feclr]

/-- Group 0x1: OP 0x040 onward (R58). -/
def integerOps : List (IWord → Instr) :=
  [.mov, .movi, .iadd, .isub, .ineg, .iabs, .imul, .imulh,
   .imad, .imadw, .idiv, .irem, .imin, .imax, .iset, .sel,
   .and, .or, .xor, .not, .shl, .shr, .sar, .rot,
   .bfx, .bfi, .popc, .clz, .ctz, .brev, .prmb, .lea]

/-- Group 0x2: OP 0x080 onward (R58). -/
def floatOps : List (IWord → Instr) :=
  [.fadd, .fsub, .fmul, .ffma, .fmin, .fmax, .fabs, .fneg,
   .fset, .fclass, .fdot2, .hadd2, .hmul2, .hfma2]

/-- Group 0x3: OP 0x0C0 onward (R58). -/
def conversionOps : List (IWord → Instr) :=
  [.cvt, .qgrp, .dqgrp, .amxrec, .amxget, .bexp, absentForm]

/-- Group 0x4: OP 0x100 onward (R58). -/
def specialOps : List (IWord → Instr) :=
  [.rcp, .rsq, .sqrt, .exp2, .log2, .sinpi, .cospi, .tanh,
   .padd, .psub, .pmin, .pmax, .pavg, .pabd, .psad, .pmad,
   .pshr, .ppack, .punpk, .pclmp]

/-- Group 0x5: OP 0x140 onward (R58). -/
def crossLaneOps : List (IWord → Instr) :=
  [.shfi, .shfu, .shfd, .shfx, .bcst, .qswh, .qswv, .qswd,
   .qbcst, .vany, .vall, .vbal, .scani, .scane, .redw, .matchLanes,
   .elect]

/-- Group 0x6: OP 0x180 onward (R58). -/
def memoryOps : List (IWord → Instr) :=
  [.ld, .st, .lds, .sts, .ldc, .pref, .fence]

/-- Group 0x7: OP 0x1C0 onward (R58). -/
def squareOps : List (IWord → Instr) :=
  [.aadd, .amin, .amax, .aand, .aor, .axor, .axch, .acas,
   .aincb, .aincw, .adecz, .aaddl, .radd, .rmin, .rmax, .dqpush,
   .dqpop, .dqsteal, .marm, .mwait]

/-- Group 0x8: OP 0x200 onward (R58). -/
def setOps : List (IWord → Instr) :=
  [.snew, .sfree, .sins, .sdel, .shas, .scard, .suni, .sint,
   .sdif, .scpy, .sclr, .snext, .srank, .sload, .sstor, .scost,
   .srep]

/-- Group 0x9: OP 0x240 onward (R58). -/
def matrixOps : List (IWord → Instr) :=
  [.macq, .mrel, .mcfg, .mwld, .mstr, .mspr, .mdrn, .mzer,
   .mlda, .msta, .mcnt, .msync, .mstat]

/-- Group 0xA: OP 0x280 onward (R58). -/
def streamOps : List (IWord → Instr) :=
  [.cpy, cpywForm, .cpyt, .chwp, swaitForm, .iscfg, .isgo, .isstp,
   .itdef, .sweep, .srd]

/-- Group 0xB: OP 0x2C0 onward (R58). -/
def speculationOps : List (IWord → Instr) :=
  [.tryOpen, .commit, .abortTry, .tstat, .qcfg, .qlen, .qrst]

/-- Group 0xC: OP 0x300 onward (R58). -/
def systemOps : List (IWord → Instr) :=
  [.trap, tretForm, .mfs, .mts, .lnch, .ltrig, .idem]

/-- Group 0xD: OP 0x340 onward (R58). -/
def debugOps : List (IWord → Instr) :=
  [.bkpt, .watch, .unwatch, .cntr, .cntrst, .tmark]

/-- The assigned groups of the opcode map; groups 0xE and 0xF hold nothing (R58). -/
def opGroups : List (List (IWord → Instr)) :=
  [controlOps, integerOps, floatOps, conversionOps, specialOps, crossLaneOps, memoryOps,
   squareOps, setOps, matrixOps, streamOps, speculationOps, systemOps, debugOps]

/-- The instruction that an OP value and its fields name; none for an OP without an entry (R58). -/
def ofOp (op : Nat) (w : IWord) : Option Instr := ((opGroups.getD (op / 64) [])[op % 64]?).map (fun f => f w)

/-- What the fill unit keeps for one start address: an internal word, or a fault word (R38, R41). -/
inductive Filled where
  | word (i : Instr) (len : Nat)
  | fault (cause : Cause) (offset : Nat) (len : Nat)
  deriving DecidableEq, Repr

/-- The bit of a byte as a count, 0 or 1. -/
def bit1 (h : Byte) (i : Nat) : Nat := if flg h i then 1 else 0

/-- The length of an instruction from its header byte alone (R36). -/
def lengthOf (h : Byte) : Nat := 5 + bit1 h 3 + bit1 h 4 + bit1 h 2 + 2 * bit1 h 7 + 4 * bit1 h 6 + 2 * bit1 h 5

/-- Offsets of the bytes after A in the stored form (R34): W, G0, G1, T, X. -/
def posW (h : Byte) : Nat := 4 + bit1 h 3 + bit1 h 4
def posG (h : Byte) : Nat := posW h + bit1 h 2
def posT (h : Byte) : Nat := posG h + 2 * bit1 h 7
def posX (h : Byte) : Nat := posT h + 1

/-- Byte `i` of a stored instruction, 0 beyond its end. -/
def byteAt (bs : List Byte) (i : Nat) : Byte := bs.getD i 0#8

/-- OP, from H[1:0] and OPL (R33, R34). -/
def opOf (bs : List Byte) : Nat := fld (byteAt bs 0) 1 0 * 256 + (byteAt bs 1).toNat

/-- X: four bytes, two bytes sign-extended from X[15], or 0 (R33 to R35). -/
def xOf (bs : List Byte) : Word :=
  let h := byteAt bs 0
  if flg h 6 then BitVec.ofNat 32 (ofBytesLE ((bs.drop (posX h)).take 4))
  else if flg h 5 then (BitVec.ofNat 16 (ofBytesLE ((bs.drop (posX h)).take 2))).signExtend 32
  else 0#32

/-- The fields of the internal word that the stored bytes expand to (R34, R35, R43). -/
def expand (bs : List Byte) : IWord :=
  let h := byteAt bs 0
  let w := if flg h 2 then byteAt bs (posW h) else 0#8
  let g0 := if flg h 7 then byteAt bs (posG h) else 0#8
  let g1 := if flg h 7 then byteAt bs (posG h + 1) else 0#8
  { ge := flg h 7, gn := flg g0 7, gr := fld g0 6 0, gb := fld g1 4 0,
    d := .ofCode (byteAt bs 2).toNat, a := .ofCode (byteAt bs 3).toNat,
    b := .ofCode (if flg h 3 then (byteAt bs 4).toNat else 0xFF),
    c := .ofCode (if flg h 4 then (byteAt bs 5).toNat else 0xFF),
    wc := flg w 2, wb := flg w 1, wa := flg w 0,
    t := .ofCode (fld (byteAt bs (posT h)) 4 0), x := xOf bs }

/-- The offset of the lowest byte of W, G1 or T that holds a must-be-zero bit (R34, R38 row 4). -/
def mbzOffset (bs : List Byte) : Option Nat :=
  let h := byteAt bs 0
  if flg h 2 ∧ fld (byteAt bs (posW h)) 7 3 ≠ 0 then some (posW h)
  else if flg h 7 ∧ fld (byteAt bs (posG h + 1)) 7 5 ≠ 0 then some (posG h + 1)
  else if fld (byteAt bs (posT h)) 7 5 ≠ 0 then some (posT h)
  else none

/-- The fill unit on the bytes it could fetch from an instruction's start address, in the order of R38's table; a byte the list
does not reach could not be fetched. -/
def fill (bs : List Byte) : Filled :=
  match bs with
  | [] => .fault .fetchFault 0 0
  | h :: _ =>
    let len := lengthOf h
    if bs.length < len then .fault .fetchFault bs.length len
    else if flg h 6 ∧ flg h 5 then .fault .illEncoding 0 len
    else if flg h 4 ∧ ¬ flg h 3 then .fault .illEncoding 0 len
    else match mbzOffset bs with
      | some k => .fault .illEncoding k len
      | none =>
        match ofOp (opOf bs) (expand bs) with
        | some i => .word i len
        | none => .fault .illOpcode 1 len

/-- The instruction at the head of a list of bytes, with the bytes after it; none where the fill unit keeps a fault word. -/
def decode (bs : List Byte) : Option (Instr × List Byte) :=
  match fill bs with
  | .word i len => some (i, bs.drop len)
  | .fault _ _ _ => none

/-- The longest stored form, in bytes, that is an instruction (R36). -/
def maxLen : Nat := 16

/-- The decoder on bits numbered as the opcode table numbers them: bit 0 is the least significant bit of the first byte, the second
byte is bits 15:8, and every bit above `nbits` is 0. -/
def decodeTableWord (nbits w : Nat) : Option Instr := (decode (bytesLE maxLen (w % 2 ^ nbits))).map Prod.fst

/-- The OP value of an instruction; none for an event of the device (R58). -/
def Instr.op : Instr → Option Nat
  | .nop _ => some 0x000
  | .bra _ => some 0x001
  | .brx _ => some 0x002
  | .call _ => some 0x003
  | .callx _ => some 0x004
  | .ret _ => some 0x005
  | .exit _ => some 0x006
  | .join _ => some 0x007
  | .leave _ => some 0x008
  | .waitm _ => some 0x009
  | .mset _ => some 0x00A
  | .mget _ => some 0x00B
  | .mand _ => some 0x00C
  | .mor _ => some 0x00D
  | .mnot _ => some 0x00E
  | .yield _ => some 0x00F
  | .loop _ => some 0x010
  | .loopx _ => some 0x011
  | .lbrk _ => some 0x012
  | .barg _ => some 0x013
  | .barn _ => some 0x014
  | .feset _ => some 0x015
  | .feclr _ => some 0x016
  | .mov _ => some 0x040
  | .movi _ => some 0x041
  | .iadd _ => some 0x042
  | .isub _ => some 0x043
  | .ineg _ => some 0x044
  | .iabs _ => some 0x045
  | .imul _ => some 0x046
  | .imulh _ => some 0x047
  | .imad _ => some 0x048
  | .imadw _ => some 0x049
  | .idiv _ => some 0x04A
  | .irem _ => some 0x04B
  | .imin _ => some 0x04C
  | .imax _ => some 0x04D
  | .iset _ => some 0x04E
  | .sel _ => some 0x04F
  | .and _ => some 0x050
  | .or _ => some 0x051
  | .xor _ => some 0x052
  | .not _ => some 0x053
  | .shl _ => some 0x054
  | .shr _ => some 0x055
  | .sar _ => some 0x056
  | .rot _ => some 0x057
  | .bfx _ => some 0x058
  | .bfi _ => some 0x059
  | .popc _ => some 0x05A
  | .clz _ => some 0x05B
  | .ctz _ => some 0x05C
  | .brev _ => some 0x05D
  | .prmb _ => some 0x05E
  | .lea _ => some 0x05F
  | .fadd _ => some 0x080
  | .fsub _ => some 0x081
  | .fmul _ => some 0x082
  | .ffma _ => some 0x083
  | .fmin _ => some 0x084
  | .fmax _ => some 0x085
  | .fabs _ => some 0x086
  | .fneg _ => some 0x087
  | .fset _ => some 0x088
  | .fclass _ => some 0x089
  | .fdot2 _ => some 0x08A
  | .hadd2 _ => some 0x08B
  | .hmul2 _ => some 0x08C
  | .hfma2 _ => some 0x08D
  | .cvt _ => some 0x0C0
  | .qgrp _ => some 0x0C1
  | .dqgrp _ => some 0x0C2
  | .amxrec _ => some 0x0C3
  | .amxget _ => some 0x0C4
  | .bexp _ => some 0x0C5
  | .absent _ => some 0x0C6
  | .absentMk _ => some 0x0C6
  | .rcp _ => some 0x100
  | .rsq _ => some 0x101
  | .sqrt _ => some 0x102
  | .exp2 _ => some 0x103
  | .log2 _ => some 0x104
  | .sinpi _ => some 0x105
  | .cospi _ => some 0x106
  | .tanh _ => some 0x107
  | .padd _ => some 0x108
  | .psub _ => some 0x109
  | .pmin _ => some 0x10A
  | .pmax _ => some 0x10B
  | .pavg _ => some 0x10C
  | .pabd _ => some 0x10D
  | .psad _ => some 0x10E
  | .pmad _ => some 0x10F
  | .pshr _ => some 0x110
  | .ppack _ => some 0x111
  | .punpk _ => some 0x112
  | .pclmp _ => some 0x113
  | .shfi _ => some 0x140
  | .shfu _ => some 0x141
  | .shfd _ => some 0x142
  | .shfx _ => some 0x143
  | .bcst _ => some 0x144
  | .qswh _ => some 0x145
  | .qswv _ => some 0x146
  | .qswd _ => some 0x147
  | .qbcst _ => some 0x148
  | .vany _ => some 0x149
  | .vall _ => some 0x14A
  | .vbal _ => some 0x14B
  | .scani _ => some 0x14C
  | .scane _ => some 0x14D
  | .redw _ => some 0x14E
  | .matchLanes _ => some 0x14F
  | .elect _ => some 0x150
  | .ld _ => some 0x180
  | .st _ => some 0x181
  | .lds _ => some 0x182
  | .sts _ => some 0x183
  | .ldc _ => some 0x184
  | .pref _ => some 0x185
  | .fence _ => some 0x186
  | .aadd _ => some 0x1C0
  | .amin _ => some 0x1C1
  | .amax _ => some 0x1C2
  | .aand _ => some 0x1C3
  | .aor _ => some 0x1C4
  | .axor _ => some 0x1C5
  | .axch _ => some 0x1C6
  | .acas _ => some 0x1C7
  | .aincb _ => some 0x1C8
  | .aincw _ => some 0x1C9
  | .adecz _ => some 0x1CA
  | .aaddl _ => some 0x1CB
  | .radd _ => some 0x1CC
  | .rmin _ => some 0x1CD
  | .rmax _ => some 0x1CE
  | .dqpush _ => some 0x1CF
  | .dqpop _ => some 0x1D0
  | .dqsteal _ => some 0x1D1
  | .marm _ => some 0x1D2
  | .mwait _ => some 0x1D3
  | .snew _ => some 0x200
  | .sfree _ => some 0x201
  | .sins _ => some 0x202
  | .sdel _ => some 0x203
  | .shas _ => some 0x204
  | .scard _ => some 0x205
  | .suni _ => some 0x206
  | .sint _ => some 0x207
  | .sdif _ => some 0x208
  | .scpy _ => some 0x209
  | .sclr _ => some 0x20A
  | .snext _ => some 0x20B
  | .srank _ => some 0x20C
  | .sload _ => some 0x20D
  | .sstor _ => some 0x20E
  | .scost _ => some 0x20F
  | .srep _ => some 0x210
  | .macq _ => some 0x240
  | .mrel _ => some 0x241
  | .mcfg _ => some 0x242
  | .mwld _ => some 0x243
  | .mstr _ => some 0x244
  | .mspr _ => some 0x245
  | .mdrn _ => some 0x246
  | .mzer _ => some 0x247
  | .mlda _ => some 0x248
  | .msta _ => some 0x249
  | .mcnt _ => some 0x24A
  | .msync _ => some 0x24B
  | .mstat _ => some 0x24C
  | .cpy _ => some 0x280
  | .cpyw _ => some 0x281
  | .cpywClr _ => some 0x281
  | .cpyt _ => some 0x282
  | .chwp _ => some 0x283
  | .swait _ => some 0x284
  | .swaitAll _ => some 0x284
  | .iscfg _ => some 0x285
  | .isgo _ => some 0x286
  | .isstp _ => some 0x287
  | .itdef _ => some 0x288
  | .sweep _ => some 0x289
  | .srd _ => some 0x28A
  | .tryOpen _ => some 0x2C0
  | .commit _ => some 0x2C1
  | .abortTry _ => some 0x2C2
  | .tstat _ => some 0x2C3
  | .qcfg _ => some 0x2C4
  | .qlen _ => some 0x2C5
  | .qrst _ => some 0x2C6
  | .trap _ => some 0x300
  | .tret _ => some 0x301
  | .tretSkip _ => some 0x301
  | .tretEndg _ => some 0x301
  | .tretEndr _ => some 0x301
  | .mfs _ => some 0x302
  | .mts _ => some 0x303
  | .lnch _ => some 0x304
  | .ltrig _ => some 0x305
  | .idem _ => some 0x306
  | .bkpt _ => some 0x340
  | .watch _ => some 0x341
  | .unwatch _ => some 0x342
  | .cntr _ => some 0x343
  | .cntrst _ => some 0x344
  | .tmark _ => some 0x345
  | .faultWord _ _ _ => none
  | .instructionFill _ _ _ => none
  | .overdue _ => none
  | .pathTimerExpiry _ => none
  | .warpSwapOut _ => none
  | .activeSetAging _ => none
  | .delivery _ _ => none
  | .failedDelivery _ _ _ => none
  | .trapDelivery _ => none
  | .replay _ => none
  | .watchdog _ => none
  | .admissionGrant _ => none
  | .admissionTimeout _ _ => none
  | .mwaitTimeout _ => none
  | .writeApply _ _ => none
  | .squareOperation _ => none
  | .setOperation _ => none
  | .cqCommand _ => none
  | .copyChunk _ _ _ => none
  | .sweepRetire _ _ => none
  | .indirectStreamPush _ _ => none
  | .streamCompletion _ _ => none
  | .cdEntryDelivery _ => none
  | .matrixCommand _ => none
  | .nvmeCompletion _ _ _ => none
  | .nvmeTimeout _ _ => none
  | .remoteTimeout _ _ => none
  | .launchRecord _ => none
  | .gridReady _ => none
  | .priorityAging _ => none
  | .gangPlacement _ _ => none
  | .gangRetire _ => none
  | .launchPreempt _ _ => none
  | .drainDeadline _ => none
  | .save _ => none
  | .preempt _ => none
  | .kill _ => none
  | .destroy _ => none
  | .xinv _ _ => none
  | .xreplay _ _ => none
  | .promote _ => none
  | .demote _ => none
  | .engineResetStream _ => none
  | .engineResetMatrix _ => none
  | .engineResetSquare _ => none
  | .engineResetSkim _ => none
  | .mrst => none
  | .pcieConventionalReset => none
  | .functionLevelReset => none
  | .modctlAbort _ _ => none
  | .selfTest _ _ => none
  | .firmwareVerify _ _ => none
  | .squareReady _ _ => none
  | .junctionAboveThot _ => none
  | .thermalHalt => none
  | .machineCheck _ _ => none
  | .attestationReport => none
  | .identityCertificate => none
  | .keyLoad => none
  | .keyUnload => none
  | .halt _ => none
  | .go _ => none
  | .dbgstep _ _ => none
  | .dbgselRead _ _ => none
  | .dbgselWrite _ _ => none
  | .dbgdump _ _ => none
  | .trdropRead _ => none
  | .registerWrite _ _ => none
  | .junctionBelowThot _ => none
  | .spuriousWake _ => none
  | .fabricError _ _ => none
  | .admresChange _ _ => none
  | .routingTableUpdate _ _ _ => none
  | .badcmd _ => none

/-- The fields of an instruction's internal word; none for an event of the device (R43). -/
def Instr.word : Instr → Option IWord
  | .nop w => some w
  | .bra w => some w
  | .brx w => some w
  | .call w => some w
  | .callx w => some w
  | .ret w => some w
  | .exit w => some w
  | .join w => some w
  | .leave w => some w
  | .waitm w => some w
  | .mset w => some w
  | .mget w => some w
  | .mand w => some w
  | .mor w => some w
  | .mnot w => some w
  | .yield w => some w
  | .loop w => some w
  | .loopx w => some w
  | .lbrk w => some w
  | .barg w => some w
  | .barn w => some w
  | .feset w => some w
  | .feclr w => some w
  | .mov w => some w
  | .movi w => some w
  | .iadd w => some w
  | .isub w => some w
  | .ineg w => some w
  | .iabs w => some w
  | .imul w => some w
  | .imulh w => some w
  | .imad w => some w
  | .imadw w => some w
  | .idiv w => some w
  | .irem w => some w
  | .imin w => some w
  | .imax w => some w
  | .iset w => some w
  | .sel w => some w
  | .and w => some w
  | .or w => some w
  | .xor w => some w
  | .not w => some w
  | .shl w => some w
  | .shr w => some w
  | .sar w => some w
  | .rot w => some w
  | .bfx w => some w
  | .bfi w => some w
  | .popc w => some w
  | .clz w => some w
  | .ctz w => some w
  | .brev w => some w
  | .prmb w => some w
  | .lea w => some w
  | .fadd w => some w
  | .fsub w => some w
  | .fmul w => some w
  | .ffma w => some w
  | .fmin w => some w
  | .fmax w => some w
  | .fabs w => some w
  | .fneg w => some w
  | .fset w => some w
  | .fclass w => some w
  | .fdot2 w => some w
  | .hadd2 w => some w
  | .hmul2 w => some w
  | .hfma2 w => some w
  | .cvt w => some w
  | .qgrp w => some w
  | .dqgrp w => some w
  | .amxrec w => some w
  | .amxget w => some w
  | .bexp w => some w
  | .absent w => some w
  | .absentMk w => some w
  | .rcp w => some w
  | .rsq w => some w
  | .sqrt w => some w
  | .exp2 w => some w
  | .log2 w => some w
  | .sinpi w => some w
  | .cospi w => some w
  | .tanh w => some w
  | .padd w => some w
  | .psub w => some w
  | .pmin w => some w
  | .pmax w => some w
  | .pavg w => some w
  | .pabd w => some w
  | .psad w => some w
  | .pmad w => some w
  | .pshr w => some w
  | .ppack w => some w
  | .punpk w => some w
  | .pclmp w => some w
  | .shfi w => some w
  | .shfu w => some w
  | .shfd w => some w
  | .shfx w => some w
  | .bcst w => some w
  | .qswh w => some w
  | .qswv w => some w
  | .qswd w => some w
  | .qbcst w => some w
  | .vany w => some w
  | .vall w => some w
  | .vbal w => some w
  | .scani w => some w
  | .scane w => some w
  | .redw w => some w
  | .matchLanes w => some w
  | .elect w => some w
  | .ld w => some w
  | .st w => some w
  | .lds w => some w
  | .sts w => some w
  | .ldc w => some w
  | .pref w => some w
  | .fence w => some w
  | .aadd w => some w
  | .amin w => some w
  | .amax w => some w
  | .aand w => some w
  | .aor w => some w
  | .axor w => some w
  | .axch w => some w
  | .acas w => some w
  | .aincb w => some w
  | .aincw w => some w
  | .adecz w => some w
  | .aaddl w => some w
  | .radd w => some w
  | .rmin w => some w
  | .rmax w => some w
  | .dqpush w => some w
  | .dqpop w => some w
  | .dqsteal w => some w
  | .marm w => some w
  | .mwait w => some w
  | .snew w => some w
  | .sfree w => some w
  | .sins w => some w
  | .sdel w => some w
  | .shas w => some w
  | .scard w => some w
  | .suni w => some w
  | .sint w => some w
  | .sdif w => some w
  | .scpy w => some w
  | .sclr w => some w
  | .snext w => some w
  | .srank w => some w
  | .sload w => some w
  | .sstor w => some w
  | .scost w => some w
  | .srep w => some w
  | .macq w => some w
  | .mrel w => some w
  | .mcfg w => some w
  | .mwld w => some w
  | .mstr w => some w
  | .mspr w => some w
  | .mdrn w => some w
  | .mzer w => some w
  | .mlda w => some w
  | .msta w => some w
  | .mcnt w => some w
  | .msync w => some w
  | .mstat w => some w
  | .cpy w => some w
  | .cpyw w => some w
  | .cpywClr w => some w
  | .cpyt w => some w
  | .chwp w => some w
  | .swait w => some w
  | .swaitAll w => some w
  | .iscfg w => some w
  | .isgo w => some w
  | .isstp w => some w
  | .itdef w => some w
  | .sweep w => some w
  | .srd w => some w
  | .tryOpen w => some w
  | .commit w => some w
  | .abortTry w => some w
  | .tstat w => some w
  | .qcfg w => some w
  | .qlen w => some w
  | .qrst w => some w
  | .trap w => some w
  | .tret w => some w
  | .tretSkip w => some w
  | .tretEndg w => some w
  | .tretEndr w => some w
  | .mfs w => some w
  | .mts w => some w
  | .lnch w => some w
  | .ltrig w => some w
  | .idem w => some w
  | .bkpt w => some w
  | .watch w => some w
  | .unwatch w => some w
  | .cntr w => some w
  | .cntrst w => some w
  | .tmark w => some w
  | .faultWord _ _ _ => none
  | .instructionFill _ _ _ => none
  | .overdue _ => none
  | .pathTimerExpiry _ => none
  | .warpSwapOut _ => none
  | .activeSetAging _ => none
  | .delivery _ _ => none
  | .failedDelivery _ _ _ => none
  | .trapDelivery _ => none
  | .replay _ => none
  | .watchdog _ => none
  | .admissionGrant _ => none
  | .admissionTimeout _ _ => none
  | .mwaitTimeout _ => none
  | .writeApply _ _ => none
  | .squareOperation _ => none
  | .setOperation _ => none
  | .cqCommand _ => none
  | .copyChunk _ _ _ => none
  | .sweepRetire _ _ => none
  | .indirectStreamPush _ _ => none
  | .streamCompletion _ _ => none
  | .cdEntryDelivery _ => none
  | .matrixCommand _ => none
  | .nvmeCompletion _ _ _ => none
  | .nvmeTimeout _ _ => none
  | .remoteTimeout _ _ => none
  | .launchRecord _ => none
  | .gridReady _ => none
  | .priorityAging _ => none
  | .gangPlacement _ _ => none
  | .gangRetire _ => none
  | .launchPreempt _ _ => none
  | .drainDeadline _ => none
  | .save _ => none
  | .preempt _ => none
  | .kill _ => none
  | .destroy _ => none
  | .xinv _ _ => none
  | .xreplay _ _ => none
  | .promote _ => none
  | .demote _ => none
  | .engineResetStream _ => none
  | .engineResetMatrix _ => none
  | .engineResetSquare _ => none
  | .engineResetSkim _ => none
  | .mrst => none
  | .pcieConventionalReset => none
  | .functionLevelReset => none
  | .modctlAbort _ _ => none
  | .selfTest _ _ => none
  | .firmwareVerify _ _ => none
  | .squareReady _ _ => none
  | .junctionAboveThot _ => none
  | .thermalHalt => none
  | .machineCheck _ _ => none
  | .attestationReport => none
  | .identityCertificate => none
  | .keyLoad => none
  | .keyUnload => none
  | .halt _ => none
  | .go _ => none
  | .dbgstep _ _ => none
  | .dbgselRead _ _ => none
  | .dbgselWrite _ _ => none
  | .dbgdump _ _ => none
  | .trdropRead _ => none
  | .registerWrite _ _ => none
  | .junctionBelowThot _ => none
  | .spuriousWake _ => none
  | .fabricError _ _ => none
  | .admresChange _ _ => none
  | .routingTableUpdate _ _ _ => none
  | .badcmd _ => none

/-- Whether X fits the two-byte form, sign-extended from X[15] (R33). -/
def fitsX2 (x : Word) : Bool := ((x.setWidth 16).signExtend 32) == x

/-- A byte from flags and a number. -/
def b2n (b : Bool) : Nat := if b then 1 else 0

/-- The stored form of an OP and its fields: a field that R35 supplies when it is not stored is left out, and X takes the shortest
form (R33 to R36, R431). -/
def encodeWord (op : Nat) (w : IWord) : List Byte :=
  let hasC := !(w.c == .none)
  let hasB := hasC || !(w.b == .none)
  let hasW := w.wa || w.wb || w.wc
  let x2 := !(w.x == 0#32) && fitsX2 w.x
  let x4 := !(w.x == 0#32) && !fitsX2 w.x
  [BitVec.ofNat 8 (128 * b2n w.ge + 64 * b2n x4 + 32 * b2n x2 + 16 * b2n hasC + 8 * b2n hasB + 4 * b2n hasW + op / 256),
    BitVec.ofNat 8 (op % 256), BitVec.ofNat 8 w.d.code, BitVec.ofNat 8 w.a.code] ++
  (if hasB then [BitVec.ofNat 8 w.b.code] else []) ++
  (if hasC then [BitVec.ofNat 8 w.c.code] else []) ++
  (if hasW then [BitVec.ofNat 8 (4 * b2n w.wc + 2 * b2n w.wb + b2n w.wa)] else []) ++
  (if w.ge then [BitVec.ofNat 8 (128 * b2n w.gn + w.gr), BitVec.ofNat 8 w.gb] else []) ++
  [BitVec.ofNat 8 w.t.code] ++
  (if x4 then bytesLE 4 w.x.toNat else if x2 then bytesLE 2 w.x.toNat else [])

/-- The stored bytes of an instruction; an event of the device has none. -/
def encode (i : Instr) : List Byte :=
  match i.op, i.word with
  | some op, some w => encodeWord op w
  | _, _ => []

end Sys2Proof
end

