-- ==== Sys2Proof/Machine/Maps.lean ====
section
/-! DEFINITION. Finite maps and byte memories as plain lists: a keyed list, and the ONE canonical form of a byte memory (addresses
strictly rising, no listed byte equal to the 0 that an unlisted address reads as; spec/22 R411, spec/08 R194). -/

/-- The distinct elements of a list, each where it first stands. -/
def List.firsts {α : Type} [DecidableEq α] : List α → List α
  | [] => []
  | a :: r => a :: (List.firsts r).filter (fun b => decide (b ≠ a))

namespace Sys2Proof.Machine

/-- The value at a key of a keyed list. -/
def mfind {K V : Type} [DecidableEq K] (m : List (K × V)) (k : K) : Option V :=
  match m with
  | [] => none
  | (k', v) :: r => if k' = k then some v else mfind r k

/-- Set the value at a key: in place where it stands, at the end where it does not. -/
def mset {K V : Type} [DecidableEq K] (m : List (K × V)) (k : K) (v : V) : List (K × V) :=
  match m with
  | [] => [(k, v)]
  | (k', v') :: r => if k' = k then (k, v) :: r else (k', v') :: mset r k v

/-- Remove a key. -/
def mdel {K V : Type} [DecidableEq K] (m : List (K × V)) (k : K) : List (K × V) :=
  m.filter (fun p => decide (p.1 ≠ k))

/-- The value at a key, or a default. -/
def mget {K V : Type} [DecidableEq K] (m : List (K × V)) (k : K) (dflt : V) : V := (mfind m k).getD dflt

/-- Set element `n` of a list; a list shorter than that stays as it is. -/
def lset {V : Type} (l : List V) (n : Nat) (v : V) : List V := l.set n v

/-- A byte memory: listed bytes by rising address. -/
abbrev Mem := List (Nat × Byte)

/-- The byte at an address: 0 where none is listed. -/
def memRead (m : Mem) (x : Nat) : Byte := mget m x 0#8

/-- List a byte at an address that is not listed, before the first address above it. -/
def memInsert (m : Mem) (x : Nat) (v : Byte) : Mem :=
  match m with
  | [] => [(x, v)]
  | (a, b) :: r => if x < a then (x, v) :: (a, b) :: r else (a, b) :: memInsert r x v

/-- Write one byte, keeping the canonical form: writing 0 removes the entry. -/
def memWrite (m : Mem) (x : Nat) (v : Byte) : Mem := if v = 0#8 then mdel m x else memInsert (mdel m x) x v

/-- Write a list of bytes from an address upward. -/
def memWrites (m : Mem) (x : Nat) : List Byte → Mem
  | [] => m
  | v :: vs => memWrites (memWrite m x v) (x + 1) vs

/-- Write a list of (address, byte) pairs in order. -/
def memCells (m : Mem) : List (Nat × Byte) → Mem
  | [] => m
  | (a, v) :: r => memCells (memWrite m a v) r

/-- Read `n` bytes from an address upward, lowest address first. -/
def memReads (m : Mem) (x : Nat) : Nat → List Byte
  | 0 => []
  | n + 1 => memRead m x :: memReads m (x + 1) n

/-- The canonical form of a memory all of whose addresses are at or above `lo`. -/
def memWfFrom : Nat → Mem → Bool
  | _, [] => true
  | lo, (a, b) :: r => lo ≤ a && b != 0#8 && memWfFrom (a + 1) r

/-- The canonical form: addresses strictly rising, no listed byte 0. -/
def Mem.wf (m : Mem) : Bool := memWfFrom 0 m

end Sys2Proof.Machine
end

