-- ==== Sys2Proof/Machine/State.lean ====
section
/-! DEFINITION. The state of a QX9 module as plain data: the device's agents, the work they run, the memories and the management
registers, and the state after a module reset (spec/22 R411). INVENTORY.md lists each field with the rule that names it. -/

namespace Sys2Proof.Machine

/-- Why the machine stops. -/
inductive Fault where
  /-- An agenda entry names a die, core, partition, context, queue or engine that the module does not have (spec/00 R1, spec/01 R25:
  such a unit appears in no record). Raised by `step` alone; safe: the machine stops where the device has no such unit. -/
  | noSuchUnit
  deriving DecidableEq, Repr

/-- Why an instruction has no meaning. -/
inductive Refusal where
  /-- Raised only by an arm of `exec` whose instruction is not modelled yet; safe: nothing is claimed of it. -/
  | notModelled (mnemonic : String)
  deriving DecidableEq, Repr

/-- A stamp of a flat write: the sum of its vector, then the issuing die (spec/12 R242). -/
structure Stamp where
  sum : Nat
  id : Nat
  deriving DecidableEq, Repr

/-- A vector of counts of applied writes, entry i for domain die i, 32 entries (spec/01 R24, spec/12 R242). -/
abbrev Vec := List Nat

/-- A general register with its full/empty bit (spec/01 R13). -/
structure Reg where
  val : Word
  full : Bool
  deriving DecidableEq, Repr

/-- A loop record (spec/05 R128). -/
structure LoopRec where
  act : Bool
  start : Addr
  stop : Addr
  seq : Nat
  deriving DecidableEq, Repr

/-- The state of a thread (spec/03 R64). Ready, short wait and long wait on registers and queues are `run`: they differ only in
whether the next instruction finds its operands. -/
inductive TState where
  | run
  | macq (next : Addr) (on : Bool)      -- at MACQ, with its guard: in the engine's waiter FIFO, or waiting for its token
  | adm                         -- waits for an admission token
  | mwait (dst : Operand) (left : Option Nat) (next : Addr)   -- in MWAIT, cycles left before TIMEOUT
  | replay (released : Bool) (dst : List Nat)   -- parked for a replayable fault with its destination empty; released by XREPLAY
  | waitm (m : Nat) (next : Addr)      -- parked at WAITM on mask m; where it goes on
  | coll (m : Nat)              -- parked at the collective at its PC, whose mask is m
  | barg (id : Nat) (next : Addr)      -- parked at a group barrier
  | barn (id : Nat) (next : Addr)      -- parked at a gang barrier
  | trapped                     -- belongs to a parked sub-warp
  | exited
  deriving DecidableEq, Repr

/-- Where an access goes: flat memory, a group's scratchpad, the constant window or the private window (spec/08 R191 SPC). -/
inductive Space where
  | flat | spad | const | priv
  deriving DecidableEq, Repr

/-- What kind of producer a pending delivery has; LDS, LDC, QLEN and TSTAT are the short ones (spec/01 R13, spec/03 R64), and `setArr` is a set
operation with an array (spec/17 R344). -/
inductive PKind where
  | load | lds | ldc | square | set | setArr | matrix | chwp | qlen | tstat | store
  deriving DecidableEq, Repr

/-- Why an access failed: the cause, the outcomes of a chunk's reads, the walk level that decided it and whether an entry was malformed
(spec/08 R190, R433; spec/10 R219, R232). -/
structure FailInfo where
  cause : Cause
  attempts : Nat
  level : Nat                   -- 0xFF when no walk decided it
  malformed : Bool
  deriving DecidableEq, Repr

/-- A set operation that another module takes part in, as far as this device knows of it: the operation, its operands, and whether the
destination set itself lies there (spec/17 R335, R352; log 11). -/
structure FarOp where
  op : Nat
  own : Bool                    -- set A is the other module's, whose Square performs the operation
  a : Nat
  b : Nat
  c : Nat
  held : Bool                   -- it met a missing page of its array there and waits for a replay (spec/17 R345)
  deriving DecidableEq, Repr

/-- A delivery not yet made: the registers it fills and, once known, their values (spec/01 R13, R17; spec/08 R190, R191). -/
structure Pend where
  id : Nat
  kind : PKind
  dst : List Nat
  vals : Option (List Word)
  needs : Vec                   -- writes that must be applied at the lane's die before the value arrives (spec/12 R241 item 3)
  pc : Addr
  addr : Addr
  info : Word                   -- xinfo of R191 for a failed delivery
  remote : Bool                 -- the access travels to another module (spec/10 R216)
  fail : Option FailInfo        -- it will fail, and why (spec/08 R190, R433)
  inTry : Bool                  -- its access was made in the try that is open now (spec/08 R207 code 5)
  waited : Nat                  -- cycles of the lane's core for which a reply from another module has been awaited (spec/22 R413)
  acq : Bool                    -- a Square operation or wake that orders the lane's later scratchpad accesses behind it (spec/16 R314, R326)
  far : Option FarOp := none    -- a set operation that another module takes part in (spec/17 R352)
  deriving DecidableEq, Repr

/-- One 16-byte entry of a try's store buffer (spec/08 R205). -/
structure StoreEnt where
  space : Space
  grp : Nat                     -- the group whose scratchpad it names
  block : Nat                   -- location (flat, private) or scratchpad offset / 16
  bytes : List (Nat × Byte)     -- offset in the block, byte
  va : Nat                      -- the address or offset of the block as the latest store named it
  deriving DecidableEq, Repr

/-- A tracked line: a flat line by location, or a scratchpad line of a group (spec/08 R205). -/
structure Line where
  space : Space
  grp : Nat
  line : Nat                    -- byte address / 64
  deriving DecidableEq, Repr

/-- An open try (spec/08 R204, R205). -/
structure Try where
  depth : Nat
  base : Nat
  regs : List Word
  masks : List Bool             -- the lane's bits in m0 to m11
  loops : List LoopRec
  lcs : List Word
  fflags : BitVec 6
  target : Addr
  at_ : Addr                    -- PC of the outermost TRY (spec/07 R180)
  stores : List StoreEnt
  lines : List Line
  conflict : Bool               -- a write to a tracked line was applied (R206)
  deriving DecidableEq, Repr

/-- The registers of a lane in handler mode, and what TRET needs of its sub-warp (spec/20 R374, R375, R380). -/
structure Handler where
  cause : BitVec 6
  pc : Addr
  addr : Addr
  mask : Word
  info : Word
  len : Nat
  seq : Nat
  orig : Cause                  -- cause at delivery, before the handler wrote xcause
  cmp : List Nat                -- the PC comparators that TRET MODE 0 keeps from firing (spec/21 R390)
  deriving DecidableEq, Repr

/-- The x registers at their reset values (spec/02 R46). -/
def Handler.reset : Handler := { cause := 0, pc := 0, addr := 0, mask := 0, info := 0, len := 0, seq := 0, orig := .none, cmp := [] }

/-- An armed monitor (spec/16 R324 to R327). -/
structure Monitor where
  die : Nat
  line : Nat                    -- location / 64
  loc : Nat                     -- location of the captured operand
  size : Nat
  captured : Nat
  triggered : Bool
  byWrite : Option Vec          -- the writes that triggered it, joined; none where only a spurious trigger did
  dormant : Bool
  deriving DecidableEq, Repr

/-- A lane (spec/03 R59). -/
structure Lane where
  pc : Addr
  regs : List Reg
  lc : List Word
  loops : List LoopRec
  fflags : BitVec 6
  rm : BitVec 3
  te : BitVec 6
  tsUser : BitVec 8
  tsKill : Bool
  tsCode : BitVec 4
  st : TState
  priv : Option Nat             -- private index (spec/20 R358)
  triggered : Bool              -- LTRIG or a triggering exit (spec/20 R382)
  trigDue : Bool                -- it has exited and triggers once its Square and set operations are performed (spec/12 R252)
  spec : Option Try
  hx : Option Handler           -- handler mode
  xout : Handler                -- the x registers outside handler mode, where only the debugger reaches them (spec/20 R375, spec/21 R383, R389)
  pend : List Pend
  mon : Option Monitor
  cq : List Word                -- partial cq record (spec/13 R261)
  owed : List (BitVec 32)       -- tickets issued and not completed (spec/13 R260)
  owedBad : Bool                -- one issued since the last SWAIT.all ended with ST ≠ 0
  stopped : Bool                -- debug-stopped (spec/21 R384)
  stepping : Bool               -- one issue under DBGSTEP (R388)
  stepTrap : Bool               -- SINGLE_STEP after the next instruction (R390)
  stepDue : Bool                -- that instruction has begun a wait, and SINGLE_STEP follows its end (R390)
  cmpSkip : List Nat            -- the comparators that do not fire at the next issue (R384, R390)
  since : Nat                   -- cycles for which it has been ready (spec/03 R69)
  token : Nat                   -- units of the admission token granted for the waiting instruction, 0 without one (spec/01 R29)
  deriving DecidableEq, Repr

/-- A parked sub-warp (spec/03 R83). -/
structure SubWarp where
  pc : Addr
  mask : Word
  cause : Cause
  xaddr : Addr
  xinfo : Word
  len : Nat
  seq : Nat
  delivered : Bool
  deriving DecidableEq, Repr

/-- A warp (spec/03 R60). -/
structure Warp where
  masks : List Word
  path : Option Addr
  timer : Nat
  slot : Nat
  active : Bool
  starved : Nat                 -- consecutive cycles that count toward overdue (R68)
  overdue : Bool
  lastIssue : Nat               -- one more than `State.clock` at its latest issue, 0 for never (R66, R74)
  issuedAt : List (Addr × Nat)  -- `State.clock` at the latest issue at each PC (R69)
  aging : Nat                   -- cycles pending with a ready thread (R74)
  subs : List SubWarp
  cd : List Word
  deriving DecidableEq, Repr

/-- A configured queue (spec/08 R199, R200). -/
structure Queue where
  base : Nat
  cap : Nat
  head : Nat
  count : Nat
  deriving DecidableEq, Repr

/-- A copy channel of a group (spec/13 R265). -/
structure Chan where
  count : Nat                   -- below 2^63
  err : Bool
  stop : Nat                    -- issue end, below 2^63
  deriving DecidableEq, Repr

/-- An iterator record (spec/13 R271). -/
structure IterRec where
  base : Nat
  ext : List Nat
  str : List Int
  ndim : Nat
  spad : Bool
  bc : List Bool
  esz : Nat
  deriving DecidableEq, Repr

/-- An indirect stream's configuration block (spec/13 R274). -/
structure IsCfg where
  abase : Nat
  ibase : Nat
  count : Nat
  limit : Nat
  esz : Nat
  i64 : Bool
  ispad : Bool
  qn : Nat
  deriving DecidableEq, Repr

/-- The state of an indirect stream (spec/13 R274, R275). -/
inductive IStream where
  | idle
  | configured (c : IsCfg)
  | running (c : IsCfg) (ticket : BitVec 32) (id : Nat)   -- under the command of that ticket and name
  deriving DecidableEq, Repr

/-- A group and its stream-engine group state (spec/03 R62; spec/08 R194, R199; spec/13 R265, R266; spec/20 R367, R377, R380). -/
structure Group where
  core : Nat
  gslot : Nat
  nwarps : Nat
  nregs : Nat
  scratch : Nat
  spad : Mem
  queues : List (Option Queue)
  chans : List Chan
  iters : List (Option IterRec)
  istreams : List IStream
  hist : List (BitVec 32 × Word)
  issues : Nat
  idem : Bool
  expect : Nat
  wdog : Nat
  endCause : Option Cause
  deriving DecidableEq, Repr

/-- Where a gang stands (spec/20 R364, R366, R368). -/
inductive GangSt where
  | waiting
  | placed
  | draining (left : Option Nat)
  | saving                      -- the decision to save is taken; the image is not written yet
  | saved (off len image : Nat)      -- the place, length and number of its image (log 14)
  | heldSaved (off len image : Nat)  -- saved by CTXOP, not yet returned to waiting
  | heldFlushed
  | ended                       -- killed: only requests that had reached a Square are left of it (R372)
  deriving DecidableEq, Repr

/-- A grid: the launch record it came from and how far it has run (spec/20 R361 to R365). -/
structure Grid where
  q : Nat
  ctx : Nat
  seq : Nat
  entry : Addr
  ngang : Nat
  grps : Nat
  warps : Nat
  regs : Nat
  prio : Nat
  idem : Bool
  scratch : Nat
  csize : Nat
  cbase : Nat
  expect : Nat
  cpl : Nat
  age : Nat                     -- microseconds since the record reached HEAD (R364, log 36)
  next : Nat                    -- index of the first gang not yet placed for the first time
  retired : Nat
  trig : Nat                    -- lanes that have triggered
  trigDone : Bool
  cause : Option Cause          -- first end by a trap (R365)
  ended : Option (Nat × Cause)  -- ST and CAUSE imposed by a kill or a cause of kind E (R371, R372)
  ofs : Nat                     -- OFS of a malformed record (R361, R362)
  cplWait : List Nat            -- the STATUS values still to be written to the completion word, in order (R362)
  cplPark : Bool                -- the first of them waits for XREPLAY (R362)
  orig : Option Cause           -- original cause behind HANDLER_FAULT (R374)
  done : Bool
  deriving DecidableEq, Repr

/-- The record at HEAD of a launch queue while it waits (spec/20 R363). -/
structure LQueue where
  taken : Option (List Byte)
  head : Nat
  deps : Nat                    -- the dependences that have been waited for, in order
  age : Nat                     -- microseconds since it reached HEAD (R364, log 36)
  ended : Bool                  -- it is finished, and only the write of HEAD is still to come
  parked : Bool                 -- a ring access waits for XREPLAY
  faulted : Bool := false       -- a ring fault has disabled the queue, which keeps its records and its HEAD (R363)
  deriving DecidableEq, Repr

/-- Who issued a write, for the Stipple trace and for conflicts (spec/21 R394 to R396; spec/08 R206). -/
structure WTag where
  ctx : Nat
  issuer : Nat
  vas : List Nat                -- virtual address of each byte written; none for a write without one
  pc : Addr
  lane : Option LaneId
  gidx : Nat := 0                  -- the gang index of the lane, taken as the write enters
  deriving DecidableEq, Repr

/-- A flat write with its vector and stamp, on its way to die `dst` (spec/12 R239, R242, R244). -/
structure FlatWrite where
  src : Nat
  dst : Nat
  vec : Vec
  stamp : Stamp
  cells : List (Nat × Byte)
  tag : WTag
  deriving DecidableEq, Repr

/-- A cached translation (spec/10 R222). -/
structure TlbEntry where
  ctx : Nat
  page : Nat                    -- VA / 4096
  leaf : Addr
  level : Nat
  deriving DecidableEq, Repr

/-- A request at a Square (spec/16 R312 to R326). -/
structure SqReq where
  lane : LaneId
  pid : Nat
  op : Nat                      -- OP value
  ty : Ty
  loc : Nat                     -- location of the operand or descriptor
  va : Nat
  b : Nat
  c : Nat
  ctx : Nat
  pc : Addr
  sc : Bool                     -- the operation joins S at a scope beyond the die (spec/16 R314)
  needs : Vec
  parked : Bool                 -- its entry access waits for XREPLAY (spec/16 R322)
  stale : Bool                  -- an invalidation has overtaken its translation, which is made again (spec/10 R222)
  deriving DecidableEq, Repr

/-- A set operation at a Square (spec/17 R335). -/
structure SetReq where
  lane : LaneId
  pid : Nat
  op : Nat
  ty : Ty
  a : Nat
  b : Nat
  c : Nat
  x : Word
  ctx : Nat
  pc : Addr
  needs : Vec
  parked : Bool                 -- its array waits for XREPLAY (spec/17 R345)
  deriving DecidableEq, Repr

/-- The form of a set block (spec/17 R338). -/
inductive Form where
  | list | bitmap | runs
  deriving DecidableEq, Repr

/-- A Parrix set (spec/17 R330, R331, R338, R340, R350). -/
structure PSet where
  ctx : Nat
  u : Nat
  elems : List Nat              -- ascending
  forms : List (Nat × Form)     -- form of each existing block
  hash : Option Nat             -- capacity in hash mode
  ctrs : List Nat               -- 21 counters
  deriving DecidableEq, Repr

/-- A range registered in the Roadworks table: flat (`space` none) or in one group's scratchpad (spec/13 R269). -/
structure Road where
  ctx : Nat
  space : Option GroupId
  lo : Nat
  hi : Nat                      -- first byte beyond
  core : Nat
  matrix : Bool
  owner : Nat                   -- ticket, or matrix command number
  deriving DecidableEq, Repr

/-- Who waits for an admission token: a lane, a warp in MACQ for its engine, or a gang at its restore (spec/01 R28, R30). -/
inductive AdmFor where
  | lane | engine | gang
  deriving DecidableEq, Repr

/-- A request for an admission token (spec/01 R28, R29). -/
structure AdmReq where
  who : AdmFor
  units : Nat
  lane : LaneId                 -- the waiting lane; the lowest lane of the warp, or of the gang
  core : Nat
  waited : Nat
  deriving DecidableEq, Repr

/-- A field of an event record: byte offset, size in bytes, value. -/
abbrev RField := Nat × Nat × Nat

/-- An event record (spec/01 R24): header fields and the fields of its kind. -/
structure Record where
  seq : Nat
  source : Nat
  kind : Nat
  domdie : Nat
  vec : Vec
  body : List RField
  deriving DecidableEq, Repr

/-- One compute die (spec/01 R10, R24; spec/12 R244; spec/13 R269; spec/16 R312; spec/22 R415, R417). -/
structure Die where
  vec : Vec
  view : Mem
  stamps : List (Nat × Stamp)
  tlb : List TlbEntry
  sqq : List SqReq
  setq : List SetReq
  sets : List (Nat × PSet)
  gens : List (Nat × Nat)
  lru : List (Nat × Nat)        -- blocks in the object store, least recently used first: slot and block (spec/17 R351)
  spilt : List (Nat × Nat)       -- blocks in the overflow area (spec/17 R351)
  spiltAt : List ((Nat × Nat) × Nat) -- where in that area they stand, in bytes from its base (spec/16 R328)
  badBlk : List (Nat × Nat)     -- blocks that read back with an uncorrectable error (spec/17 R352)
  road : List Road
  admq : List AdmReq
  held : Nat
  hot : Bool
  fbWait : List Record          -- fault buffer entries that wait for a slot (spec/10 R225)
  trWait : List Record          -- trace records whose slot's stack is not ready (spec/22 R410)
  owedOverflow : Bool
  sqTested : Bool               -- its Square has passed self-test (spec/22 R409, R410)
  seals : List (Nat × (Nat × List Byte))   -- by sealed context: records since its last seal record, and their ciphertexts and tags (spec/21 R403)
  seqSquare : Nat
  seqAdm : Nat
  seqLaunch : Nat
  seqTrace : Nat
  deriving DecidableEq, Repr

/-- A command of a stream engine (spec/13 R257, R261 to R276). -/
structure Cmd where
  id : Nat                      -- its name, which a restore keeps: of two commands of a core that bear one ticket it tells which is meant, the model's own
  ticket : BitVec 32
  op : Nat                      -- OP value
  ty : Ty
  x : Word
  av : Nat
  bv : Nat
  cv : Nat
  lane : LaneId
  rm : BitVec 3                 -- the issuing lane's fcsr.RM at issue (spec/13 R255)
  ctx : Nat
  note : Bool
  cpl : Nat
  start : Nat                   -- CPYW: count of its first byte in the channel
  recs : List IterRec           -- records as they stood at issue
  is : Option IsCfg
  done : List Nat               -- chunks performed (copies); elements retired or pushed, and blocks asked for (SRD), are `next`
  next : Nat
  out : Bool                    -- an index was out of range
  fl : BitVec 6
  st : Option (Nat × Cause)     -- ST and CAUSE once the work has ended
  parked : Bool                 -- waits for XREPLAY
  posted : Bool                 -- its writes are performed and its entries removed
  waited : Nat                  -- cycles of its core for which its next access has awaited a reply from another module (spec/22 R413)
  units : Nat                   -- admission units held
  back : Nat                    -- units to ask for again at restore (spec/01 R30)
  deriving DecidableEq, Repr

/-- A scale record of a matrix engine (spec/04 R110). -/
structure ScaleRec where
  ent : List Word
  wi : Nat
  v : Nat
  deriving DecidableEq, Repr

/-- A tile configuration (spec/14 R288). -/
structure MCfg where
  k : Nat
  n : Nat
  afmt : Ty
  smode : Nat
  sexp : Int
  srec : Nat
  tiles : List (Nat × Nat)      -- first row, row count
  deriving DecidableEq, Repr

/-- A latched weight tile (spec/14 R291, R292). -/
structure Weights where
  fmt : Ty
  gs : Nat                      -- 0, 32, 64 or 128
  w : List Nat                  -- element codes, i = k × N + n
  scales : List Nat
  zps : List Nat
  deriving DecidableEq, Repr

/-- A queued matrix command (spec/14 R287). -/
structure MCmd where
  num : Nat
  op : Nat
  ty : Ty
  x : Word
  a : Nat
  b : Nat
  c : Nat
  aq : Operand                  -- operand A (q12 for a stream from mq)
  dq : Operand                  -- operand D
  warp : WarpId
  ctx : Nat
  lanes : List LaneId           -- lanes whose D is written
  pids : List Nat               -- their pending deliveries
  scale : Option Int            -- exponent of gact, fixed when the command starts
  row : Nat                     -- rows finished
  part : List Word              -- entries of a row taken from mq so far
  parked : Bool
  waited : Nat                  -- cycles of the core for which its access has awaited a reply from another module (spec/22 R413)
  deriving DecidableEq, Repr

/-- A matrix engine (spec/14 R280 to R304). -/
structure Matrix where
  owner : Option WarpId
  prevCtx : Option Nat
  fifo : List WarpId
  acc : List ((Nat × Nat) × (Word × Nat))
  cfg : Option MCfg
  wts : Option Weights
  fl : BitVec 6
  err : Bool
  cause : Cause
  q : List MCmd
  mq : List Word
  mr : List Word
  token : Bool
  nextCmd : Nat
  recs : List ScaleRec
  deriving DecidableEq, Repr

/-- An NVM Read command of a storage read that is outstanding, or whose blocks wait in the staging area (spec/22 R414). -/
structure NvmeCmd where
  cid : Nat
  core : Nat
  ticket : BitVec 32            -- its storage read
  id : Nat
  first : Nat                   -- its first block, counted from the storage read's
  blocks : Nat
  page : Nat                    -- where it stands in the staging area, in pages of 4 KiB, its PRP list included
  pages : Nat
  waited : Nat                  -- cycles of the I/O die since it was submitted
  ready : Bool                  -- it has completed, and its blocks stand in the staging area
  done : List Nat               -- the chunks of it that have been moved
  deriving DecidableEq, Repr

/-- The queues of a storage binding (spec/22 R414). -/
structure Nvme where
  tail : Nat                    -- next entry of the submission queue
  head : Nat                    -- next entry of the completion queue
  phase : Bool                  -- phase tag of a new completion entry
  cmds : List NvmeCmd
  deriving DecidableEq, Repr

/-- A gang (spec/01 R31; spec/20 R364). -/
structure Gang where
  grid : Nat
  index : Nat
  ngroups : Nat
  die : Nat
  close : Nat                   -- 0 to 47: die times 12 plus the close
  st : GangSt
  order : Nat                   -- order of placement (R366)
  byCtxop : Bool
  forGang : Option Nat          -- the waiting gang for which the launch unit pre-empts it (R366)
  waitTok : Bool                -- restored, and its request for tokens is not granted yet (spec/01 R30)
  mxSaved : List (Nat × Matrix) -- engine state of the groups of a saved gang (R306, R369)
  roadSaved : List Road         -- roadworks entries of a saved gang, registered again at restore (R277, R306)
  tokSaved : List (LaneId × Nat)    -- the tokens that its lanes held for their waiting instructions, asked for again (spec/01 R30)
  admSaved : List AdmReq        -- its lanes' requests for tokens, which wait again after restore (spec/01 R30; spec/03 R88)
  deriving DecidableEq, Repr

/-- One core (spec/01 R11, spec/02 R41, R46; spec/13; spec/14; spec/21 R399). -/
structure Core where
  cyc : Nat
  seqLane : Nat
  seqStream : Nat
  seqMatrix : Nat
  icache : List ((Nat × Addr) × Filled)
  icUnder : List ((Nat × Addr) × (Cause × Nat × Bool × Nat))   -- behind a FETCH_FAULT word: cause, level, malformed, attempts (spec/02 R38)
  lcb : List ((Nat × Nat × Nat) × Nat)        -- context, bin and counter of the lane-cycle record (spec/21 R399)
  ticket : BitVec 32            -- next ticket
  cmds : List Cmd
  cdHeld : List (WarpId × Word × Word)
  keyIssues : List ((Nat × GroupId × Addr) × Nat)   -- latest issue of a group at a PC in a partition (spec/03 R66)
  mx : Matrix
  halted : Bool
  deriving DecidableEq, Repr

/-- The bundle that issues (spec/03 R65). -/
structure Bundle where
  core : Nat
  part : Nat
  gang : Nat
  group : Nat
  pc : Addr
  len : Nat
  lanes : List LaneId
  deriving DecidableEq, Repr

/-- What the agenda may name as the next thing to happen (log 1). -/
inductive Choice where
  | event (i : Instr)                             -- an event of the device
  | cycles (core n : Nat)                         -- cycles of a core, in each of which its partitions issue what they can (spec/03 R66)
  | hostWrite (loc : Nat) (bytes : List Byte)     -- a host or CXL write (spec/12 R253)
  | hostRead (loc n : Nat)                        -- a host or CXL read (spec/12 R253)
  | barWrite (off size : Nat) (value : BitVec 64) -- a host write to the management block (spec/22 R407)
  | barRead (off size : Nat)                      -- a host read of the management block (spec/22 R407)
  | windowWrite (off : Nat) (bytes : List Byte)   -- a write through BAR2 (spec/22 R405)
  | windowRead (off n : Nat)                      -- a read through BAR2 (spec/22 R405)
  | ioCycles (n : Nat)                            -- cycles of the I/O die (spec/22 R414)
  | evict (die k : Nat)                           -- a cached translation is dropped
  | memErr (line : Nat) (write : Bool) (cause : Option Cause)   -- reads, or writes, of 64 bytes of memory begin or cease to fail (spec/08 R190)
  | blockErr (die slot block : Nat)               -- a set's block reads back with an uncorrectable error from now on (spec/17 R352)
  | portError (port : Nat) (timeout : Bool)       -- a write cannot reach a die behind an Aflolas port (spec/12 R244)
  deriving DecidableEq, Repr

/-- An access of the host to device memory, by locations (spec/12 R253; spec/22 R405). -/
inductive HostOp where
  | write (loc : Nat) (bytes : List Byte)
  | read (parts : List (Nat × Nat))               -- locations and lengths, whose bytes together answer it
  deriving DecidableEq, Repr

/-- The module. -/
structure State where
  agenda : List Choice
  forced : List Bundle          -- the first bundle of a placed program, about to issue (log 17), the model's own
  cur : Bundle
  blocked : List LaneId         -- lanes found not ready (spec/03 R64), the model's own
  shorts : List LaneId          -- those of them in short wait (spec/03 R64), the model's own
  met : List LaneId             -- lanes parked at a collective that would issue now (spec/03 R77, R79), the model's own
  freeCtr : Nat
  uid : Nat
  clock : Nat                   -- cycles of all cores so far: it tells which of two issues was later (spec/03 R66, R69, R74), the model's own
  mregs : List (MReg × BitVec 64)
  keys : List (Nat × (Nat × Nat))                 -- slot: context and key (spec/22 R421)
  recs : List Record                              -- event records emitted, oldest first
  msix : List Nat                                 -- vectors raised, oldest first
  seqIo : List (Nat × Nat)                        -- I/O-die unit: next sequence number
  spWatch : List ((Nat × Nat) × (GroupId × Nat))  -- context and region of WATCH.spad: the scratchpad and the offset it watches from (spec/21 R393)
  nvme : List ((Nat × Nat) × Nvme)                -- binding (context, number): its queues as the host interface drives them (spec/22 R414)
  routing : List Byte                             -- the installed routing table (spec/22 R413, R420)
  nsbClear : List ((Nat × Nat) × (Nat × Bool))    -- binding (context, number): the write of NSBCTL that clears EN once its reads complete, and whether it reaches bits 63:32 alone (spec/22 R407, R414)
  skims : List (Nat × (Addr × Addr))              -- Skim engine: old and new entry of a command whose swap is still to come (spec/10 R235)
  hostWait : List HostOp                          -- accesses of the host that wait for a stack (spec/22 R410)
  devWait : List (Nat × Nat × List Byte)          -- the device's own writes that wait for a stack: die, physical address, bytes (spec/22 R410)
  inflight : List FlatWrite
  errs : List ((Nat × Bool) × Cause)              -- lines of 64 bytes whose reads (false) or writes (true) fail, and how (spec/08 R190)
  hostVec : Vec                                   -- the host's writes so far and what they follow (spec/12 R253)
  hostSeen : Vec                                  -- the writes that the host's reads follow (spec/12 R253)
  hostGot : Option (List Byte)                    -- what the host's latest read returned; none for an unsupported request (spec/22 R407), the model's own
  dies : List (Nat × Die)
  cores : List (Nat × Core)
  lqs : List (Nat × LQueue)
  grids : List (Nat × Grid)
  gangs : List (Nat × Gang)
  groups : List (GroupId × Group)
  warps : List (WarpId × Warp)
  lanes : List (LaneId × Lane)
  deriving DecidableEq, Repr

/-- A vector that counts nothing. -/
def Vec.zero : Vec := List.replicate 32 0

/-- A die after module reset: its memory zeros (spec/22 R411), its sequence numbers 1 (spec/01 R24). -/
def Die.reset : Die :=
  { vec := Vec.zero, view := [], stamps := [], tlb := [], sqq := [], setq := [], sets := [], gens := [], lru := [], spilt := [], spiltAt := [],
    badBlk := [], road := [], admq := [], held := 0, hot := false, fbWait := [], trWait := [], owedOverflow := false, sqTested := false, seals := [], seqSquare := 1, seqAdm := 1, seqLaunch := 1, seqTrace := 1 }

/-- A binding's queues as they stand when it is bound (spec/22 R414): empty, and the first pass of new entries is tagged 1. -/
def Nvme.fresh : Nvme := { tail := 0, head := 0, phase := true, cmds := [] }

/-- A scale record with no valid entry (spec/04 R110). -/
def ScaleRec.clear : ScaleRec := { ent := List.replicate 16 0#32, wi := 0, v := 0 }

/-- A matrix engine after reset: no owner since core reset (spec/14 R284). -/
def Matrix.reset : Matrix :=
  { owner := none, prevCtx := none, fifo := [], acc := [], cfg := none, wts := none, fl := 0, err := false, cause := .none, q := [],
    mq := [], mr := [], token := false, nextCmd := 0, recs := List.replicate 32 ScaleRec.clear }

/-- A core after module reset: cyc 0 (spec/02 R46), sequence numbers 1 (spec/01 R24), tickets from 1 (spec/13 R257). -/
def Core.reset : Core :=
  { cyc := 0, seqLane := 1, seqStream := 1, seqMatrix := 1, icache := [], icUnder := [], lcb := [], ticket := 1, cmds := [], cdHeld := [],
    keyIssues := [], mx := .reset, halted := false }

/-- No bundle. -/
def Bundle.none : Bundle := { core := 0, part := 0, gang := 0, group := 0, pc := 0, len := 0, lanes := [] }

/-- The reset value of a management register (spec/01 R26; spec/10 R223, R234; spec/20 R357, R359; spec/21 R383; spec/22 R408,
R414, R415). -/
def MReg.resetValue (r : MReg) : BitVec 64 :=
  match r.name with
  | .ctxctl => 0x02000001
  | .wdog => 0x8000
  | .drainb => 0x1D4C0
  | .lqctl => 1
  | .fbsize | .trsize | .sksize => 4
  | .admbudget => 1000
  | .admwd => 0x1000
  | .ftmo => 0x40
  | .thot => 105
  | .tcrit => 115
  | .nsbsq | .nsbcq => 1
  | .nsbds => 0x0000040000040000
  | .cormap => BitVec.ofNat 64 (Config.fusedClose r.i % 13)
  | _ => 0

/-- The module right after a module reset (spec/22 R411): no grid, every register at its reset value, memory zeros. -/
def State.reset : State :=
  { agenda := [], forced := [], cur := .none, blocked := [], shorts := [], met := [], freeCtr := 0, uid := 1, clock := 0, mregs := [], keys := [],
    recs := [], msix := [], seqIo := [], spWatch := [], nvme := [], routing := [], nsbClear := [], skims := [], hostWait := [], devWait := [], inflight := [], errs := [], hostVec := Vec.zero
    hostSeen := Vec.zero, hostGot := none, dies := [], cores := [], lqs := [], grids := [], gangs := [],
    groups := [], warps := [], lanes := [] }

/-! The one home of each kind of state: reads and single-field updates. -/

def State.mreg (s : State) (r : MReg) : BitVec 64 := mget s.mregs r (MReg.resetValue r)
def State.setMreg (s : State) (r : MReg) (v : BitVec 64) : State := { s with mregs := mset s.mregs r v }
def State.die (s : State) (d : Nat) : Die := mget s.dies d .reset
def State.setDie (s : State) (d : Nat) (v : Die) : State := { s with dies := mset s.dies d v }
def State.core (s : State) (c : Nat) : Core := mget s.cores c .reset
def State.setCore (s : State) (c : Nat) (v : Core) : State := { s with cores := mset s.cores c v }
def State.grid? (s : State) (k : Nat) : Option Grid := mfind s.grids k
def State.setGrid (s : State) (k : Nat) (v : Grid) : State := { s with grids := mset s.grids k v }
def State.gang? (s : State) (k : Nat) : Option Gang := mfind s.gangs k
def State.setGang (s : State) (k : Nat) (v : Gang) : State := { s with gangs := mset s.gangs k v }
def State.group? (s : State) (k : GroupId) : Option Group := mfind s.groups k
def State.setGroup (s : State) (k : GroupId) (v : Group) : State := { s with groups := mset s.groups k v }
def State.warp? (s : State) (k : WarpId) : Option Warp := mfind s.warps k
def State.setWarp (s : State) (k : WarpId) (v : Warp) : State := { s with warps := mset s.warps k v }
def State.lane? (s : State) (k : LaneId) : Option Lane := mfind s.lanes k
def State.setLane (s : State) (k : LaneId) (v : Lane) : State := { s with lanes := mset s.lanes k v }

end Sys2Proof.Machine
end

