-- ==== Sys2Proof/Machine/Pc.lean ====
section
/-! DEFINITION. The program counter of a lane: the end check of loops, which applies wherever a lane's PC moves to the start of an
instruction (spec/05 R128 to R131). -/

namespace Sys2Proof.Machine

/-- The active loop records of a lane by counter, most recent first (R128). -/
def loopOrder (l : Lane) : List Nat :=
  (List.range 3).filterMap (fun k => (List.range 3).find? (fun n =>
    match l.loops[n]? with | some r => r.act && r.seq == k | none => false))

/-- Record `n` becomes inactive; those activated before it move up (R128). -/
def Lane.loopOff (l : Lane) (n : Nat) : Lane :=
  match l.loops[n]? with
  | some r =>
    if r.act then
      let up := l.loops.map (fun (x : LoopRec) => if x.act && r.seq < x.seq then { x with seq := x.seq - 1 } else x)
      { l with loops := up.set n { r with act := false, seq := 0 } }
    else l
  | none => l

/-- Record `n` becomes the most recent active one (R129). -/
def Lane.loopOn (l : Lane) (n : Nat) (start stop : Addr) (count : Word) : Lane :=
  let down := l.loops.map (fun (x : LoopRec) => if x.act then { x with seq := x.seq + 1 } else x)
  { l with loops := down.set n { act := true, start := start, stop := stop, seq := 0 }, lc := l.lc.set n count }

/-- The end check of R130 at address `a`, over the records `ns`. -/
def endCheck (a : Addr) : List Nat → Lane → Lane
  | [], l => { l with pc := a }
  | n :: r, l =>
    match l.loops[n]? with
    | some x =>
      if x.act && x.stop == a then
        let c := (l.lc.getD n 0#32) - 1#32
        let l := { l with lc := l.lc.set n c }
        if c ≠ 0#32 then { l with pc := x.start } else endCheck a r (l.loopOff n)
      else endCheck a r l
    | none => endCheck a r l

/-- The lane's PC becomes `a` by a means to which the end check applies (R130). -/
def Lane.goto (l : Lane) (a : Addr) : Lane := endCheck a (loopOrder l) l

end Sys2Proof.Machine
end

