-- ==== Sys2Proof/Machine/Mem.lean ====
section
/-! DEFINITION. Units and their event records (spec/01 R24 to R27), the trace and fault rings, and flat writes with their vectors
and stamps (spec/12 R239 to R244), with what a write does when a die applies it. -/

namespace Sys2Proof.Machine

/-! ### Units and numbers -/

/-- The die of a core, and a core's logical number in its die (spec/01 R10). -/
def dieOf (core : Nat) : Nat := core / 48
/-- The close of a core over the module (spec/01 R10). -/
def closeOf (core : Nat) : Nat := core / 4

/-- The physical number of a core (spec/01 R26). -/
def physCore (s : State) (core : Nat) : Nat :=
  let l := core % 48
  let c := l / 4
  let fused := fld (s.mreg ⟨.cormap, dieOf core, 0⟩) 3 0
  4 * (if c < fused then c else c + 1) + l % 4

/-- This module's number, and the domain die id of one of its dies (spec/12 R242; spec/22 R413). -/
def moduleNo (s : State) : Nat := fld (s.mreg ⟨.modid, 0, 0⟩) 2 0
def domId (s : State) (d : Nat) : Nat := moduleNo s * 4 + d

/-- A source of event records (spec/01 R24). -/
inductive Source where
  | lane (core : Nat)
  | stream (core : Nat)
  | matrix (core : Nat)
  | square (die : Nat)
  | adm (die : Nat)
  | launch (die : Nat)
  | trace (die : Nat)
  | io (unit : Nat)
  deriving DecidableEq, Repr

/-- The compute die of a source; none on the I/O die. -/
def Source.die : Source → Option Nat
  | .lane c | .stream c | .matrix c => some (dieOf c)
  | .square d | .adm d | .launch d | .trace d => some d
  | .io _ => none

/-- The unit number of a source (spec/01 R25). -/
def Source.unit (s : State) : Source → Nat
  | .lane c => physCore s c
  | .stream c => 0x040 + physCore s c
  | .matrix c => 0x080 + physCore s c
  | .square _ => 0x0C0
  | .adm _ => 0x0C1
  | .launch _ => 0x0C2
  | .trace _ => 0x0C3
  | .io u => u

/-- The sequence number a source gives its next record (spec/01 R24). -/
def nextSeq (s : State) : Source → Nat
  | .lane c => (s.core c).seqLane
  | .stream c => (s.core c).seqStream
  | .matrix c => (s.core c).seqMatrix
  | .square d => (s.die d).seqSquare
  | .adm d => (s.die d).seqAdm
  | .launch d => (s.die d).seqLaunch
  | .trace d => (s.die d).seqTrace
  | .io u => mget s.seqIo u 1

/-- Count one record of a source (spec/01 R24). -/
def bumpSeq (s : State) : Source → State
  | .lane c => s.setCore c { s.core c with seqLane := (s.core c).seqLane + 1 }
  | .stream c => s.setCore c { s.core c with seqStream := (s.core c).seqStream + 1 }
  | .matrix c => s.setCore c { s.core c with seqMatrix := (s.core c).seqMatrix + 1 }
  | .square d => s.setDie d { s.die d with seqSquare := (s.die d).seqSquare + 1 }
  | .adm d => s.setDie d { s.die d with seqAdm := (s.die d).seqAdm + 1 }
  | .launch d => s.setDie d { s.die d with seqLaunch := (s.die d).seqLaunch + 1 }
  | .trace d => s.setDie d { s.die d with seqTrace := (s.die d).seqTrace + 1 }
  | .io u => { s with seqIo := mset s.seqIo u (mget s.seqIo u 1 + 1) }

/-- The record a source makes now, with the header of R24. -/
def mkRecord (s : State) (u : Source) (kind : Nat) (body : List RField) : Record :=
  { seq := nextSeq s u
    source := moduleNo s * 2 ^ 13 + (u.die.getD 4) * 2 ^ 10 + u.unit s
    kind := kind
    domdie := match u.die with | some d => domId s d | none => 0xFF
    vec := match u.die with | some d => (s.die d).vec.map (· % 2 ^ 32) | none => Vec.zero
    body := body }

/-- Emit an event record: it takes the next sequence number of its source (spec/01 R24). -/
def emit (s : State) (u : Source) (kind : Nat) (body : List RField) : State :=
  let r := mkRecord s u kind body
  let s := bumpSeq s u
  { s with recs := s.recs ++ [r] }

/-- The 256 bytes of a record (spec/01 R24). -/
def recordBytes (r : Record) : List Byte :=
  let fields : List RField :=
    [(0, 8, r.seq), (8, 2, r.source), (10, 1, r.kind), (11, 1, r.domdie)] ++
      (r.vec.zipIdx.map (fun p => (0x10 + 4 * p.2, 4, p.1))) ++ r.body
  let m := fields.foldl (fun m f => memWrites m f.1 (bytesLE f.2.1 f.2.2)) ([] : Mem)
  memReads m 0 256

/-! ### Vectors, stamps and the application of writes -/

/-- The sum of a vector's entries (spec/12 R242). -/
def Vec.sum (v : Vec) : Nat := v.foldl (· + ·) 0

/-- Every entry of `a` is at most that of `b`. -/
def Vec.le (a b : Vec) : Bool := (a.zip b).all (fun p => p.1 ≤ p.2)

/-- The entrywise maximum. -/
def Vec.join (a b : Vec) : Vec := List.zipWith max a b

/-- Stamp order: by sum, then by die (spec/12 R242). -/
def Stamp.lt (a b : Stamp) : Bool := a.sum < b.sum || (a.sum == b.sum && a.id < b.id)

/-- Where a physical address lies: its location and its home die by domain id; none outside R216 or in no locked host window (spec/10
R216; spec/22 R412, R419). A location is the physical address, or 2^48 plus the host address behind a window. -/
def locate (s : State) (pa : Nat) : Option (Nat × Nat) :=
  let m := pa / 2 ^ 45
  let l := pa % 2 ^ 45
  if 2 ^ 48 ≤ pa then none
  else if l < 0x00C000000000 then some (pa, m * 4 + l / 0x003000000000)
  else if 0x010000000000 ≤ l ∧ l < 0x028000000000 then some (pa, m * 4 + l / 2 ^ 12 % 4)
  else if 0x040000000000 ≤ l ∧ l < 0x100000000000 then
    if m ≠ moduleNo s then some (pa, m * 4 + l / 2 ^ 12 % 4)
    else
      let hit := (List.range 16).find? (fun n =>
        let b := (s.mreg ⟨.hwindev, 0, n⟩).toNat
        let z := (s.mreg ⟨.hwinsize, 0, n⟩).toNat
        decide ((s.mreg ⟨.hwlock, 0, 0⟩).toNat ≠ 0 ∧ z ≠ 0 ∧ b ≤ l ∧ l < b + z))
      hit.map (fun n =>
        (2 ^ 48 + ((s.mreg ⟨.hwinhost, 0, n⟩).toNat + (l - (s.mreg ⟨.hwindev, 0, n⟩).toNat)), m * 4 + l / 2 ^ 12 % 4))
  else none

/-- The home die of a location, by domain id (spec/10 R216; spec/22 R412). -/
def homeOfLoc (s : State) (loc : Nat) : Nat :=
  if loc < 2 ^ 48 then
    let l := loc % 2 ^ 45
    loc / 2 ^ 45 * 4 + (if l < 0x00C000000000 then l / 0x003000000000 else l / 2 ^ 12 % 4)
  else
    let h := loc - 2 ^ 48
    let hit := (List.range 16).find? (fun n =>
      let b := (s.mreg ⟨.hwinhost, 0, n⟩).toNat
      decide (b ≤ h ∧ h < b + (s.mreg ⟨.hwinsize, 0, n⟩).toNat))
    match hit with
    | some n => domId s ((h - (s.mreg ⟨.hwinhost, 0, n⟩).toNat + (s.mreg ⟨.hwindev, 0, n⟩).toNat) / 2 ^ 12 % 4)
    | none => domId s 0

/-- Whether a physical range lies in the ranges of R216, windows apart. -/
def inR216 (pa : Nat) : Bool :=
  let l := pa % 2 ^ 45
  pa < 2 ^ 48 && (l < 0x00C000000000 || (0x010000000000 ≤ l && l < 0x028000000000) || (0x040000000000 ≤ l && l < 0x100000000000))

/-- Whether a context is sealed, and its key (spec/21 R402; spec/22 R421). -/
def ctxKeyId (s : State) (ctx : Nat) : Nat := fld (s.mreg ⟨.ctxkey, ctx, 0⟩) 5 0
def ctxKey (s : State) (ctx : Nat) : Nat := ((mfind s.keys (ctxKeyId s ctx)).map Prod.snd).getD 0

/-- Encrypt the byte ranges of a record of a sealed context, and put the tag at `tagOff` (spec/21 R402, R403). -/
def sealRecord (s : State) (ctx : Nat) (r : Record) (ranges : List (Nat × Nat)) (tagOff : Nat) : Record :=
  if ctxKeyId s ctx = 0 then r
  else
    let bs := recordBytes r
    let plain := ranges.flatMap (fun p => (bs.drop p.1).take p.2)
    let nonce := r.seq + r.source * 2 ^ 64 + r.domdie * 2 ^ 80 + r.kind * 2 ^ 88
    let header := bs.take 0x90
    let text := Config.gcmText (ctxKey s ctx) nonce header plain
    let tag := Config.gcmTag (ctxKey s ctx) nonce header plain
    let put := ranges.foldl (fun (acc : List RField × List Byte) p =>
      (acc.1 ++ [(p.1, p.2, ofBytesLE (acc.2.take p.2))], acc.2.drop p.2)) ([], text)
    { r with body := r.body ++ put.1 ++ [(tagOff, 16, tag)] }

/-! ### Availability (spec/22 R409, R410) -/

inductive Avail where
  | ready | waits | bad
  deriving DecidableEq, Repr

/-- The READY or FAIL bit of a function (spec/22 R409). -/
def readyBit (s : State) (b : Nat) : Bool := flg (s.mreg ⟨.ready, 0, 0⟩) b
def failBit (s : State) (b : Nat) : Bool := flg (s.mreg ⟨.fail, 0, 0⟩) b

/-- Whether an access homed at a physical address can go ahead: its HBM stack is ready, not yet ready or failed (spec/10 R216;
spec/22 R410). -/
def availOf (s : State) (pa : Nat) : Avail :=
  let l := pa % 2 ^ 45
  if l < 0x00C000000000 ∧ pa / 2 ^ 45 = moduleNo s then
    let d := l / 0x003000000000
    let st := 3 * d + l % 0x003000000000 / 256 % 3
    if failBit s (6 + st) then .bad else if readyBit s (6 + st) then .ready else .waits
  else .ready

/-- Whether all of a range can go ahead: its stacks alternate every 256 bytes (spec/10 R216). -/
def availSpan (s : State) (pa n : Nat) : Avail :=
  let as := (List.range ((pa % 256 + n + 255) / 256)).map (fun i => availOf s (if i = 0 then pa else pa / 256 * 256 + 256 * i))
  if as.any (· == .waits) then .waits else if as.any (· == .bad) then .bad else .ready

/-- Apply the cells of a write at a die: a byte is replaced only when the write's stamp is the larger (spec/12 R244). The result
also says whether every byte was dropped. -/
def applyCells (view : Mem) (stamps : List (Nat × Stamp)) (st : Stamp) : List (Nat × Byte) → Mem × List (Nat × Stamp) × Bool
  | [] => (view, stamps, true)
  | (a, v) :: r =>
    if (mget stamps a ⟨0, 0⟩).lt st then
      let (m, t, _) := applyCells (memWrite view a v) (mset stamps a st) st r
      (m, t, false)
    else applyCells view stamps st r

/-- Whether a write touches the 64-byte line of locations `line`. -/
def touchesLine (cells : List (Nat × Byte)) (line : Nat) : Bool := cells.any (fun c => c.1 / 64 == line)

/-- The general register `n` of a lane filled with a value (spec/01 R13). -/
def Lane.setReg (l : Lane) (n : Nat) (v : Word) : Lane := { l with regs := l.regs.set n ⟨v, true⟩ }

/-- The general register `n` emptied (spec/01 R13). -/
def Lane.emptyReg (l : Lane) (n : Nat) : Lane := { l with regs := l.regs.set n ⟨(l.regs.getD n ⟨0, true⟩).val, false⟩ }

/-- Registers emptied (R13). -/
def Lane.emptyRegs (l : Lane) (rs : List Nat) : Lane := rs.foldl (fun l r => l.emptyReg r) l

/-- The status that ends an MWAIT: the monitor is disarmed and the lane goes on, D to be delivered once the writes of `needs` are
applied at the lane's die; a pending delivery of a wake has number 0. A write that woke the lane comes before its later scratchpad accesses and
queue transfers too, which wait for that delivery (spec/16 R326; spec/12 R241). -/
def Lane.wake (l : Lane) (v : Word) (needs : Vec) : Lane :=
  match l.st with
  | .mwait dst _ next =>
    let rs := match dst with | .g n => [n] | _ => []
    let p : Pend := { id := 0, kind := .square, dst := rs, vals := some (rs.map (fun _ => v)), needs := needs, pc := l.pc, addr := 0, info := 0,
                      remote := false, fail := none, inTry := l.spec.isSome, waited := 0, acq := needs != Vec.zero }
    ({ (l.emptyRegs rs) with st := .run, mon := none, pend := l.pend ++ [p] } : Lane).goto next
  | _ => l

/-- A write is a lane's own: made by its instruction or its COMMIT, not by an engine or a Square for it (spec/08 R206). -/
def WTag.self (t : WTag) (k : LaneId) : Bool := t.lane == some k && (t.issuer == 0 || t.issuer == 5)

/-- The die in whose view a Square's operations are performed: another module's memory is seen from die 0's (log 11). -/
def squareDie (e : Nat) : Nat := if e < 4 then e else 0

/-- What a write applied at die `d` does to one lane: it conflicts its try and triggers its monitor (spec/08 R206; spec/16 R325). -/
def Lane.onWrite (l : Lane) (self onDie : Bool) (d : Nat) (w : FlatWrite) : Lane :=
  let l := match l.spec with
    | some t =>
      if onDie && !self && t.lines.any (fun x => decide (x.space = Space.flat) && touchesLine w.cells x.line) then
        { l with spec := some { t with conflict := true } }
      else l
    | none => l
  match l.mon with
  | some m =>
    if squareDie m.die = d && touchesLine w.cells m.line then
      let l := { l with mon := some { m with triggered := true, byWrite := some ((m.byWrite.getD Vec.zero).join w.vec) } }
      if m.dormant then l else l.wake 0 w.vec
    else l
  | none => l

/-- The die on which a group runs. -/
def groupDie (s : State) (g : GroupId) : Nat := match s.group? g with | some x => dieOf x.core | none => 4
/-- The context of a gang's grid. -/
def gangCtx (s : State) (gang : Nat) : Nat :=
  match s.gang? gang with
  | some g => (match s.grid? g.grid with | some r => r.ctx | none => 64)
  | none => 64
def LaneId.grp (l : LaneId) : GroupId := ⟨l.gang, l.group⟩
def LaneId.wid (l : LaneId) : WarpId := ⟨l.gang, l.group, l.warp⟩
def WarpId.grp (w : WarpId) : GroupId := ⟨w.gang, w.group⟩
def laneCore (s : State) (l : LaneId) : Nat := match s.group? (LaneId.grp l) with | some g => g.core | none => 0
def laneDie (s : State) (l : LaneId) : Nat := dieOf (laneCore s l)
def laneCtx (s : State) (l : LaneId) : Nat := gangCtx s l.gang

/-- Every lane of a group has exited. -/
def groupExited (s : State) (g : GroupId) : Bool :=
  s.lanes.all (fun p => LaneId.grp p.1 != g || p.2.st == .exited)

/-! ### The trace ring (spec/21 R383, R397) -/

/-- Apply a write at die `d`, counting it in the die's vector (spec/12 R244), with its effects on monitors and tries. Its Stipple
records come after, in `traceWrite`. -/
def applyRaw (s : State) (d : Nat) (w : FlatWrite) : State :=
  let x := s.die d
  let (view, stamps, _) := applyCells x.view x.stamps w.stamp w.cells
  let s := s.setDie d { x with view := view, stamps := stamps, vec := x.vec.set w.src (x.vec.getD w.src 0 + 1) }
  { s with lanes := s.lanes.map (fun p => (p.1, p.2.onWrite (w.tag.self p.1) (groupDie s (LaneId.grp p.1) == d) d w)) }

/-- A write by a party of die `d`: counted in its vector, stamped, applied there at once, and sent to the module's other dies
(spec/12 R242, R244). -/
def rawWrite (s : State) (d : Nat) (cells : List (Nat × Byte)) (tag : WTag) : State :=
  let dom := domId s d
  let x := s.die d
  let vec := x.vec.set dom (x.vec.getD dom 0 + 1)
  let w : FlatWrite := { src := dom, dst := d, vec := vec, stamp := ⟨vec.sum, dom⟩, cells := cells, tag := tag }
  let others := (List.range 4).filter (· != d)
  let s := { s with inflight := s.inflight ++ others.map (fun k => { w with dst := k }) }
  applyRaw s d w

/-- The tag of a write that no Stipple region watches. -/
def WTag.device : WTag := { ctx := 64, issuer := 4, vas := [], pc := 0, lane := none, gidx := 0 }

/-- A store to the private window: its lane alone sees it, and it takes no part in the relations between flat writes (spec/12 R239). Every die's
view holds it, since its gang may move; what is on its way to those bytes is applied first. -/
def privWrite (s : State) (cells : List (Nat × Byte)) : State :=
  let ws := if s.inflight.any (fun w => w.cells.any (fun c => cells.any (fun p => p.1 == c.1))) then s.inflight else []
  let s := ws.foldl (fun s w => applyRaw s w.dst w) (if ws.isEmpty then s else { s with inflight := [] })
  (List.range 4).foldl (fun s d => s.setDie d { s.die d with view := memCells (s.die d).view cells }) s

/-- The Square of another module holds a set operation for a missing page (spec/17 R345). -/
def Pend.held (p : Pend) : Bool := match p.far with | some f => f.held | none => false

/-- A lane's access is parked at a Square, for a missing page: the lane is in the long wait of spec/03 R87 (spec/16 R322; spec/17 R345). -/
def sqHeld (s : State) (k : LaneId) : Bool :=
  s.dies.any (fun d => d.2.sqq.any (fun r => r.parked && r.lane == k) || d.2.setq.any (fun r => r.parked && r.lane == k)) ||
    (match s.lane? k with | some l => l.pend.any Pend.held | none => false)

/-- A write by the device itself to local physical memory, within one page, from die `d` (spec/12 R242): it waits for a stack that is not ready, and
is lost where a stack has failed or the address is no memory (spec/22 R410, R412). -/
def devWrite (s : State) (d pa : Nat) (bytes : List Byte) : State :=
  match availSpan s pa bytes.length, locate s pa with
  | .waits, _ => { s with devWait := s.devWait ++ [(d, pa, bytes)] }
  | .ready, some (loc, _) => rawWrite s d (bytes.zipIdx.map (fun (p : Byte × Nat) => (loc + p.2, p.1))) WTag.device
  | _, _ => s

/-- The device's writes that waited for a stack are tried again (spec/22 R410). -/
def retryDevice (s : State) : State := s.devWait.foldl (fun s w => devWrite s w.1 w.2.1 w.2.2) { s with devWait := [] }

/-- The address of slot `i` of a die's ring of 256-byte entries (spec/10 R223; spec/21 R397). -/
def ringSlot (s : State) (d : Nat) (base size : MName) (i : Nat) : Nat :=
  (s.mreg ⟨base, d, 0⟩).toNat + 256 * (i % 2 ^ fld (s.mreg ⟨size, d, 0⟩) 4 0)

/-- Whether a slot can be written: its stack is ready and it is memory (spec/22 R410). -/
def slotAvail (s : State) (pa : Nat) : Avail := if (locate s pa).isNone then .bad else availSpan s pa 256

/-- An entry goes into a ring's next slot, and HEAD counts it (spec/10 R223; spec/21 R397). -/
def ringPut (s : State) (d : Nat) (base size head : MName) (r : Record) : State :=
  let h := (s.mreg ⟨head, d, 0⟩).toNat
  (devWrite s d (ringSlot s d base size h) (recordBytes r)).setMreg ⟨head, d, 0⟩ (BitVec.ofNat 64 ((h + 1) % 2 ^ 32))

/-- Count records that the trace ring could not take (spec/21 R397). -/
def traceDrop (s : State) (d n : Nat) : State :=
  let r : MReg := ⟨.trdrop, d, 0⟩
  let s := s.setMreg r (BitVec.ofNat 64 (((s.mreg r).toNat + n) % 2 ^ 32))
  s.setDie d { s.die d with owedOverflow := true }

/-- Whether the next slot of a die's trace ring can be written. -/
def traceAvail (s : State) (d : Nat) : Avail := slotAvail s (ringSlot s d .trbase .trsize (s.mreg ⟨.trhead, d, 0⟩).toNat)

/-- Records go into the slots of a die's trace ring in their order; those whose slot's stack is not ready wait for it, and one whose slot cannot be
written is dropped and counted as while the ring is full, the model's choice (spec/21 R397; spec/22 R410; log 42). -/
def traceWrites (d : Nat) : List Record → State → State
  | [], s => s.setDie d { s.die d with trWait := [] }
  | r :: rs, s =>
    match traceAvail s d with
    | .ready => traceWrites d rs (ringPut s d .trbase .trsize .trhead r)
    | .waits => s.setDie d { s.die d with trWait := r :: rs }
    | .bad => traceWrites d rs (traceDrop s d 1)

/-- Put one record into the next slot of a die's trace ring, behind those that wait (spec/21 R397). -/
def tracePut (s : State) (d : Nat) (r : Record) : State := traceWrites d ((s.die d).trWait ++ [r]) s

/-- The records that wait for a stack are tried again (spec/22 R410). -/
def traceFlush (s : State) (d : Nat) : State := traceWrites d (s.die d).trWait s

/-- The free slots of a die's trace ring, those of waiting records not among them; 0 while TRBASE is 0 (spec/21 R383, R397). -/
def traceRoom (s : State) (d : Nat) : Nat :=
  if (s.mreg ⟨.trbase, d, 0⟩).toNat = 0 then 0
  else 2 ^ fld (s.mreg ⟨.trsize, d, 0⟩) 4 0 -
    ((s.mreg ⟨.trhead, d, 0⟩).toNat + 2 ^ 32 - (s.mreg ⟨.trtail, d, 0⟩).toNat) % 2 ^ 32 - (s.die d).trWait.length

/-- Write records to a die's trace ring as one whole, as the entries of a fault record are, after the overflow record that is owed; drop and
count them when they do not all fit (spec/08 R433; spec/21 R397). -/
def toRing (s : State) (d : Nat) (rs : List Record) : State :=
  let room := traceRoom s d
  if room = 0 then traceDrop s d rs.length
  else if (s.die d).owedOverflow then
    let r := mkRecord s (.trace d) 0x53 [(0x90, 4, (s.mreg ⟨.trdrop, d, 0⟩).toNat), (0x98, 1, Cause.traceOverflow.code)]
    let s := bumpSeq s (.trace d)
    let s := tracePut { s with recs := s.recs ++ [r] } d r
    let s := s.setDie d { s.die d with owedOverflow := false }
    if rs.length + 1 ≤ room then rs.foldl (fun s r => tracePut s d r) s else traceDrop s d rs.length
  else if rs.length ≤ room then rs.foldl (fun s r => tracePut s d r) s
  else traceDrop s d rs.length

/-- The ciphertext and tag of a sealed record (spec/21 R403). -/
def sealText (r : Record) (ranges : List (Nat × Nat)) (tagOff : Nat) : List Byte :=
  let bs := recordBytes r
  (ranges ++ [(tagOff, 16)]).flatMap (fun (p : Nat × Nat) => (bs.drop p.1).take p.2)

/-- Account `n` records of a sealed context by their ciphertexts and tags; with every 1,024 of them the die's trace unit writes a seal record, its
signatures in continuation entries, each of which the ring takes or drops by itself (spec/21 R403, R397). `force` seals at once (DBGDUMP). -/
def sealCount (s : State) (d ctx : Nat) (text : List Byte) (n : Nat) (force : Bool) : State :=
  let x := s.die d
  let old := mget x.seals ctx (0, [])
  let acc := old.2 ++ text
  if old.1 + n < 1024 ∧ ¬ force then s.setDie d { x with seals := mset x.seals ctx (old.1 + n, acc) }
  else
    let h := Config.sha384 acc
    let sig := bytesLE 64 (Config.ed25519 false h) ++ bytesLE 3309 (Config.mlDsa65 false h)
    let r0 := mkRecord s (.trace d) 0x54 [(0x90, 48, h)]
    let s := bumpSeq s (.trace d)
    let parts := (List.range (ceilDiv sig.length 96)).map (fun k => (sig.drop (96 * k)).take 96)
    let (s, rs) := parts.foldl (fun (a : State × List Record) p =>
      (bumpSeq a.1 (.trace d), a.2 ++ [mkRecord a.1 (.trace d) 0x55 [(0x90, 8, r0.seq), (0xA0, p.length, ofBytesLE p)]])) (s, [r0])
    let s := s.setDie d { s.die d with seals := mdel (s.die d).seals ctx }
    rs.foldl (fun s r => toRing s d [r]) { s with recs := s.recs ++ rs }

/-- Emit a record that goes to the trace ring, encrypted for a sealed context (spec/21 R387, R397, R402). -/
def emitRing (s : State) (d : Nat) (u : Source) (kind ctx : Nat) (body : List RField) (ranges : List (Nat × Nat)) (tagOff : Nat) :
    State :=
  let r := sealRecord s ctx (mkRecord s u kind body) ranges tagOff
  let s := bumpSeq s u
  let s := toRing { s with recs := s.recs ++ [r] } d [r]
  if ctxKeyId s ctx = 0 then s else sealCount s d ctx (sealText r ranges tagOff) 1 false

/-! ### The Stipple trace (spec/21 R394 to R398) -/

/-- The watched region of a context that holds an address, or an offset of a group's scratchpad; the lowest-numbered one. -/
def watchedRegion (s : State) (ctx : Nat) (g : Option GroupId) (a : Nat) : Option Nat :=
  if flg (s.mreg ⟨.dbgctl, ctx, 0⟩) 3 then
    (List.range 16).find? (fun n =>
      let z := (s.mreg ⟨.wrlen, ctx, n⟩).toNat
      match mfind s.spWatch (ctx, n), g with
      | none, none => let b := (s.mreg ⟨.wrbase, ctx, n⟩).toNat; decide (b ≤ a ∧ a < b + z)
      | some (h, b), some g => h == g && decide (b ≤ a ∧ a < b + z)
      | _, _ => false)
  else none

/-- A tag with the gang index of its lane (spec/21 R396): the write carries it, since its gang may be gone when the write is applied. -/
def WTag.named (t : WTag) (s : State) : WTag :=
  { t with gidx := match t.lane with | some l => (match s.gang? l.gang with | some g => g.index | none => t.gidx) | none => 0 }

/-- One Stipple record for an aligned block (spec/21 R395, R396). -/
def stippleRecord (s : State) (d : Nat) (tag : WTag) (region addr old new bytes : Nat) (dropped spad : Bool) : State :=
  let ids := match tag.lane with | some l => l.group + 256 * l.warp + 65536 * l.lane | none => 0
  let ex := match tag.lane with | some l => groupExited s (LaneId.grp l) | none => false
  let flags := b2n ex + 2 * b2n dropped + 4 * b2n spad + 8 * b2n (ctxKeyId s tag.ctx != 0)
  emitRing s d (.trace d) 0x51 tag.ctx
    [(0x90, 1, tag.ctx), (0x91, 1, tag.issuer), (0x92, 1, flags), (0x93, 1, region), (0x98, 8, addr), (0xA0, 16, old),
      (0xB0, 16, new), (0xC0, 8, tag.pc.toNat), (0xC8, 4, tag.gidx), (0xCC, 3, ids), (0xD0, 2, bytes)] [(0x98, 64)] 0xD8

/-- The (virtual address, location) pairs of a write's bytes that are homed on a die. -/
def writeVas (s : State) (d : Nat) (w : FlatWrite) : List (Nat × Nat) :=
  (w.tag.vas.zip (w.cells.map Prod.fst)).filter (fun p => homeOfLoc s p.2 == domId s d)

/-- The bits of a block's bytes among offsets. -/
def blockBits (os : List Nat) : Nat := (((os.map (· % 16)).firsts).map (2 ^ ·)).foldl (· + ·) 0

/-- The Stipple records of a write at the home die of its bytes, one for each block that it touches inside a region; `old` is the die before it
(spec/21 R394). The record names the bytes of the block that were written; where the stamp drops some of them, those that stand; where it drops
all, the record is marked DROPPED and names them all (R395, R398; log 31). -/
def traceWrite (s : State) (d : Nat) (old : Die) (w : FlatWrite) : State :=
  let ps := writeVas s d w
  let hits := ps.filterMap (fun p => (watchedRegion s w.tag.ctx none p.1).map (fun n => (n, p.1 / 16)))
  hits.firsts.foldl (fun s h =>
    let here := ps.filter (fun p => p.1 / 16 == h.2)
    let base := match here with | p :: _ => p.2 - p.1 % 16 | [] => 0
    let stands := here.filter (fun p => (mget old.stamps p.2 ⟨0, 0⟩).lt w.stamp)
    let named := if stands.isEmpty then here else stands
    stippleRecord s d w.tag h.1 (16 * h.2) (ofBytesLE (memReads old.view base 16)) (ofBytesLE (memReads (s.die d).view base 16))
      (blockBits (named.map Prod.fst)) stands.isEmpty false) s

/-- Apply a write at die `d` with every effect of its application (spec/12 R244; spec/08 R206; spec/16 R325; spec/21 R394). -/
def applyWrite (s : State) (d : Nat) (w : FlatWrite) : State :=
  if w.tag.vas.isEmpty then applyRaw s d w else traceWrite (applyRaw s d w) d (s.die d) w

/-- A flat write by a lane or engine of die `d`: one event with one stamp (spec/12 R239, R242, R244, R250). -/
def flatWrite (s : State) (d : Nat) (cells : List (Nat × Byte)) (tag : WTag) : State :=
  if cells.isEmpty then s
  else
    let dom := domId s d
    let x := s.die d
    let vec := x.vec.set dom (x.vec.getD dom 0 + 1)
    let w : FlatWrite := { src := dom, dst := d, vec := vec, stamp := ⟨vec.sum, dom⟩, cells := cells, tag := tag.named s }
    let others := (List.range 4).filter (· != d)
    let s := { s with inflight := s.inflight ++ others.map (fun k => { w with dst := k }) }
    applyWrite s d w

/-- A write on its way to die `d` may be applied once the writes its vector counts have been (spec/12 R244). -/
def causallyReady (s : State) (d : Nat) (w : FlatWrite) : Bool :=
  let v := (s.die d).vec
  v.getD w.src 0 + 1 == w.vec.getD w.src 0 && Vec.le (w.vec.set w.src 0) v

/-- The bytes a die's view holds at a location (spec/12 R244). -/
def viewRead (s : State) (d loc n : Nat) : List Byte := memReads (s.die d).view loc n

/-- A domain die id as a die of this module; another module's home is seen from die 0's view (log 11). -/
def localDie (s : State) (dom : Nat) : Nat := if dom / 4 = moduleNo s then dom % 4 else 0

/-- The Square that performs an operation homed at a die of the domain (spec/16 R312): 0 to 3 are this module's, and 4 more than its domain id names
that of another module's die, which stands apart from every die of this one (log 11). -/
def homeSquare (s : State) (dom : Nat) : Nat := if dom / 4 = moduleNo s then dom % 4 else 4 + dom

/-- Whether a home lies in another module. -/
def isRemote (s : State) (dom : Nat) : Bool := dom / 4 != moduleNo s

/-- Some Aflolas port is ready: with none, traffic to another module fails (spec/22 R410, R413). -/
def portsUp (s : State) : Bool := fld (s.mreg ⟨.ready, 0, 0⟩) 43 28 != 0

/-- A Square takes requests: one of this module once it is ready, another module's over a port that is ready (spec/22 R410, R413). -/
def squareUp (s : State) (e : Nat) : Bool := if e < 4 then readyBit s (22 + e) else portsUp s

/-- How a read, or a write, of `n` bytes at a location fails, none where it does not: no ready port reaches its module (spec/22 R413), or the
lowest line that fails decides (spec/08 R190). -/
def memError (s : State) (loc n : Nat) (write : Bool) : Option Cause :=
  if isRemote s (homeOfLoc s loc) && !portsUp s then some .remoteTimeout
  else ((List.range ((loc % 64 + n + 63) / 64)).map (loc / 64 + ·)).findSome? (fun line => mfind s.errs (line, write))

end Sys2Proof.Machine
end

