-- ==== Sys2Proof/Machine/Boot.lean ====
section
/-! DEFINITION. The smallest placed program, as system software and the launch unit leave it (log 17): page tables, one placed gang of
one group of one warp, and an instruction's bytes at the lanes' PC. -/

namespace Sys2Proof.Machine

/-- A lane as placement leaves it (spec/03 R59; spec/01 R16). -/
def Lane.placed (entry : Addr) (nregs : Nat) : Lane :=
  { pc := entry, regs := List.replicate nregs ⟨0, true⟩, lc := [0, 0, 0], loops := List.replicate 3 ⟨false, 0, 0, 0⟩, fflags := 0, rm := 0
    te := 0, tsUser := 0, tsKill := false, tsCode := 0, st := .run, priv := none, triggered := false, trigDue := false, spec := none, hx := none, xout := Handler.reset, pend := []
    mon := none, cq := [], owed := [], owedBad := false, stopped := false, stepping := false, stepTrap := false, stepDue := false, cmpSkip := []
    since := 0, token := 0 }

/-- A warp as placement leaves it (spec/03 R60). -/
def Warp.placed (entry : Addr) (slot : Nat) (active : Bool) : Warp :=
  { masks := 0xFFFFFFFF#32 :: List.replicate 11 0#32, path := some entry, timer := 0, slot := slot, active := active, starved := 0
    overdue := false, lastIssue := 0, issuedAt := [], aging := 0, subs := [], cd := [] }

/-- A group as placement leaves it (spec/08 R194, R199; spec/13 R265; spec/20 R364, R367). -/
def Group.placed (core gslot nwarps nregs scratch : Nat) (idem : Bool) (expect : Nat) : Group :=
  { core := core, gslot := gslot, nwarps := nwarps, nregs := nregs, scratch := scratch, spad := [], queues := List.replicate 12 none
    chans := List.replicate 16 ⟨0, false, 0⟩, iters := List.replicate 8 none, istreams := List.replicate 4 .idle, hist := [], issues := 0
    idem := idem, expect := expect, wdog := 0, endCause := none }

/-- Where the smallest program stands. -/
def bootEntry : Addr := 0x2000
/-- Its page tables: levels 4, 3 and 2, with one leaf that maps the first GiB with R, W and X (spec/10 R217, R218). -/
def bootTables : List (Nat × Byte) :=
  [(0x10000, 0x01), (0x10001, 0x10), (0x10002, 0x01), (0x11000, 0x01), (0x11001, 0x20), (0x11002, 0x01), (0x12000, 0x1F)]

/-- Its grid, of context 0 and launch queue 0. -/
def bootGrid : Grid :=
  { q := 0, ctx := 0, seq := 1, entry := bootEntry, ngang := 1, grps := 1, warps := 1, regs := 128, prio := 0, idem := false, scratch := 4096
    csize := 0, cbase := 0, expect := 0, cpl := 0, age := 0, next := 1, retired := 0, trig := 0, trigDone := false, cause := none
    ended := none, ofs := 0, cplWait := [], cplPark := false, orig := none, done := false }

/-- Its gang, on close 0. -/
def bootGang : Gang :=
  { grid := 0, index := 0, ngroups := 1, die := 0, close := 0, st := .placed, order := 0, byCtxop := false, forGang := none, waitTok := false, mxSaved := [], roadSaved := [], tokSaved := [], admSaved := [] }

/-- A die whose view holds the cells of the program. -/
def bootDie (x : Die) (cells : List (Nat × Byte)) : Die := { x with view := memCells x.view cells }

/-- `s` with the smallest program placed, the bytes `bs` at its entry, every function ready, and its first bundle about to issue. -/
def boot (s : State) (bs : List Byte) (lanes : List Nat) : State :=
  let cells := bootTables ++ bs.zipIdx.map (fun p => (bootEntry.toNat + p.2, p.1))
  let s := (List.range 4).foldl (fun s d => s.setDie d (bootDie (s.die d) cells)) s
  let s := (s.setMreg ⟨.ready, 0, 0⟩ 0x00000FFFFFFFFFC3).setMreg ⟨.troot, 0, 0⟩ 0x10000
  let ids : List LaneId := lanes.map (fun n => ⟨0, 0, 0, n⟩)
  { s with
    agenda := [], blocked := [], shorts := [], met := []
    grids := mset s.grids 0 bootGrid
    gangs := mset s.gangs 0 bootGang
    groups := mset s.groups ⟨0, 0⟩ (Group.placed 0 0 1 128 4096 false 0)
    warps := mset s.warps ⟨0, 0, 0⟩ (Warp.placed bootEntry 0 true)
    lanes := ids.foldl (fun m k => mset m k (Lane.placed bootEntry 128)) s.lanes
    forced := [{ core := 0, part := 0, gang := 0, group := 0, pc := bootEntry, len := 0, lanes := ids }] }

end Sys2Proof.Machine
end

