-- ==== Sys2Proof/Machine/Num.lean ====
section
/-! DEFINITION. Number formats, rounding and saturation (spec/04 R90 to R105): each float format to the bit, exact values as
rationals times a power of two, and the one place where a value is rounded to a format. -/

namespace Sys2Proof.Machine

/-- The six sticky flags in the layout of fflags[5:0] (R106). -/
abbrev Flags := BitVec 6

/-- invalid, divide-by-zero, overflow, underflow, inexact, absent-produced (R106). -/
def NV : Flags := 1
def DZ : Flags := 2
def OF : Flags := 4
def UF : Flags := 8
def NX : Flags := 16
def AP : Flags := 32

/-- The flag when a condition holds. -/
def flagIf (c : Bool) (f : Flags) : Flags := if c then f else 0

/-- The rounding modes (R99). -/
inductive RMode where
  | rne | rz | ru | rd
  deriving DecidableEq, Repr

/-- The mode of an RND code, with the lane's fcsr.RM for the dynamic code (R52, R99, R107). -/
def RMode.ofCode (rnd : Nat) (rm : BitVec 3) : RMode :=
  match if rnd = 4 then rm.toNat else rnd with
  | 1 => .rz
  | 2 => .ru
  | 3 => .rd
  | _ => .rne

/-- What kind of values a scalar type holds (R90). -/
inductive TKind where
  | none | raw | int | nat | flt | code | packed
  deriving DecidableEq, Repr

/-- The width of a type in bits: a packed type is one 32-bit register (R50, R90, R91). -/
def tyWidth : Ty → Nat
  | .none | .ill _ => 32
  | .b8 | .i8 | .n8 | .e4m3 | .e5m2 | .q8 => 8
  | .b16 | .i16 | .n16 | .f16 | .bf16 => 16
  | .b32 | .i32 | .n32 | .f32 | .px2 | .h2 | .bh2 | .q4x8 => 32
  | .b64 | .i64 | .n64 => 64
  | .b128 => 128
  | .q4 => 4

/-- The kind of a type (R90, R91). -/
def tyKind : Ty → TKind
  | .none | .ill _ => .none
  | .b8 | .b16 | .b32 | .b64 | .b128 => .raw
  | .i8 | .i16 | .i32 | .i64 => .int
  | .n8 | .n16 | .n32 | .n64 => .nat
  | .f16 | .bf16 | .f32 | .e4m3 | .e5m2 => .flt
  | .q4 | .q8 => .code
  | .px2 | .h2 | .bh2 | .q4x8 => .packed

/-- The element type of a packed type; a scalar type is its own element (R91). -/
def tyElem : Ty → Ty
  | .px2 => .n16
  | .h2 => .f16
  | .bh2 => .bf16
  | .q4x8 => .q4
  | t => t

/-- The number of elements (R91). -/
def tyCount : Ty → Nat
  | .px2 | .h2 | .bh2 => 2
  | .q4x8 => 8
  | _ => 1

/-- The absent code of a scalar type: the most negative code of iN, all ones of every other type (R90). -/
def absentOf (t : Ty) : Nat :=
  match tyKind t with
  | .int => 2 ^ (tyWidth t - 1)
  | _ => 2 ^ tyWidth t - 1

/-- The absent code of a type, every element absent for a packed type (R48, R91). -/
def absentAll (t : Ty) : Nat := if tyKind t = .int then absentOf t else 2 ^ tyWidth t - 1

/-- Whether a pattern is the absent code of its type; the bN types have none (R91). -/
def isAbsent (t : Ty) (x : Nat) : Bool :=
  match tyKind t with
  | .raw | .none => false
  | _ => x == absentOf t

/-- Element `i` of a value of type `t` (R91). -/
def elemOf (t : Ty) (i x : Nat) : Nat :=
  let w := tyWidth (tyElem t)
  x / 2 ^ (w * i) % 2 ^ w

/-- The value whose elements, element 0 first, are `xs` (R91). -/
def packElems (t : Ty) : List Nat → Nat
  | [] => 0
  | x :: xs => x + 2 ^ tyWidth (tyElem t) * packElems t xs

/-! ### Integers -/

/-- The greatest and the least value of an iN or nN type (R90). -/
def intMax (t : Ty) : Int := if tyKind t = .int then (2 ^ (tyWidth t - 1) : Nat) - 1 else (2 ^ tyWidth t : Nat) - 2
def intMin (t : Ty) : Int := if tyKind t = .int then 1 - (2 ^ (tyWidth t - 1) : Nat) else 0

/-- The value of a present iN code or of an nN or bN code (R90). -/
def intVal (t : Ty) (x : Nat) : Int := if tyKind t = .int then sext (tyWidth t) x else x

/-- The code of an integer in a type. -/
def intCode (t : Ty) (x : Int) : Nat := wrapInt (tyWidth t) x

/-- Sat(x, t), with whether it clamped (R101). -/
def satInt (t : Ty) (x : Int) : Nat × Bool :=
  let y := clampInt (intMin t) (intMax t) x
  (intCode t y, y != x)

/-! ### Floats -/

/-- A float format: exponent bits, fraction bits, bias, whether it has infinities (R90). -/
structure FFmt where
  eb : Nat
  mb : Nat
  bias : Nat
  hasInf : Bool
  deriving DecidableEq, Repr

/-- The format of a float type (R90). -/
def ffmt : Ty → FFmt
  | .f16 => ⟨5, 10, 15, true⟩
  | .bf16 => ⟨8, 7, 127, true⟩
  | .e4m3 => ⟨4, 3, 7, false⟩
  | .e5m2 => ⟨5, 2, 15, true⟩
  | _ => ⟨8, 23, 127, true⟩

/-- The magnitude code of the largest finite value, of infinity and of the canonical NaN (R90). -/
def FFmt.maxCode (f : FFmt) : Nat := if f.hasInf then (2 ^ f.eb - 1) * 2 ^ f.mb - 1 else 2 ^ (f.eb + f.mb) - 2
def FFmt.infCode (f : FFmt) : Nat := (2 ^ f.eb - 1) * 2 ^ f.mb
def FFmt.nanCode (f : FFmt) : Nat := if f.hasInf then f.infCode + 2 ^ (f.mb - 1) else 2 ^ (f.eb + f.mb) - 1
/-- The sign bit in place. -/
def FFmt.sign (f : FFmt) (neg : Bool) : Nat := if neg then 2 ^ (f.eb + f.mb) else 0
/-- The exponent of the least subnormal: every finite value is a multiple of 2 to this power. -/
def FFmt.qmin (f : FFmt) : Int := 1 - (f.bias : Int) - f.mb

/-- What a float pattern stands for (R90, R94): a finite value is (-1)^neg × m × 2^e. -/
inductive FVal where
  | absent
  | nan (signalling : Bool)
  | inf (neg : Bool)
  | fin (neg : Bool) (m : Nat) (e : Int)
  deriving DecidableEq, Repr

/-- The meaning of a float pattern of type `t` (R90, R94). -/
def fval (t : Ty) (x : Nat) : FVal :=
  let f := ffmt t
  let neg := natBit x (f.eb + f.mb)
  let mag := x % 2 ^ (f.eb + f.mb)
  let ex := mag / 2 ^ f.mb
  let fr := mag % 2 ^ f.mb
  if x % 2 ^ (f.eb + f.mb + 1) = 2 ^ (f.eb + f.mb + 1) - 1 then .absent
  else if f.hasInf ∧ ex = 2 ^ f.eb - 1 then (if fr = 0 then .inf neg else .nan (! natBit fr (f.mb - 1)))
  else if ¬ f.hasInf ∧ mag = 2 ^ (f.eb + f.mb) - 1 then .nan false
  else if ex = 0 then .fin neg fr f.qmin
  else .fin neg (2 ^ f.mb + fr) (f.qmin + (ex - 1 : Nat))

/-- An exact result before rounding: a nonzero number is (-1)^neg × n / d × 2^e. -/
inductive Ex where
  | nan
  | inf (neg : Bool)
  | zero (neg : Bool)
  | num (neg : Bool) (n d : Nat) (e : Int)
  deriving DecidableEq, Repr

/-- Multiply a natural number by 2^k, splitting into numerator and denominator factors. -/
def shiftUp (n : Nat) (k : Int) : Nat := if 0 ≤ k then n * 2 ^ k.toNat else n
def shiftDn (d : Nat) (k : Int) : Nat := if k < 0 then d * 2 ^ (-k).toNat else d

/-- ⌊log2 (n / d)⌋ for positive n and d. -/
def flog2 (n d : Nat) : Int :=
  let l : Int := (Nat.log2 n : Int) - Nat.log2 d
  if shiftDn d (-l) ≤ shiftUp n (-l) then l else l - 1

/-- Round n / d × 2^e to a multiple of 2^q in a mode: the multiple, and whether it is inexact (R99). -/
def roundAt (mode : RMode) (neg : Bool) (n d : Nat) (e q : Int) : Nat × Bool :=
  let a := shiftUp n (e - q)
  let b := shiftDn d (e - q)
  let k := a / b
  let r := a % b
  let up : Bool := match mode with
    | .rne => 2 * r > b || (2 * r == b && k % 2 == 1)
    | .rz => false
    | .ru => !neg && r != 0
    | .rd => neg && r != 0
  (if up then k + 1 else k, r != 0)

/-- What an overflowing result is (R100). -/
def overflowCode (f : FFmt) (mode : RMode) (neg sat : Bool) : Nat :=
  let toInf : Bool := match mode with
    | .rne => true
    | .rz => false
    | .ru => !neg
    | .rd => neg
  f.sign neg + (if f.hasInf && !sat && toInf then f.infCode else f.maxCode)

/-- A value n/d × 2^e is tiny: rounded to the precision of the format with an unbounded exponent, it lies below the least normal number (R92). -/
def tinyAfter (f : FFmt) (mode : RMode) (neg : Bool) (n d : Nat) (e : Int) : Bool :=
  let ex := flog2 n d + e
  let (ku, _) := roundAt mode neg n d e (ex - f.mb)
  decide (flog2 (max ku 1) 1 + (ex - f.mb) < 1 - (f.bias : Int))

/-- Round an exact value to a float format, with SAT, and the flags of rounding (R92, R99, R100). -/
def roundF (f : FFmt) (mode : RMode) (sat : Bool) (x : Ex) : Nat × Flags :=
  match x with
  | .nan => (f.nanCode, 0)
  | .inf neg => if f.hasInf && !sat then (f.sign neg + f.infCode, 0) else (f.sign neg + f.maxCode, OF ||| NX)
  | .zero neg => (f.sign neg, 0)
  | .num neg n d e =>
    let ex := flog2 n d + e
    let q := max (ex - f.mb) f.qmin
    let (k, inexact) := roundAt mode neg n d e q
    let code := k + (q - f.qmin).toNat * 2 ^ f.mb
    if f.maxCode < code then (overflowCode f mode neg sat, OF ||| NX)
    else (f.sign neg + code, flagIf inexact NX ||| flagIf (inexact && tinyAfter f mode neg n d e) UF)

/-- Round an exact value to an integer, with whether it is inexact (R99). -/
def roundI (mode : RMode) (neg : Bool) (n d : Nat) (e : Int) : Int × Bool :=
  let (k, inexact) := roundAt mode neg n d e 0
  (if neg then -(k : Int) else k, inexact)

/-- A finite or infinite value as an exact result. -/
def FVal.toEx : FVal → Ex
  | .absent | .nan _ => .nan
  | .inf neg => .inf neg
  | .fin neg m e => if m = 0 then .zero neg else .num neg m 1 e

/-- An integer as an exact result; zero is +0. -/
def exOfInt (x : Int) : Ex := if x = 0 then .zero false else .num (x < 0) x.natAbs 1 0

/-- Whether an operand is a signalling NaN; whether it is any NaN. -/
def FVal.isSig : FVal → Bool
  | .nan b => b
  | _ => false
def FVal.isNan : FVal → Bool
  | .nan _ => true
  | _ => false

/-- Negation: only the sign changes. -/
def FVal.negate : FVal → FVal
  | .inf n => .inf (!n)
  | .fin n m e => .fin (!n) m e
  | v => v

/-- The exact product of two present values, with invalid for ∞ × 0 and for a signalling NaN (R93, R104). -/
def mulV (a b : FVal) : FVal × Flags :=
  let s := flagIf (a.isSig || b.isSig) NV
  if a.isNan || b.isNan then (.nan false, s)
  else match a, b with
    | .inf x, .inf y => (.inf (x != y), 0)
    | .inf x, .fin y m _ => if m = 0 then (.nan false, NV) else (.inf (x != y), 0)
    | .fin x m _, .inf y => if m = 0 then (.nan false, NV) else (.inf (x != y), 0)
    | .fin x m e, .fin y n k => (.fin (x != y) (m * n) (e + k), 0)
    | _, _ => (.nan false, s)

/-- The least exponent among finite addends. -/
def minExp : List FVal → Int → Int
  | [], k => k
  | .fin _ _ e :: r, k => minExp r (min k e)
  | _ :: r, k => minExp r k

/-- The exact sum of finite addends as a multiple of 2^k, for k at or below each exponent. -/
def sumAt (k : Int) : List FVal → Int
  | [] => 0
  | .fin neg m e :: r => (if neg then -(shiftUp m (e - k) : Int) else shiftUp m (e - k)) + sumAt k r
  | _ :: r => sumAt k r

/-- The exact sum of present values: NaN and ∞ − ∞ (R113, R176), and the sign of an exact zero (R99). Beside a NaN the difference of
infinities raises no invalid of its own: the model's choice (log 39). -/
def sumV (mode : RMode) (xs : List FVal) : Ex × Flags :=
  let s := flagIf (xs.any FVal.isSig) NV
  let pInf := xs.any (fun x => x == .inf false)
  let nInf := xs.any (fun x => x == .inf true)
  if xs.any FVal.isNan then (.nan, s)
  else if pInf && nInf then (.nan, NV)
  else if pInf then (.inf false, 0)
  else if nInf then (.inf true, 0)
  else
    let k := minExp xs 0
    let t := sumAt k xs
    if t ≠ 0 then (.num (t < 0) t.natAbs 1 k, 0)
    else
      let isZ (n : Bool) (x : FVal) : Bool := match x with
        | .fin g m _ => m == 0 && g == n
        | _ => false
      if xs.all (isZ false) then (.zero false, 0)
      else if xs.all (isZ true) then (.zero true, 0)
      else (.zero (mode == .rd), 0)

/-- Compare two finite or infinite values: the sign of a − b. -/
def cmpV : FVal → FVal → Int
  | .inf a, .inf b => if a = b then 0 else if a then -1 else 1
  | .inf a, _ => if a then -1 else 1
  | _, .inf b => if b then 1 else -1
  | a, b =>
    let k := minExp [a, b] 0
    let t := sumAt k [a, b.negate]
    if t < 0 then -1 else if t = 0 then 0 else 1

/-- Order of FMIN and FMAX: −0 below +0 (R153). -/
def lessV (a b : FVal) : Bool :=
  let c := cmpV a b
  c < 0 || (c == 0 && (match a, b with
    | .fin x 0 _, .fin y 0 _ => x && !y
    | _, _ => false))

/-- ⌊√n⌋ by bits: `k` is the number of result bits still to try. -/
def isqrtAux (n : Nat) : Nat → Nat → Nat
  | 0, r => r
  | k + 1, r => let t := r + 2 ^ k; if t * t ≤ n then isqrtAux n k t else isqrtAux n k r

/-- ⌊√n⌋. -/
def isqrt (n : Nat) : Nat := isqrtAux n (Nat.log2 n / 2 + 1) 0

/-- The square root of a positive m × 2^e, exact or with a sticky half unit far below any rounding point, as n / d × 2^e'. -/
def sqrtEx (m : Nat) (e : Int) : Ex :=
  let pad : Int := 64 + (if (e - 64) % 2 = 0 then 0 else 1)
  let n := m * 2 ^ pad.toNat
  let r := isqrt n
  let h := (e - pad) / 2
  if r * r = n then .num false r 1 h else .num false (2 * r + 1) 2 h

/-! ### Conversions (R102, R103) -/

/-- Convert an exact value to a destination type in a mode (R103): the code and the flags. -/
def convEx (t : Ty) (mode : RMode) (sat : Bool) (x : Ex) : Nat × Flags :=
  match tyKind t with
  | .flt => roundF (ffmt t) mode (sat || t == .e4m3 || t == .e5m2) x
  | .code =>
    let qmax : Int := (2 ^ tyWidth t : Nat) - 2
    match x with
    | .nan => (0, NV)
    | .inf neg => (if neg then 0 else qmax.toNat, NV)
    | .zero _ => (0, 0)
    | .num neg n d e =>
      let (k, inexact) := roundI mode neg n d e
      let c := clampInt 0 qmax k
      (c.toNat, if c = k then flagIf inexact NX else NV)
  | _ =>
    match x with
    | .nan => (0, NV)
    | .inf neg => (intCode t (if neg then intMin t else intMax t), NV)
    | .zero _ => (0, 0)
    | .num neg n d e =>
      let (k, inexact) := roundI mode neg n d e
      let c := clampInt (intMin t) (intMax t) k
      (intCode t c, if c = k then flagIf inexact NX else NV)

/-- Whether a float-to-float conversion is one of the exact widenings (R102). -/
def widens (src dst : Ty) : Bool :=
  match dst with
  | .f32 => src == .f16 || src == .bf16 || src == .e4m3 || src == .e5m2
  | .f16 | .bf16 => src == .e4m3 || src == .e5m2
  | _ => false

/-- Scale a value by 2^k exactly. -/
def FVal.scale (k : Int) : FVal → FVal
  | .fin n m e => .fin n m (e + k)
  | v => v

/-- CVT from type `src` to type `dst` (R102, R103, R157): `scale` is the biased block exponent of B where there is one. Three points are the
model's choice (log 39): a block exponent of 0xFF makes the result absent without the absent-produced flag, a widening conversion
stays exact under SAT, infinities included, and f16 to bf16 and bf16 to f16, for which R103's table has no column, go by that of f32 to f16 or bf16. -/
def convert (src dst : Ty) (mode : RMode) (sat : Bool) (x : Nat) (scale : Option Nat) : Nat × Flags :=
  if isAbsent src x ∨ scale = some 0xFF then (absentOf dst, 0)
  else if tyKind src = .flt then
    let v := fval src x
    if tyKind dst = .flt ∧ v.isNan then ((ffmt dst).nanCode, flagIf v.isSig NV)
    else match scale with
      | none => if src = dst then (x, 0) else convEx dst mode (sat && !widens src dst) v.toEx
      | some b => convEx dst mode sat (v.scale (127 - (b : Int))).toEx
  else if src = dst then (x, 0)
  else if tyKind dst = .flt then convEx dst mode sat (exOfInt (intVal src x))
  else
    let (c, clamped) := satInt dst (intVal src x)
    (c, flagIf clamped NV)

/-- The exact value of code `q` in a group with f16 scale `s` and zero point `zp` (R104); none when it is absent. -/
def dequant (t : Ty) (s zp q : Nat) : Option (FVal × Flags) :=
  if isAbsent t q ∨ isAbsent .f16 s then none
  else
    let k : Int := (q : Int) - zp
    some (mulV (fval .f16 s) (.fin (k < 0) k.natAbs 0))

/-- The code of a finite quotient rounded to `r`, with zp added and clamped; clamping counts as saturation (R105). -/
def quantCode (qmax r : Int) (zp : Nat) (inexact : Bool) : Nat × Flags :=
  let c := clampInt 0 qmax (r + zp)
  (c.toNat, if c = r + zp then flagIf inexact NX else NV)

/-- Quantise an f32 pattern to q4 or q8 with scale `s` and zero point `zp` (R105). A present x whose scale is absent gives the absent code
and raises no absent-produced flag: R105 names none (log 39). -/
def quantise (t : Ty) (mode : RMode) (x s zp : Nat) : Nat × Flags :=
  let qmax : Int := (2 ^ tyWidth t : Nat) - 2
  if isAbsent .f32 x ∨ isAbsent .f16 s then (absentOf t, 0)
  else match fval .f32 x, fval .f16 s with
    | .inf a, .fin b _ _ => (if a != b then 0 else qmax.toNat, NV)
    | .fin _ _ _, .inf _ => quantCode qmax 0 zp false
    | .fin a m e, .fin b n k =>
      if n = 0 then (if m = 0 then (0, NV) else (if a != b then 0 else qmax.toNat, NV))
      else
        let (r, inexact) := if m = 0 then ((0 : Int), false) else roundI mode (a != b) m n (e - k)
        quantCode qmax r zp inexact
    | _, _ => (0, NV)

end Sys2Proof.Machine
end

