-- ==== Sys2Proof/Machine/Paging.lean ====
section
/-! DEFINITION. The memory path (spec/10 R215 to R222, R226 to R233): walks of the page tables, rights, cached translations, and
reads and writes of flat memory through a context's tables, transformed pages included. -/

namespace Sys2Proof.Machine

/-! ### The walk (spec/10 R217 to R219) -/

inductive Walk where
  | leaf (e : Addr) (level : Nat)
  | notPresent (level : Nat)
  | malformed (level : Nat)
  | failed (c : Cause) (level : Nat)   -- the entry itself could not be read (spec/22 R410, R412)
  | waits
  deriving DecidableEq, Repr

/-- Bits 47:12 of an entry as a physical address. -/
def pfnOf (e : Addr) : Nat := fld e 47 12 * 4096
def xfOf (e : Addr) : Nat := fld e 9 8
/-- The base of what a leaf names, a frame or a descriptor array: of an S64 entry PFN[15:12] are ignored, whatever its XF (spec/10 R219, R221). R227
writes PFN whole for the array; the model keeps R221 there too (log 41). -/
def baseOf (e : Addr) : Nat := if flg e 5 then pfnOf e / 65536 * 65536 else pfnOf e
def dixOf (e : Addr) : Nat := fld e 55 48
def keyOf (e : Addr) : Nat := fld e 61 56

/-- Whether a valid entry is malformed at a level (spec/10 R218, R219). -/
def badEntry (e : Addr) (level : Nat) : Bool :=
  if flg e 1 then
    3 ≤ level || fld e 63 62 != 0 || fld e 11 10 != 0 || (xfOf e == 0 && dixOf e != 0) || (flg e 5 && level != 0) ||
      xfOf e == 3 || fld e 7 6 == 3 ||
      (xfOf e == 0 && ((level == 1 && fld e 20 12 != 0) || (level == 2 && fld e 29 12 != 0))) ||
      !inR216 (baseOf e)
  else
    level == 0 || fld e 63 48 != 0 || fld e 11 2 != 0 || !inR216 (pfnOf e)

/-- The bytes at a location as a reader sees them: a party of die `d` in its die's view, another at the home, with what is on its way there
applied (spec/10 R217; spec/12 R243, R244; log 41). -/
def readAs (s : State) (d : Option Nat) (loc home n : Nat) : List Byte :=
  match d with
  | some x => viewRead s x loc n
  | none =>
    let h := localDie s home
    let view := (s.inflight.filter (fun w => w.dst == h)).foldl (fun (a : Mem × List (Nat × Stamp)) w =>
      let r := applyCells a.1 a.2 w.stamp w.cells
      (r.1, r.2.1)) ((s.die h).view, (s.die h).stamps)
    memReads view.1 loc n

/-- A read of at most eight bytes of physical memory. -/
inductive Phys where
  | ok (v : Nat)
  | failed (c : Cause)
  | waits
  deriving DecidableEq, Repr

def physRead (s : State) (d : Option Nat) (pa n : Nat) : Phys :=
  match availOf s pa with
  | .waits => .waits
  | .bad => .failed .uncorrectable
  | .ready =>
    match locate s pa with
    | some (loc, home) =>
      (match memError s loc n false with
       | some c => .failed c
       | none => .ok (ofBytesLE (readAs s d loc home n)))
    | none => .failed .permission

/-- Walk from the table at `table`, `n` levels left to visit below `level` included; each entry is read at its home (R217). -/
def walkFrom (s : State) (va : Addr) : Nat → Nat → Walk
  | 0, _ => .malformed 0
  | n + 1, table =>
    let idx := va.toNat / 2 ^ (12 + 9 * n) % 512
    match physRead s none (table + 8 * idx) 8 with
    | .waits => .waits
    | .failed c => .failed c n
    | .ok v =>
      let e : Addr := BitVec.ofNat 64 v
      if !flg e 0 then .notPresent n
      else if badEntry e n then .malformed n
      else if flg e 1 then .leaf e n
      else walkFrom s va n (pfnOf e)

/-- The walk of a context for an address (spec/10 R217). -/
def walk (s : State) (ctx : Nat) (va : Addr) : Walk :=
  let root := s.mreg ⟨.troot, ctx, 0⟩
  if fld root 63 48 ≠ 0 ∨ fld root 11 0 ≠ 0 ∨ inR216 (pfnOf root) = false then .malformed 4
  else walkFrom s va 5 (pfnOf root)

/-- The size of the page a leaf maps (spec/10 R217, R221). -/
def pageSize (e : Addr) (level : Nat) : Nat :=
  if level = 0 then (if flg e 5 then 65536 else 4096) else if level = 1 then 2 ^ 21 else 2 ^ 30

/-- The physical address a plain leaf gives an address (spec/10 R221). -/
def leafPa (e : Addr) (level : Nat) (va : Addr) : Nat :=
  let p := pageSize e level
  baseOf e / p * p + va.toNat % p

/-! ### Rights (spec/10 R220) -/

inductive Access where
  | load | fetch | store | square
  | storage                     -- the destination of a storage read, which is checked as its target too
  deriving DecidableEq, Repr

/-- The cause a valid leaf gives an access that it does not admit, in the order of R189. -/
def rightsFault (s : State) (ctx : Nat) (e : Addr) (k : Access) : Option Cause :=
  let r := flg e 2
  let w := flg e 3
  let xf := xfOf e
  let perm := match k with
    | .load => !r
    | .fetch => !(flg e 4 && r)
    | .store => !w || xf == 2
    | .storage => !r || !w || xf == 2
    | .square => !r || !w || xf == 2 || fld e 7 6 != 0
  if perm then some .permission
  else if keyOf e ≠ 0 ∧ keyOf e ≠ ctxKeyId s ctx then some .sealedViolation
  else if (k = .store ∨ k = .square ∨ k = .storage) ∧ xf ≠ 0 then some .compressedWrite
  else none

/-- An address's translation for an access. -/
inductive Trans where
  | leaf (e : Addr) (level : Nat)
  | fault (c : Cause) (level : Nat) (malformed : Bool)
  | failed (c : Cause) (level : Nat)
  | waits
  deriving DecidableEq, Repr

/-- Bits 63:57 all equal bit 56 (spec/08 R186). -/
def canonical (va : Addr) : Bool := fld va 63 56 == 0 || fld va 63 56 == 255

/-- The private window (spec/08 R187). -/
def inPrivate (va : Addr) : Bool := va.toNat / 2 ^ 32 == 0xFF000000

/-- Apply every write on its way to die `d`, oldest first: a schedule of applications that the causal order admits (spec/12 R244). -/
def drainTo (s : State) (d : Nat) : State :=
  let (mine, rest) := s.inflight.partition (fun w => w.dst == d)
  mine.foldl (fun s w => applyWrite s d w) { s with inflight := rest }

/-- The locations of the entries that a walk reads, `n` levels left to visit from the table at `table`. -/
def walkEntries (s : State) (va : Addr) : Nat → Nat → List Nat
  | 0, _ => []
  | n + 1, table =>
    let pa := table + 8 * (va.toNat / 2 ^ (12 + 9 * n) % 512)
    match physRead s none pa 8, locate s pa with
    | .ok v, some (loc, _) =>
      let e : Addr := BitVec.ofNat 64 v
      loc :: (if flg e 0 && !badEntry e n && !flg e 1 then walkEntries s va n (pfnOf e) else [])
    | _, _ => []

/-- A walk's reads are flat reads of the party for which it walks (spec/12 R239): a write of an entry that it reads is applied at the party's die,
with all that this write follows, before the party goes on (spec/12 R241 items 1 and 3). -/
def walkSeen (s : State) (d ctx : Nat) (va : Addr) : State :=
  let at_ := walkEntries s va 5 (pfnOf (s.mreg ⟨.troot, ctx, 0⟩))
  let meets := fun (w : FlatWrite) => w.dst == d && w.cells.any (fun c => at_.any (fun a => decide (a ≤ c.1 ∧ c.1 < a + 8)))
  if s.inflight.any meets then drainTo s d else s

/-- A cached translation serves an address: one entry of a last level serves every address of its page (spec/10 R217, R222). Of the 16 entries of an
S64 group the device may apply any (R221): the model applies the one that it walked first, for as long as it stays cached (log 41). -/
def TlbEntry.serves (t : TlbEntry) (ctx : Nat) (va : Addr) : Bool :=
  t.ctx == ctx && t.page * 4096 / pageSize t.leaf t.level == va.toNat / pageSize t.leaf t.level

/-- The translations a die holds after one more: at most 4,096, the oldest making room (spec/00 R1, Table 1). -/
def tlbAdd (ts : List TlbEntry) (t : TlbEntry) : List TlbEntry := ts.drop (ts.length + 1 - 4096) ++ [t]

/-- Translate for an access by a party of die `d`, from the die's cached translations where it holds one (spec/10 R217 to R222). -/
def translate (s : State) (d ctx : Nat) (va : Addr) (k : Access) : State × Trans :=
  let page := va.toNat / 4096
  let hit := (s.die d).tlb.find? (fun t => t.serves ctx va)
  let judge := fun (s : State) (e : Addr) (level : Nat) =>
    match rightsFault s ctx e k with
    | some c => (s, Trans.fault c level false)
    | none => (s, Trans.leaf e level)
  match hit with
  | some t => judge s t.leaf t.level
  | none =>
    let s := walkSeen s d ctx va
    match walk s ctx va with
    | .leaf e level =>
      let x := s.die d
      judge (s.setDie d { x with tlb := tlbAdd x.tlb { ctx := ctx, page := page, leaf := e, level := level } }) e level
    | .notPresent level => (s, .fault .notPresent level false)
    | .malformed level => (s, .fault .permission level true)
    | .failed c level => (s, .failed c level)
    | .waits => (s, .waits)

/-! ### The Skim block format (spec/10 R226 to R231) -/

/-- One step of CRC-32C, reflected. -/
def crcBits : Nat → Nat → Nat
  | 0, c => c
  | n + 1, c => crcBits n (if c % 2 = 1 then (c / 2) ^^^ 0x82F63B78 else c / 2)

/-- CRC-32C of bytes in address order (spec/10 R228). -/
def crc32c (bs : List Byte) : Nat := (bs.foldl (fun c b => crcBits 8 (c ^^^ b.toNat)) 0xFFFFFFFF) ^^^ 0xFFFFFFFF

/-- 16-bit zigzag, both ways (spec/10 R229, R231). -/
def unzig (z : Nat) : Nat := if z % 2 = 1 then 65535 - z / 2 else z / 2
def zig (d : Nat) : Nat := (2 * d % 65536) ^^^ (if 32768 ≤ d then 65535 else 0)

/-- Expand the groups of a mode-1 body: `n` groups left, the word before them (spec/10 R229). None when a width byte exceeds 16 or
the body does not hold exactly the groups. -/
def expandGroups : Nat → Nat → List Byte → Option (List Nat)
  | 0, _, bs => if bs.isEmpty then some [] else none
  | _ + 1, _, [] => none
  | n + 1, prev, wb :: bs =>
    let w := wb.toNat
    if 16 < w ∨ bs.length < 4 * w then none
    else
      let bits := ofBytesLE (bs.take (4 * w))
      let words := (List.range 32).foldl (fun (a : Nat × List Nat) j =>
        let v := (a.1 + unzig (bits / 2 ^ (w * j) % 2 ^ w)) % 65536
        (v, a.2 ++ [v])) (prev, [])
      (expandGroups n words.1 (bs.drop (4 * w))).map (words.2 ++ ·)

/-- The 4,096 bytes of little-endian 16-bit words. -/
def wordBytes (ws : List Nat) : List Byte := ws.flatMap (bytesLE 2)

/-- Expand a chunk image of CLEN bytes; none when it is malformed (spec/10 R228, R230). -/
def expandChunk (c : List Byte) : Option (List Byte) :=
  let blen := ofBytesLE ((c.drop 2).take 2)
  let body := c.drop 16
  let mode := (byteAt c 1).toNat
  if byteAt c 0 ≠ 1 ∨ 2 < mode ∨ ((c.drop 8).take 8).any (· != 0) ∨ 16 + blen ≠ c.length then none
  else
    let out :=
      if mode = 0 then (if blen = 4096 then some body else none)
      else if mode = 2 then (if blen = 2 then some (wordBytes (List.replicate 2048 (ofBytesLE body))) else none)
      else (expandGroups 64 0 body).map wordBytes
    match out with
    | some bs => if crc32c bs = ofBytesLE ((c.drop 4).take 4) then some bs else none
    | none => none

/-- The 2,048 words of 4,096 bytes. -/
def wordsOf (bs : List Byte) : List Nat := (List.range 2048).map (fun i => (byteAt bs (2 * i)).toNat + 256 * (byteAt bs (2 * i + 1)).toNat)

/-- The body of mode 1 (spec/10 R231). -/
def packGroups (ws : List Nat) : List Byte :=
  let zs := (List.zip (0 :: ws) ws).map (fun p => zig ((p.2 + 65536 - p.1) % 65536))
  (List.range 64).flatMap (fun g =>
    let z := (zs.drop (32 * g)).take 32
    let w := z.foldl (fun w v => max w (if v = 0 then 0 else Nat.log2 v + 1)) 0
    BitVec.ofNat 8 w :: bytesLE (4 * w) ((z.zipIdx.map (fun p => p.1 * 2 ^ (w * p.2))).foldl (· + ·) 0))

/-- The chunk a Skim engine makes of 4,096 bytes (spec/10 R228, R231). -/
def makeChunk (bs : List Byte) : List Byte :=
  let ws := wordsOf bs
  let packed := packGroups ws
  let (mode, body) :=
    if ws.all (· == ws.headD 0) then (2, bytesLE 2 (ws.headD 0))
    else if packed.length < 4096 then (1, packed)
    else (0, bs)
  [1#8, BitVec.ofNat 8 mode] ++ bytesLE 2 body.length ++ bytesLE 4 (crc32c bs) ++ List.replicate 8 0#8 ++ body

/-- A chunk descriptor's two words (spec/10 R227); none when it is malformed (R230). -/
def descOk (w0 w1 : Nat) : Bool :=
  w0 / 2 ^ 61 == 0 && w0 % 16 == 0 && w1 / 2 ^ 48 == 0 && w1 / 2 % 8 == 0 &&
    18 ≤ w0 / 2 ^ 48 % 2 ^ 13 && w0 / 2 ^ 48 % 2 ^ 13 ≤ 4176

/-- The expanded bytes of a chunk, or the attempts that failed, coded as the fault record codes them (spec/10 R232; spec/08 R433). -/
inductive Chunk where
  | ok (bs : List Byte)
  | failed (attempts : Nat)
  | bad (c : Cause)             -- the descriptor could not be read (spec/22 R410, R412)
  | waits
  deriving DecidableEq, Repr

/-- Split [va, va + n) at 4 KiB boundaries: (address, length) pieces; `fuel` bounds their number. -/
def pieces : Nat → Addr → Nat → List (Addr × Nat)
  | 0, _, _ => []
  | fuel + 1, va, n =>
    if n = 0 then []
    else
      let k := min n (4096 - va.toNat % 4096)
      (va, k) :: pieces fuel (va + BitVec.ofNat 64 k) (n - k)

/-- Read a chunk image of `n` bytes at a physical address, as plain memory is read (spec/10 R216, R233): some image, or an uncorrectable error,
which any failure of the read counts as (log 41). -/
def chunkAt (s : State) (d : Option Nat) (pa n : Nat) : Avail × List Byte :=
  match availSpan s pa n with
  | .waits => (.waits, [])
  | .bad => (.bad, [])
  | .ready =>
    (pieces (n / 4096 + 2) (BitVec.ofNat 64 pa) n).foldl (fun (a : Avail × List Byte) p =>
      match a.1, locate s p.1.toNat with
      | .ready, some (loc, home) =>
        if (memError s loc p.2 false).isSome then (.bad, []) else (.ready, a.2 ++ readAs s d loc home p.2)
      | .ready, none => (.bad, [])
      | _, _ => a) (.ready, [])

/-- The attempts of R232 in order: `i` counts them, `code` gathers their outcomes. -/
def tryChunks (s : State) (d : Option Nat) (len : Nat) : List Nat → Nat → Nat → Chunk
  | [], _, code => .failed code
  | pa :: r, i, code =>
    match chunkAt s d pa len with
    | (.waits, _) => .waits
    | (.bad, _) => tryChunks s d len r (i + 1) (code + 3 * 4 ^ i)
    | (.ready, bs) =>
      match expandChunk bs with
      | some out => .ok out
      | none => tryChunks s d len r (i + 1) (code + 2 * 4 ^ i)

/-- Expand chunk `c` of the page that a transformed leaf maps, for a reader of die `d` or of the I/O die (spec/10 R227, R232). A descriptor whose memory
cannot be read fails the access with the cause met there, at once and not as TRANSFORM_FAILED: the model's choice (log 41). -/
def readChunk (s : State) (d : Option Nat) (e : Addr) (c : Nat) : Chunk :=
  let at_ := baseOf e + 16 * (dixOf e + c)
  match physRead s d at_ 8, physRead s d (at_ + 8) 8 with
  | .ok w0, .ok w1 =>
    if descOk w0 w1 then
      let pri := w0 / 16 % 2 ^ 44 * 16
      let rep := w1 / 16 % 2 ^ 44 * 16
      tryChunks s d (w0 / 2 ^ 48 % 2 ^ 13) ([pri, pri] ++ (if w1 % 2 = 1 then [rep] else [])) 0 0
    else .failed 64
  | .waits, _ => .waits
  | _, .waits => .waits
  | .failed c, _ => .bad c
  | _, .failed c => .bad c

/-! ### Reads and writes of one page's bytes -/

/-- The outcome of a virtual access. -/
inductive VRes where
  | bytes (bs : List Byte) (loc home : Nat)    -- a read; location and home of the first byte (2^80 + the address for a transformed page)
  | place (loc home : Nat)                     -- a write may go there
  | fault (c : Cause) (level : Nat) (malformed : Bool)
  | failed (f : FailInfo)                      -- a failed delivery (spec/08 R190)
  | waits
  deriving DecidableEq, Repr

/-- A failure that no walk decided. -/
def FailInfo.plain (c : Cause) : FailInfo := { cause := c, attempts := 0, level := 0xFF, malformed := false }

/-- Read `n` bytes at an address, all in one 4 KiB page, as a party of die `d` (spec/10 R220, R232). -/
def vread (s : State) (d ctx : Nat) (va : Addr) (n : Nat) (k : Access) : State × VRes :=
  match translate s d ctx va k with
  | (s, .leaf e level) =>
    if xfOf e = 0 then
      let pa := leafPa e level va
      match availSpan s pa n, locate s pa with
      | .waits, _ => (s, .waits)
      | .bad, _ => (s, .failed (.plain .uncorrectable))
      | .ready, some (loc, home) =>
        (match memError s loc n false with
         | some c => (s, .failed (.plain c))
         | none => (s, .bytes (viewRead s d loc n) loc home))
      | .ready, none => (s, .failed (.plain .permission))
    else
      let p := pageSize e level
      match readChunk s (some d) e (va.toNat % p / 4096) with
      | .ok bs => (s, .bytes ((bs.drop (va.toNat % 4096)).take n) (2 ^ 80 + va.toNat) (domId s d))
      | .failed a => (s, .failed { FailInfo.plain .transformFailed with attempts := a })
      | .bad c => (s, .failed (.plain c))
      | .waits => (s, .waits)
  | (s, .fault c level m) => (s, .fault c level m)
  | (s, .failed c level) => (s, .failed { FailInfo.plain c with level := level })
  | (s, .waits) => (s, .waits)

/-- How an access to be placed at a location fails there: a write, a Square operation as a read too, and one that only reads as a read alone
(spec/08 R190; spec/16 R324). -/
def placeError (s : State) (loc n : Nat) (k : Access) : Option Cause :=
  (if k = .load then none else memError s loc n true) <|> (if k = .square ∨ k = .load then memError s loc n false else none)

/-- Where a write or Square operation at an address goes, with the rights of `k` (spec/10 R220); an error of its first line that an access `e` meets
there fails it. -/
def vplaceAs (s : State) (d ctx : Nat) (va : Addr) (k e : Access) : State × VRes :=
  match translate s d ctx va k with
  | (s, .leaf leaf level) =>
    let pa := leafPa leaf level va
    match availOf s pa, locate s pa with
    | .waits, _ => (s, .waits)
    | .bad, _ => (s, .failed (.plain .uncorrectable))
    | .ready, some (loc, home) =>
      (match placeError s loc 1 e with
       | some c => (s, .failed (.plain c))
       | none => (s, .place loc home))
    | .ready, none => (s, .failed (.plain .permission))
  | (s, .fault c level m) => (s, .fault c level m)
  | (s, .failed c level) => (s, .failed { FailInfo.plain c with level := level })
  | (s, .waits) => (s, .waits)

/-- Where a write or Square operation at an address goes, which meets the errors of its own kind there (spec/10 R220). -/
def vplace (s : State) (d ctx : Nat) (va : Addr) (k : Access) : State × VRes := vplaceAs s d ctx va k k

/-- Read a range that may span pages: the bytes with the location and home of the first, or the first piece that does not translate, else the
first that fails at memory, with its address (spec/17 R354). -/
def bulkRead (s : State) (d ctx : Nat) (va : Addr) (n : Nat) (k : Access) : State × VRes × Addr :=
  (pieces (n / 4096 + 2) va n).foldl (fun (a : State × VRes × Addr) p =>
    match a.2.1 with
    | .bytes acc loc home =>
      (match vread a.1 d ctx p.1 p.2 k with
       | (s, .bytes bs l h) => (s, .bytes (acc ++ bs) (if acc.isEmpty then l else loc) (if acc.isEmpty then h else home), va)
       | (s, r) => (s, r, p.1))
    | .failed _ =>
      (match vread a.1 d ctx p.1 p.2 k with
       | (s, .fault c level m) => (s, .fault c level m, p.1)
       | (s, _) => (s, a.2))
    | _ => a) (s, .bytes [] 0 0, va)

/-- Whether a range of virtual addresses goes to memory of another module, as far as it translates now (spec/10 R216; spec/22 R413). -/
def farRange (s : State) (d ctx : Nat) (va n : Nat) : Bool :=
  (pieces (n / 4096 + 2) (BitVec.ofNat 64 va) n).any (fun p =>
    match (translate s d ctx p.1 .load).2 with
    | .leaf e level =>
      (match locate s (if xfOf e = 0 then leafPa e level p.1 else baseOf e) with
       | some (_, home) => isRemote s home
       | none => false)
    | _ => false)

/-- An engine has awaited a reply from another module for FTMO × 65,536 cycles of its core (spec/22 R413). -/
def engineLate (s : State) (waited : Nat) : Bool := decide ((s.mreg ⟨.ftmo, 0, 0⟩).toNat * 65536 ≤ waited)

/-- Where the bytes of a range go: one (location, home) per piece, or the first piece that does not translate, else the first that fails at
memory. -/
def bulkPlace (s : State) (d ctx : Nat) (va : Addr) (n : Nat) (k : Access) : State × List (Nat × Nat × Nat) × VRes × Addr :=
  (pieces (n / 4096 + 2) va n).foldl (fun (a : State × List (Nat × Nat × Nat) × VRes × Addr) p =>
    match a.2.2.1 with
    | .place _ _ =>
      (match vplace a.1 d ctx p.1 k with
       | (s, .place loc home) =>
         (match availSpan s loc p.2, placeError s loc p.2 k with
          | .waits, _ => (s, a.2.1, .waits, p.1)
          | .bad, _ => (s, a.2.1, .failed (.plain .uncorrectable), p.1)
          | .ready, some c => (s, a.2.1, .failed (.plain c), p.1)
          | .ready, none => (s, a.2.1 ++ [(loc, home, p.2)], .place loc home, va))
       | (s, r) => (s, a.2.1, r, p.1))
    | .failed _ =>
      (match vplace a.1 d ctx p.1 k with
       | (s, .fault c level m) => (s, a.2.1, .fault c level m, p.1)
       | (s, _) => (s, a.2))
    | _ => a) (s, [], .place 0 0, va)

/-- The cells of a range whose pieces are placed, with their virtual addresses. -/
def placeCells (va : Addr) (ps : List (Nat × Nat × Nat)) (bs : List Byte) : List (Nat × Byte) × List Nat :=
  let locs := ps.flatMap (fun p => (List.range p.2.2).map (p.1 + ·))
  (locs.zip bs, (List.range (min locs.length bs.length)).map (fun i => (va.toNat + i) % 2 ^ 64))

/-- Write the bytes of an engine of die `d` at placed pieces, one flat write per 4 KiB piece (spec/12 R239). -/
def writePieces (s : State) (d : Nat) (va : Addr) (ps : List (Nat × Nat × Nat)) (bs : List Byte) (tag : WTag) : State :=
  (ps.foldl (fun (a : State × Nat) p =>
    let part := (bs.drop a.2).take p.2.2
    let cells := part.zipIdx.map (fun b => (p.1 + b.2, b.1))
    let vas := (List.range part.length).map (fun i => (va.toNat + a.2 + i) % 2 ^ 64)
    (flatWrite a.1 d cells { tag with vas := vas }, a.2 + p.2.2)) (s, 0)).1

/-- Apply every write on its way anywhere in the module. -/
def drainAll (s : State) : State :=
  let ws := s.inflight
  ws.foldl (fun s w => applyWrite s w.dst w) { s with inflight := [] }

/-! ### Accesses by the I/O die (spec/01 R24; spec/12 R239, R242; spec/22 R410, R412) -/

/-- Read physical memory at its homes, page by page. -/
def ioRead (s : State) (pa n : Nat) : Avail × List Byte := chunkAt s none pa n

/-- Write physical memory page by page, as parties of the I/O die do: each page a flat write that enters at its home. -/
def ioWrite (s : State) (pa : Nat) (bs : List Byte) : State :=
  ((pieces (bs.length / 4096 + 2) (BitVec.ofNat 64 pa) bs.length).foldl (fun (a : State × Nat) p =>
    match locate a.1 p.1.toNat with
    | some (_, home) => (devWrite a.1 (localDie a.1 home) p.1.toNat ((bs.drop a.2).take p.2), a.2 + p.2)
    | none => (a.1, a.2 + p.2)) (s, 0)).1

/-- Whether a write of `n` bytes by a party of the I/O die can be performed: it waits for stacks that are not ready, and cannot where one has failed,
where no memory stands, or where a line fails (spec/10 R216; spec/22 R410, R412; spec/08 R190). -/
def ioAvail (s : State) (pa n : Nat) : Avail :=
  let as := (pieces (n / 4096 + 2) (BitVec.ofNat 64 pa) n).map (fun p => (match locate s p.1.toNat, availSpan s p.1.toNat p.2 with
    | none, _ => .bad
    | some (loc, _), .ready => if (memError s loc p.2 true).isSome then .bad else .ready
    | _, a => a : Avail))
  if as.any (· == .waits) then .waits else if as.any (· == .bad) then .bad else .ready

/-- A write of bytes that stand at virtual addresses from `va` on, which the regions of a context watch (spec/21 R394). -/
def ioWriteAs (s : State) (pa : Nat) (bs : List Byte) (va : Nat) (tag : WTag) : State :=
  ((pieces (bs.length / 4096 + 2) (BitVec.ofNat 64 pa) bs.length).foldl (fun (a : State × Nat) p =>
    let part := (bs.drop a.2).take p.2
    match availSpan a.1 p.1.toNat p.2, locate a.1 p.1.toNat with
    | .ready, some (loc, home) =>
      (flatWrite a.1 (localDie a.1 home) (part.zipIdx.map (fun b => (loc + b.2, b.1)))
        { tag with vas := (List.range part.length).map (fun i => (va + a.2 + i) % 2 ^ 64) }, a.2 + p.2)
    | _, _ => (a.1, a.2 + p.2)) (s, 0)).1

end Sys2Proof.Machine
end

