-- ==== Sys2Proof/Machine/Grid.lean ====
section
/-! DEFINITION. What a grid and its parts share: fault buffer entries (spec/10 R223 to R225), scratchpad writes, admission tokens
(spec/01 R28 to R30), ownership of the matrix engine (spec/14 R284 to R286), cancelled engine work (spec/13 R278, spec/14 R307),
exits (spec/05 R120), completion words (spec/20 R362) and the end of a gang or grid (spec/20 R371, R372, R379). -/

namespace Sys2Proof.Machine

/-! ### The fault buffer (spec/10 R223 to R225) -/

/-- The free slots of a die's fault buffer; 0 while FBBASE is 0. -/
def fbRoom (s : State) (d : Nat) : Nat :=
  if (s.mreg ⟨.fbbase, d, 0⟩).toNat = 0 then 0
  else 2 ^ fld (s.mreg ⟨.fbsize, d, 0⟩) 4 0 - ((s.mreg ⟨.fbhead, d, 0⟩).toNat + 2 ^ 32 - (s.mreg ⟨.fbtail, d, 0⟩).toNat) % 2 ^ 32

/-- An entry can be written now: a slot is free, and its stack is ready (R223; spec/22 R410). That an entry whose slot cannot be written waits as one
without a slot does, so that HEAD counts written entries alone, is the model's choice where the stack has failed or the slot is no memory (log 42). -/
def fbOpen (s : State) (d : Nat) : Bool :=
  decide (0 < fbRoom s d) && slotAvail s (ringSlot s d .fbbase .fbsize (s.mreg ⟨.fbhead, d, 0⟩).toNat) == .ready

/-- Write one entry into the next slot (R223). -/
def fbPut (s : State) (d : Nat) (r : Record) : State := ringPut s d .fbbase .fbsize .fbhead r

/-- Write entries, oldest first, as long as one can be written; the others wait (R225). -/
def fbWrite (d : Nat) : List Record → State → State
  | [], s => s.setDie d { s.die d with fbWait := [] }
  | r :: rs, s => if fbOpen s d then fbWrite d rs (fbPut s d r) else s.setDie d { s.die d with fbWait := r :: rs }

/-- Write the entries that wait (R225). -/
def fbFlush (s : State) (d : Nat) : State := fbWrite d (s.die d).fbWait s

/-- What a fault buffer entry says (R224). -/
structure FbInfo where
  va : Nat
  cause : Cause
  access : Nat
  ctx : Nat
  issuer : Nat
  lanes : Word
  pc : Nat
  level : Nat
  deriving DecidableEq, Repr

/-- Post a fault buffer entry at die `d` (R223 to R225; spec/21 R402, R403). -/
def postFault (s : State) (d : Nat) (u : Source) (f : FbInfo) : State :=
  let hidden : List (Nat × Nat) := [(0x90, 8), (0x9C, 4), (0xA0, 8)]
  let r := sealRecord s f.ctx (mkRecord s u 0x10
    [(0x90, 8, f.va), (0x98, 1, f.cause.code), (0x99, 1, f.access), (0x9A, 1, f.ctx), (0x9B, 1, f.issuer),
      (0x9C, 4, f.lanes.toNat), (0xA0, 8, f.pc), (0xA8, 1, f.level)]) hidden 0xB0
  let s := bumpSeq s u
  let s := { s with recs := s.recs ++ [r] }
  let s := if (s.die d).fbWait.isEmpty ∧ fbOpen s d then fbPut s d r
    else s.setDie d { s.die d with fbWait := (s.die d).fbWait ++ [r] }
  if ctxKeyId s f.ctx = 0 then s else sealCount s d f.ctx (sealText r hidden 0xB0) 1 false

/-- NOT_PRESENT and COMPRESSED_WRITE are replayable (spec/03 R87). -/
def replayable (c : Cause) : Bool := c == .notPresent || c == .compressedWrite

/-! ### Scratchpad (spec/08 R194 to R196, R206; spec/21 R394) -/

/-- What a scratchpad write does to the tries of other lanes of the gang (R206). -/
def Lane.onSpad (l : Lane) (self : Bool) (g : GroupId) (line : Nat → Bool) : Lane :=
  match l.spec with
  | some t =>
    if !self && t.lines.any (fun (x : Line) => decide (x.space = .spad ∧ x.grp = g.group) && line x.line) then
      { l with spec := some { t with conflict := true } }
    else l
  | none => l

/-- The Stipple records of a scratchpad write of the bytes `bytes`, one for each block that it touches inside a region (spec/21 R394, R395). -/
def traceSpad (s : State) (g : GroupId) (before : Mem) (bytes : List Nat) (tag : WTag) : State :=
  let hits := bytes.filterMap (fun a => (watchedRegion s tag.ctx (some g) a).map (fun r => (r, a / 16)))
  hits.firsts.foldl (fun s h =>
    let spad := match s.group? g with | some x => x.spad | none => []
    stippleRecord s (groupDie s g) (tag.named s) h.1 (16 * h.2) (ofBytesLE (memReads before (16 * h.2) 16))
      (ofBytesLE (memReads spad (16 * h.2) 16)) (blockBits (bytes.filter (fun a => a / 16 == h.2))) false true) s

/-- A group's allocation becomes `m` where the bytes `bytes` are written: in the scratchpad order (R196), with conflicts and the Stipple
trace. -/
def spadPut (s : State) (g : GroupId) (x : Group) (m : Mem) (bytes : List Nat) (tag : WTag) : State :=
  let s := s.setGroup g { x with spad := m }
  let hit := fun line => bytes.any (fun a => a / 64 == line)
  let s := { s with lanes := s.lanes.map (fun p =>
    (p.1, if p.1.gang = g.gang then p.2.onSpad (tag.self p.1) g hit else p.2)) }
  traceSpad s g x.spad bytes tag

/-- Write consecutive bytes of a group's allocation. -/
def spadWrite (s : State) (g : GroupId) (off : Nat) (bs : List Byte) (tag : WTag) : State :=
  match s.group? g with
  | none => s
  | some x => spadPut s g x (memWrites x.spad off bs) ((List.range bs.length).map (off + ·)) tag

/-- Write some bytes of a group's allocation as one write. -/
def spadCells (s : State) (g : GroupId) (cs : List (Nat × Byte)) (tag : WTag) : State :=
  match s.group? g with
  | none => s
  | some x => spadPut s g x (cs.foldl (fun m c => memWrite m c.1 c.2) x.spad) (cs.map Prod.fst) tag

/-! ### Tokens and roadworks -/

/-- Return admission units of a core's die (spec/01 R28; spec/22 R415). -/
def releaseUnits (s : State) (core units : Nat) : State :=
  s.setDie (dieOf core) { s.die (dieOf core) with held := (s.die (dieOf core)).held - units }

/-- Remove the roadworks entries of a core's owner (spec/13 R269). -/
def dropRoads (s : State) (core : Nat) (matrix : Bool) (owner : Nat) : State :=
  let d := dieOf core
  s.setDie d { s.die d with road := (s.die d).road.filter (fun r => !(r.core == core && r.matrix == matrix && r.owner == owner)) }

/-- The owner under which a lane that waits for a token holds its roadworks entries (R262). -/
def laneOwner (k : LaneId) : Nat := 2 * (((k.gang * 4 + k.group) * 32 + k.warp) * 32 + k.lane) + 1

/-- The status word of a command (spec/13 R258). -/
def statusWord (op st cause fl : Nat) : Nat := 2 ^ 31 + (op - 0x280) * 2 ^ 20 + st * 2 ^ 16 + cause * 2 ^ 8 + fl

/-- The owner under which a command holds its roadworks entries (spec/13 R269): its name. -/
def Cmd.owner (c : Cmd) : Nat := 2 * c.id

/-- Two commands are one: the same ticket and name. A restored gang's command may bear a ticket that its new core issues again (spec/13 R257,
R277). -/
def Cmd.same (a b : Cmd) : Bool := a.ticket == b.ticket && a.id == b.id

/-- Cancel the stream commands of a core that `p` names: no completion is delivered, the event record carries ST 2 (spec/13 R278). -/
def cancelStream (s : State) (core : Nat) (p : Cmd → Bool) : State :=
  let x := s.core core
  let gone := x.cmds.filter p
  let s := s.setCore core { x with cmds := x.cmds.filter (fun c => !p c) }
  gone.foldl (fun s c =>
    let s := releaseUnits (dropRoads s core false c.owner) core c.units
    emit s (.stream core) 0x20 [(0x90, 4, c.ticket.toNat), (0x94, 4, statusWord c.op 2 0 c.fl.toNat)]) s

/-! ### Ownership of the matrix engine (spec/14 R284 to R286) -/

/-- A matrix engine as a context that did not own it before finds it (R284; spec/04 R110). -/
def Matrix.cleared (m : Matrix) : Matrix :=
  { m with acc := [], mq := [], mr := [], cfg := none, wts := none, fl := 0, err := false, cause := .none,
           recs := List.replicate 32 ScaleRec.clear }

/-- The token of MACQ (spec/22 R415). -/
def macqUnits : Nat := 20

/-- Give a free engine to the head of its waiter FIFO, which then asks for its token (R284). -/
def matrixPass (s : State) (core : Nat) : State :=
  let x := s.core core
  match x.mx.owner, x.mx.fifo with
  | none, w :: r =>
    let ctx := gangCtx s w.gang
    let m := if x.mx.prevCtx = some ctx then x.mx else x.mx.cleared
    let s := s.setCore core { x with mx := { m with owner := some w, prevCtx := some ctx, fifo := r, token := false } }
    let d := dieOf core
    s.setDie d { s.die d with admq := (s.die d).admq ++ [{ who := .engine, units := macqUnits, lane := ⟨w.gang, w.group, w.warp, 0⟩, core := core, waited := 0 }] }
  | _, _ => s

/-- Give up ownership: mq and mr are discarded, the token is returned, and the next waiter is served (R285). -/
def matrixLeave (s : State) (core : Nat) : State :=
  let x := s.core core
  let s := if x.mx.token then releaseUnits s core macqUnits else s
  let s := s.setCore core { s.core core with mx := { x.mx with owner := none, mq := [], mr := [], token := false } }
  matrixPass s core

/-- Release ownership as MREL does: FL and ERR are cleared too (R285). -/
def matrixRelease (s : State) (core : Nat) : State :=
  let x := s.core core
  matrixLeave (s.setCore core { x with mx := { x.mx with fl := 0, err := false, cause := .none } }) core

/-- Cancel the commands of an owner and release the engine without folding FL (R307), which stands with ERR for a next owner of the same
context (R303, R304). -/
def matrixKill (s : State) (core : Nat) (p : WarpId → Bool) : State :=
  let x := s.core core
  let s := s.setCore core { x with mx := { x.mx with fifo := x.mx.fifo.filter (fun w => !p w) } }
  match x.mx.owner with
  | some w =>
    if p w then
      let s := x.mx.q.foldl (fun s c => dropRoads s core true c.num) s
      let y := s.core core
      let d := dieOf core
      let s := s.setCore core { y with mx := { y.mx with q := [] } }
      let s := s.setDie d { s.die d with admq := (s.die d).admq.filter (fun r => !(r.who == .engine && r.core == core && p (LaneId.wid r.lane))) }
      matrixLeave s core
    else s
  | none => s

/-- A stream from mq that finds less there than its next row takes (R293). -/
def Matrix.starves (m : Matrix) (c : MCmd) : Bool :=
  let k := match m.cfg with | some g => g.k | none => 0
  c.aq == .q 12 && !m.err && decide (c.row < c.b) && decide (c.part.length + m.mq.length < ceilDiv (k * (tyWidth c.ty / 8)) 4)

/-- Every lane of the owning warp has exited: commands at the head that wait for mq end, the others complete one after another, and ownership is
then released with FL in an event record (R286). -/
def matrixOrphan (s : State) (core : Nat) (w : WarpId) : State :=
  let x := s.core core
  if x.mx.owner = some w then
    let kept := x.mx.q.dropWhile x.mx.starves
    let s := (x.mx.q.take (x.mx.q.length - kept.length)).foldl (fun s c => dropRoads s core true c.num) s
    let x := s.core core
    let m := { x.mx with q := kept }
    let s := s.setCore core { x with mx := m }
    if m.q.isEmpty then matrixRelease (emit s (.matrix core) 0x31 [(0x90, 1, m.fl.toNat)]) core else s
  else s

/-! ### Completion words (spec/20 R362) -/

/-- A completion word has been written or skipped: its event record, and the vector of a DONE (R362). -/
def wordDone (s : State) (gk : Nat) (g : Grid) (status : Nat) (lost : Bool) : State :=
  let s := s.setGrid gk { g with cplWait := g.cplWait.drop 1, cplPark := false, done := g.done || natBit status 31 }
  if natBit status 31 then
    let s := emit s (.launch (g.q / 16)) 0x40
      [(0x90, 4, g.q), (0x94, 4, status), (0x98, 1, (g.orig.getD .none).code), (0x99, 1, b2n lost)]
    { s with msix := s.msix ++ [g.q] }
  else s

/-- Write the completion word that a grid owes first, or park the write for XREPLAY (R362; spec/12 R252). -/
def tryWord (s : State) (gk : Nat) : State :=
  match s.grid? gk with
  | none => s
  | some g =>
    match g.cplWait with
    | [] => s
    | status :: _ =>
      let d := g.q / 16
      if g.cpl = 0 then wordDone s gk g status false
      else if g.cpl % 16 ≠ 0 ∨ !canonical (BitVec.ofNat 64 g.cpl) ∨ inPrivate (BitVec.ofNat 64 g.cpl) then wordDone s gk g status true
      else
        let s := drainTo s d
        let seq := if g.seq = 0 then nextSeq s (.launch d) else g.seq
        match vplace s d g.ctx (BitVec.ofNat 64 g.cpl) .store with
        | (s, .place loc _) =>
          let bs := bytesLE 8 seq ++ bytesLE 4 status ++ bytesLE 4 0
          wordDone (flatWrite s d (bs.zipIdx.map (fun p => (loc + p.2, p.1))) WTag.device) gk g status false
        | (s, .fault c level _) =>
          if replayable c then
            postFault (s.setGrid gk { g with cplPark := true }) d (.launch d)
              { va := g.cpl, cause := c, access := 1, ctx := g.ctx, issuer := 4, lanes := 0, pc := g.q, level := level }
          else wordDone s gk g status true
        | (s, .waits) => s
        | (s, _) => wordDone s gk g status true

/-- Write the completion words that a grid owes, one after another, up to one that is parked or waits (R362). -/
def tryWords (s : State) (gk : Nat) : State :=
  match s.grid? gk with
  | none => s
  | some g => g.cplWait.foldl (fun s _ => match s.grid? gk with | some h => if h.cplPark then s else tryWord s gk | none => s) s

/-- A set operation was sent to another module's Square, which has not answered: it may not have been performed (spec/17 R355). -/
def Pend.awayOpen (p : Pend) : Bool := p.fail.isNone && (match p.far with | some f => f.own | none => false)

/-- A Square or set operation that the lane issued has not been performed, here or in another module (spec/05 R126, R135; spec/17 R355). -/
def outstanding (s : State) (l : LaneId) : Bool :=
  (match s.lane? l with | some x => x.pend.any Pend.awayOpen | none => false) || 
    s.dies.any (fun d => d.2.sqq.any (fun r => r.lane == l) || d.2.setq.any (fun r => r.lane == l))

/-- The lanes of a grid. -/
def Grid.nlanes (g : Grid) : Nat := g.ngang * g.grps * g.warps * 32

/-- Mark a lane as triggered; the grid's TRIG follows its last lane (spec/20 R382, R362). -/
def trigger (s : State) (l : LaneId) : State :=
  match s.lane? l, s.gang? l.gang with
  | some x, some g =>
    if x.triggered then s
    else
      let s := s.setLane l { x with triggered := true }
      match s.grid? g.grid with
      | some r =>
        let r := { r with trig := r.trig + 1 }
        if r.trig = r.nlanes ∧ r.trigDone = false then
          tryWords (s.setGrid g.grid { r with trigDone := true, cplWait := r.cplWait ++ [2 ^ 30] }) g.grid
        else s.setGrid g.grid r
      | none => s
  | _, _ => s

/-- The STATUS a grid ends with (R362, R365). -/
def Grid.status (g : Grid) : Nat :=
  let (st, c) := match g.ended with
    | some p => p
    | none => (match g.cause with | some c => (1, c) | none => (0, Cause.none))
  2 ^ 31 + b2n g.trigDone * 2 ^ 30 + st * 2 ^ 16 + c.code * 2 ^ 8 + g.ofs

/-- Write DONE once every gang of a grid has retired (R365), or has been killed and its engine work has stopped (R372); it waits behind a parked
write of TRIG (R362). -/
def finishGrid (s : State) (gk : Nat) : State :=
  match s.grid? gk with
  | some g =>
    if g.retired = g.ngang ∧ g.done = false ∧ g.cplWait.all (fun v => !natBit v 31) ∧ s.gangs.all (fun p => p.2.grid != gk) then
      tryWords (s.setGrid gk { g with cplWait := g.cplWait ++ [g.status] }) gk
    else s
  | none => s

/-! ### Exits (spec/05 R120; spec/03 R77) -/

/-- A lane after its exit (R120; spec/16 R327; spec/20 R358). Deliveries that fail, or may still fail, are kept for the fault record that
they owe (spec/08 R190, R433). -/
def Lane.exited (l : Lane) : Lane :=
  { l with st := .exited, pend := l.pend.filter (fun p => p.fail.isSome || (p.vals.isNone && p.kind != .chwp) || p.remote)
           loops := l.loops.map (fun r => { r with act := false }), spec := none, hx := none, xout := l.hx.getD l.xout,
           mon := none, priv := none, cq := [], stopped := false, stepping := false, stepTrap := false
           stepDue := false, token := 0 }

/-- Remove a lane from every mask and sub-warp of its warp (R77, R83). -/
def Warp.remove (w : Warp) (lane : Nat) : Warp :=
  let keep : Word := ~~~(1#32 <<< lane)
  { w with masks := w.masks.map (· &&& keep)
           subs := (w.subs.map (fun u => { u with mask := u.mask &&& keep })).filter (fun u => u.mask != 0#32) }

/-- A warp no longer waits for its engine or for the engine's token (spec/14 R284). -/
def leaveFifo (s : State) (core : Nat) (w : WarpId) : State :=
  let x := s.core core
  let d := dieOf core
  let s := s.setCore core { x with mx := { x.mx with fifo := x.mx.fifo.filter (· != w) } }
  s.setDie d { s.die d with admq := (s.die d).admq.filter (fun r => !(r.who == .engine && r.core == core && LaneId.wid r.lane == w)) }

/-- A lane leaves a wait for ownership, a token or a wake: its warp leaves the waiter FIFO or gives up ownership, its request and its
roadworks entries go (spec/01 R29; spec/14 R284). FL stands (spec/14 R303). -/
def leaveWait (s : State) (k : LaneId) : State :=
  match s.lane? k with
  | none => s
  | some l =>
    let core := laneCore s k
    let d := dieOf core
    match l.st with
    | .macq _ _ =>
      let w := LaneId.wid k
      let s := leaveFifo s core w
      if (s.core core).mx.owner = some w then matrixLeave s core else s
    | .adm =>
      let s := dropRoads s core false (laneOwner k)
      s.setDie d { s.die d with admq := (s.die d).admq.filter (fun r => !(r.who == .lane && r.lane == k)) }
    | _ => s

/-- Exit one lane; `trig` when the lane executed the exit itself (spec/20 R382), which then triggers once its Square and set operations are
performed (spec/12 R252). The warp's waits are rechecked by the caller. -/
def exitLane (s : State) (l : LaneId) (trig : Bool) : State :=
  match s.lane? l with
  | none => s
  | some x =>
    if x.st = .exited then s
    else
      let late := trig && !x.triggered && outstanding s l
      let s := if trig && !late then trigger s l else s
      let s := match x.st with | .macq _ _ => s | _ => leaveWait s l
      let x := match s.lane? l with | some x => x | none => x
      let s := s.setLane l { x.exited with trigDue := late }
      let core := laneCore s l
      let d := dieOf core
      let s := releaseUnits (dropRoads s core false (laneOwner l)) core x.token
      let s := s.setDie d { s.die d with admq := (s.die d).admq.filter (fun r => !(r.who == .lane && r.lane == l)) }
      match s.warp? (LaneId.wid l) with
      | none => s
      | some w =>
        let w := w.remove l.lane
        if w.masks.headD 0#32 = 0#32 then
          let s := s.setWarp (LaneId.wid l) { w with path := none, cd := [] }
          let x := s.core core
          let s := s.setCore core { x with cdHeld := x.cdHeld.filter (fun p => p.1 != LaneId.wid l) }
          matrixOrphan (leaveFifo s core (LaneId.wid l)) core (LaneId.wid l)
        else s.setWarp (LaneId.wid l) w

/-- A lane whose exit has waited for its operations triggers (spec/12 R252). -/
def lateTrigger (s : State) (l : LaneId) : State :=
  match s.lane? l with
  | some x => if x.trigDue && !outstanding s l then trigger (s.setLane l { x with trigDue := false }) l else s
  | none => s

/-- The groups of a gang, ascending. -/
def gangGroups (s : State) (gang : Nat) : List GroupId :=
  (List.range 4).filterMap (fun i => (s.group? ⟨gang, i⟩).map (fun _ => ⟨gang, i⟩))

/-- The lanes of a gang in the map's order. -/
def gangLanes (s : State) (gang : Nat) : List LaneId := (s.lanes.map Prod.fst).filter (fun l => l.gang == gang)

/-- Remove a gang and all it holds. -/
def removeGang (s : State) (gang : Nat) : State :=
  { s with gangs := mdel s.gangs gang
           groups := s.groups.filter (fun p => p.1.gang != gang)
           warps := s.warps.filter (fun p => p.1.gang != gang)
           lanes := s.lanes.filter (fun p => p.1.gang != gang) }

/-- A lane as a kill releases it: one that waits, or is parked, gets status KILL (spec/01 R17, R30; spec/05 R137; spec/16 R327), and its
open try is discarded (spec/08 R212). -/
def Lane.killed (l : Lane) (waits : Bool) : Lane :=
  { l with tsKill := l.tsKill || waits || (l.st != .run && l.st != .exited && l.st != .trapped), spec := none }

/-- Every waiting lane of a gang is released with status KILL (spec/01 R17). -/
def releaseKilled (s : State) (gang : Nat) : State :=
  { s with lanes := s.lanes.map (fun (p : LaneId × Lane) => (p.1, if p.1.gang = gang then p.2.killed (s.blocked.contains p.1) else p.2)) }

/-- Requests of a gang's lanes stand at Squares. -/
def gangOpen (s : State) (gang : Nat) : Bool := s.dies.any (fun d => d.2.sqq.any (fun r => r.lane.gang == gang) || d.2.setq.any (fun r => r.lane.gang == gang))

/-- The accesses of lanes that wait for XREPLAY at a Square are given up: they have not begun (spec/03 R87; spec/16 R329). -/
def Die.forsake (x : Die) (of : LaneId → Bool) : Die :=
  { x with sqq := x.sqq.filter (fun r => !(r.parked && of r.lane)), setq := x.setq.filter (fun r => !(r.parked && of r.lane)) }

/-- Lanes that exit as under a kill give up their accesses that wait for XREPLAY at a Square of any module, which then owe them nothing (spec/01 R17;
spec/03 R87; spec/20 R371, R379). -/
def forsakeLanes (s : State) (of : LaneId → Bool) : State :=
  let gone := fun (pid : Nat) => s.dies.any (fun d => d.2.sqq.any (fun r => r.parked && r.pid == pid) || d.2.setq.any (fun r => r.parked && r.pid == pid))
  { s with
    dies := s.dies.map (fun (p : Nat × Die) => (p.1, p.2.forsake of))
    lanes := s.lanes.map (fun (p : LaneId × Lane) =>
      (p.1, if of p.1 then { p.2 with pend := p.2.pend.filter (fun (x : Pend) => !x.held && !gone x.id) } else p.2)) }

/-- The request of a restored gang for its tokens leaves the queues (spec/01 R30). -/
def dropAsk (s : State) (gang : Nat) : State :=
  { s with dies := s.dies.map (fun (p : Nat × Die) => (p.1, { p.2 with admq := p.2.admq.filter (fun r => !(r.who == .gang && r.lane.gang == gang)) })) }

/-- What is left of a gang that has been killed: nothing, or its name while requests that had reached a Square are still to be performed
(spec/16 R329; spec/17 R353; spec/20 R372). -/
def clearGang (s : State) (gang : Nat) : State :=
  match s.gang? gang with
  | some g =>
    let t := removeGang s gang
    if gangOpen s gang then t.setGang gang { g with st := .ended, mxSaved := [], roadSaved := [], tokSaved := [], admSaved := [], waitTok := false, byCtxop := false } else t
  | none => s

/-- End a gang as a kill does: its waiting lanes are released with status KILL, its lanes exit without triggering, its engine work is
cancelled, its tokens and roadworks entries go (spec/20 R371, R372; spec/13 R278; spec/14 R307). A saved image of it is freed with it. -/
def killGang (s : State) (gang : Nat) : State :=
  let s := match s.gang? gang with
    | some g =>
      let cores := (List.range 4).map (4 * g.close + ·)
      cores.foldl (fun s c =>
        let s := cancelStream s c (fun k => k.lane.gang == gang)
        matrixKill s c (fun w => w.gang == gang)) s
    | none => s
  let s := (gangLanes s gang).foldl (fun s l => exitLane s l false) (releaseKilled (dropAsk s gang) gang)
  clearGang { s with dies := s.dies.map (fun (p : Nat × Die) => (p.1, p.2.forsake (fun k => k.gang == gang))) } gang

/-- End a grid with a status: by a cause of kind E or TRET.endr (ST 1), or by a kill (ST 2) (spec/20 R365, R371, R372, R379). Where a cause
finds a save in progress, that save completes first (spec/20 R373). -/
def endGrid (s : State) (gk st : Nat) (c : Cause) : State :=
  match s.grid? gk with
  | none => s
  | some g =>
    if g.done then s
    else
      let s := s.setGrid gk { g with ended := g.ended <|> some (st, c), next := g.ngang, retired := g.ngang }
      let gs := (s.gangs.filter (fun p => p.2.grid == gk && p.2.st != .ended && (st == 2 || p.2.st != .saving))).map Prod.fst
      finishGrid (gs.foldl killGang s) gk

/-- A gang that occupies its close. -/
def Gang.onClose (g : Gang) : Bool :=
  match g.st with
  | .placed => true
  | .draining _ => true
  | .saving => true
  | _ => false

/-- A gang whose lanes run: a restored one does not before its tokens are granted (spec/01 R30). -/
def gangRuns (s : State) (gang : Nat) : Bool :=
  match s.gang? gang with | some g => (match g.st with | .placed => !g.waitTok | .draining _ => !g.waitTok | _ => false) | none => false

/-- A restored gang whose request for tokens is not granted yet: its lanes are in long wait for admission (spec/01 R29, R30; spec/03 R64). -/
def gangWaits (s : State) (gang : Nat) : Bool := match s.gang? gang with | some g => g.onClose && g.waitTok | none => false

/-- A gang whose engine work goes on: while it is placed, and until its save is written (spec/13 R277). -/
def gangWorks (s : State) (gang : Nat) : Bool := match s.gang? gang with | some g => g.onClose && !g.waitTok | none => false

/-- The grid of a gang. -/
def gangGrid (s : State) (gang : Nat) : Nat := match s.gang? gang with | some g => g.grid | none => 0

end Sys2Proof.Machine
end

