-- ==== Sys2Proof/Machine/Ops.lean ====
section
/-! DEFINITION. Taking an exception and returning from one (spec/03 R83 to R86, R39; spec/08 R433; spec/20 R374 to R380), the
rechecks of masks and barriers (R78, R122, R134, R136), the abort of a try (spec/08 R208) and the
scheme by which the lanes of a bundle perform an instruction (spec/02 R57; spec/03 R83, R89). -/

namespace Sys2Proof.Machine

/-! ### Trap records (spec/08 R191, R433) -/

/-- What a trap carries beside its cause. -/
structure TrapInfo where
  cause : Cause
  xaddr : Addr
  xinfo : Word
  perLane : Option Addr         -- this lane's address, when the access had per-lane addresses
  level : Nat                   -- walk level, 0xFF when no walk decided it
  malformed : Bool
  attempts : Nat
  under : Cause
  deriving DecidableEq, Repr

/-- A trap with no detail (R376). -/
def TrapInfo.plain (c : Cause) (xinfo : Word) : TrapInfo :=
  { cause := c, xaddr := 0, xinfo := xinfo, perLane := none, level := 0xFF, malformed := false, attempts := 0, under := c }

/-- The lane engine's fault record, with its continuation entries (R433); the answer holds the record's sequence number. -/
def faultRecord (s : State) (w : WarpId) (pc : Addr) (lanes : Word) (exited : Bool) (t : TrapInfo) (addrs : List (Nat × Addr)) :
    State × Nat :=
  let core := match s.group? (WarpId.grp w) with | some g => g.core | none => 0
  let d := dieOf core
  let ctx := gangCtx s w.gang
  let idx := match s.gang? w.gang with | some g => g.index | none => 0
  let u := Source.lane core
  let seq := nextSeq s u
  let sealed := ctxKeyId s ctx != 0
  let hidden : List (Nat × Nat) := [(0x90, 8), (0x9C, 4), (0xA8, 8)]
  let def_ := flg t.xinfo 16
  let more := !addrs.isEmpty
  let flags := b2n def_ + 2 * b2n exited + 4 * b2n sealed + 8 * b2n t.malformed + 16 * b2n more
  let r := sealRecord s ctx (mkRecord s u 0x12
    [(0x90, 8, pc.toNat), (0x98, 1, t.cause.code), (0x99, 1, ctx), (0x9A, 1, flags), (0x9B, 1, t.level), (0x9C, 4, lanes.toNat),
      (0xA0, 4, idx), (0xA4, 1, w.group), (0xA5, 1, w.warp), (0xA8, 8, t.xaddr.toNat), (0xB0, 4, t.xinfo.toNat), (0xB4, 1, t.attempts),
      (0xB8, 1, t.under.code)]) hidden 0xC0
  let s := bumpSeq s u
  let conts := if more then List.range 4 else []
  let (s, rs) := conts.foldl (fun (a : State × List Record) j =>
    let fs := (List.range 10).map (fun k => ((0xA0 + 8 * k, 8, ((addrs.find? (fun p => p.1 == 10 * j + k)).map (fun p => p.2.toNat)).getD 0) : RField))
    let c := sealRecord a.1 ctx (mkRecord a.1 u 0x13 ([(0x90, 8, seq), (0x98, 1, 10 * j)] ++ fs)) [(0xA0, 80)] 0xF0
    (bumpSeq a.1 u, a.2 ++ [c])) (s, [r])
  let s := toRing { s with recs := s.recs ++ rs } d rs
  let text := sealText r hidden 0xC0 ++ (rs.drop 1).flatMap (fun c => sealText c [(0xA0, 80)] 0xF0)
  ((if sealed then sealCount s d ctx text rs.length false else s), seq)

/-! ### Taking an exception: parked sub-warps (spec/03 R83) and the handler (R85, spec/20 R374) -/

/-- Whether a lane runs the trap handler (spec/20 R374). -/
def Lane.inHandler (l : Lane) : Bool := l.hx.isSome

/-- The x registers of a lane: in handler mode those of its trap, else what only the debugger reaches (spec/20 R375; spec/21 R383). -/
def Lane.handler (l : Lane) : Handler := l.hx.getD l.xout

/-- Change the x registers of a lane. -/
def Lane.setHandler (l : Lane) (f : Handler → Handler) : Lane :=
  match l.hx with
  | some h => { l with hx := some (f h) }
  | none => { l with xout := f l.xout }

/-- The lane leaves handler mode, and its x registers stay as they are: the model's choice, which the debugger alone sees (spec/20 R375, spec/21 R383;
log 31). -/
def Lane.outOfHandler (l : Lane) : Lane := { l with hx := none, xout := l.handler }

/-- The x registers that a sub-warp sets (spec/20 R375). -/
def SubWarp.regs (u : SubWarp) : Handler :=
  { cause := BitVec.ofNat 6 u.cause.code, pc := u.pc, addr := u.xaddr, mask := u.mask, info := u.xinfo, len := u.len, seq := u.seq, orig := u.cause
    cmp := [] }

/-- Lanes of one warp with one cause form a parked sub-warp at `pc` (R83): the fault record is written (R433) and the lanes are
trap-parked; one that was granted a token does not hold it on (spec/01 R28), and a debugger's step of one ends (spec/21 R388). Its x registers show
the sub-warp's to the debugger from then on, the model's choice (spec/21 R389; log 31). The sub-warp has one xinfo: where its lanes differ in it, as in the
flags of FP_TRAP (spec/04 R108), the lowest lane's is taken, the model's choice (log 4). A trap drops the handler's step request for its
lanes (spec/21 R390; log 31). A lane in handler mode ends its grid instead (spec/20 R374). -/
def parkSub (s : State) (w : WarpId) (pc : Addr) (len : Nat) (ts : List (Nat × TrapInfo)) : State :=
  match ts, s.warp? w with
  | (_, t) :: _, some x =>
    let lanes := ts.map Prod.fst
    let mask := maskOf lanes
    let addrs := ts.filterMap (fun p => p.2.perLane.map (fun a => (p.1, a)))
    let handler := lanes.any (fun i => match s.lane? ⟨w.gang, w.group, w.warp, i⟩ with | some l => l.inHandler | none => false)
    let (s, seq) := faultRecord s w pc mask false t addrs
    if handler then
      let gk := gangGrid s w.gang
      let s := match s.grid? gk with | some g => s.setGrid gk { g with orig := g.orig <|> some t.cause } | none => s
      endGrid s gk 1 .handlerFault
    else
      let x := match s.warp? w with | some y => y | none => x
      let sub : SubWarp := { pc := pc, mask := mask, cause := t.cause, xaddr := t.xaddr, xinfo := t.xinfo, len := len, seq := seq, delivered := false }
      let s := s.setWarp w { x with subs := x.subs ++ [sub] }
      lanes.foldl (fun s i =>
        let k : LaneId := ⟨w.gang, w.group, w.warp, i⟩
        match s.lane? k with
        | some l =>
          let core := laneCore s k
          let s := if l.token = 0 then s else releaseUnits (dropRoads s core false (laneOwner k)) core l.token
          s.setLane k { l with st := .trapped, pc := pc, token := 0, stepTrap := false, stepDue := false, stepping := false, xout := sub.regs }
        | none => s) s
  | _, _ => s

/-- The distinct warps of lanes, in order of first appearance. -/
def warpsOf (ls : List LaneId) : List WarpId := (ls.map LaneId.wid).firsts

/-- The traps raised at one PC by the lanes of a bundle form one sub-warp per warp and cause (R83). -/
def formTraps (s : State) (pc : Addr) (len : Nat) (ts : List (LaneId × TrapInfo)) : State :=
  (warpsOf (ts.map Prod.fst)).foldl (fun s w =>
    let mine := ts.filter (fun p => LaneId.wid p.1 == w)
    let causes := (mine.map (fun p => p.2.cause)).firsts
    causes.foldl (fun s c =>
      parkSub s w pc len ((mine.filter (fun p => p.2.cause == c)).map (fun p => (p.1.lane, p.2)))) s) s

/-- The lanes of a sub-warp start the handler at VECTOR: xcause, xpc, xaddr, xmask, xinfo and XLEN are set from it, their registers,
full/empty bits and masks stand, and they run in handler mode (R85; spec/20 R374). `watch` gives the WATCHDOG form (R377). A lane whose try was
rolled back while it was parked has the abort's target for xpc, and no instruction to pass over (spec/08 R208; log 27). -/
def deliverTrap (s : State) (w : WarpId) (u : SubWarp) (watch : Bool) : State :=
  let ctx := gangCtx s w.gang
  let vector := s.mreg ⟨.vector, ctx, 0⟩
  let cause := if watch then Cause.watchdog else u.cause
  let info := if watch then BitVec.ofNat 32 u.cause.code else setFld u.xinfo 31 31 0
  let h : Handler := { u.regs with cause := BitVec.ofNat 6 cause.code, info := info }
  let s := match s.warp? w with
    | some x => s.setWarp w { x with subs := x.subs.map (fun v => if v.seq = u.seq then { v with delivered := true } else v) }
    | none => s
  (setBits 32 u.mask).foldl (fun s i =>
    let k : LaneId := ⟨w.gang, w.group, w.warp, i⟩
    match s.lane? k with
    | some l =>
      let cmp := if u.cause == .breakpoint && flg u.xinfo 8 then l.cmpSkip ++ [fld u.xinfo 11 9] else []
      let h := { h with pc := l.pc, len := if l.pc = u.pc then u.len else 0, cmp := cmp }
      s.setLane k { l with st := .run, pc := vector, hx := some h, cmpSkip := [] }
    | none => s) s

/-- Sub-warps whose lanes have all left handler mode are gone (spec/20 R379). -/
def clearSubs (s : State) (w : WarpId) : State :=
  match s.warp? w with
  | some x =>
    s.setWarp w { x with subs := x.subs.filter (fun u =>
      !u.delivered || (setBits 32 u.mask).any (fun i =>
        match s.lane? ⟨w.gang, w.group, w.warp, i⟩ with
        | some l => (match l.hx with | some h => h.seq == u.seq | none => false)
        | none => false)) }
  | none => s

/-- Return from the exception: the lane leaves handler mode at `pc`, where the end check applies (spec/20 R379; spec/03 R86; spec/05
R130). -/
def Lane.leaveHandler (l : Lane) (pc : Addr) (step : Bool) (skip : List Nat) : Lane :=
  { (l.outOfHandler.goto pc) with stepTrap := step, cmpSkip := skip }

/-! ### Rechecks (spec/03 R77 to R79; spec/05 R122, R125, R134, R136) -/

/-- The lanes of a warp with their state, ascending. -/
def warpLanes (s : State) (w : WarpId) : List (Nat × Lane) :=
  (List.range 32).filterMap (fun i => (s.lane? ⟨w.gang, w.group, w.warp, i⟩).map (fun l => (i, l)))

/-- The length of the instruction at a PC of a warp: as filled, else as its first byte gives it (spec/02 R36, R38); 0 where that byte
cannot be fetched. -/
def lenAt (s : State) (w : WarpId) (pc : Addr) : Nat :=
  let g := s.group? (WarpId.grp w)
  let core := match g with | some x => x.core | none => 0
  match mfind (s.core core).icache (gangCtx s w.gang, pc) with
  | some (.word _ n) => n
  | some (.fault _ _ n) => n
  | none =>
    match vread s (dieOf core) (gangCtx s w.gang) pc 1 .fetch with
    | (_, .bytes (b :: _) _ _) => lengthOf b
    | _ => 0

/-- Traps raised by parked lanes, one sub-warp per PC, cause and detail. -/
def trapParked (s : State) (w : WarpId) (ls : List (Nat × Lane)) (t : Lane → TrapInfo) : State :=
  ((ls.map (fun p => p.2.pc)).firsts).foldl (fun s pc =>
    let here := ls.filter (fun p => p.2.pc == pc)
    ((here.map (fun p => ((t p.2).cause, (t p.2).xinfo))).firsts).foldl (fun s c =>
      parkSub s w pc (lenAt s w pc) ((here.filter (fun p => ((t p.2).cause, (t p.2).xinfo) == c)).map (fun p => (p.1, t p.2)))) s) s

/-- Release lanes: each goes on where its own wait said. -/
def release (s : State) (ls : List (LaneId × Addr)) : State :=
  ls.foldl (fun s p =>
    match s.lane? p.1 with
    | some l => s.setLane p.1 (({ l with st := .run } : Lane).goto p.2)
    | none => s) s

/-- A lane that is parked at a mask, a collective or a barrier (spec/03 R64). -/
def TState.parked : TState → Bool
  | .waitm _ _ | .coll _ | .barg _ _ | .barn _ _ => true
  | _ => false

/-- Parked at a collective. -/
def TState.atColl : TState → Bool
  | .coll _ => true
  | _ => false

/-- Parked at WAITM on mask `m`. -/
def TState.waitsOn (m : Nat) : TState → Bool
  | .waitm k _ => k == m
  | _ => false

/-- Recheck every WAITM of a warp (R78, R122): a parked lane whose bit is clear raises MASK_MISMATCH; a mask all of whose lanes are
parked on it releases them, once the writes of their Square operations are applied at their die (R126). -/
def recheckWaits (s : State) (w : WarpId) : State :=
  (List.range 12).foldl (fun s m =>
    match s.warp? w with
    | none => s
    | some x =>
      let mask := x.masks.getD m 0#32
      let parked := (warpLanes s w).filter (fun p => p.2.st.waitsOn m)
      let bad := parked.filter (fun p => !flg mask p.1)
      let s := if bad.isEmpty then s else trapParked s w bad (fun _ => TrapInfo.plain .maskMismatch 0)
      let good := parked.filter (fun p => flg mask p.1)
      if good.isEmpty ∨ (setBits 32 mask).any (fun i =>
          !good.any (fun p => p.1 == i && !p.2.stopped) || outstanding s ⟨w.gang, w.group, w.warp, i⟩) then s
      else
        release (drainTo s (groupDie s (WarpId.grp w)))
          (good.filterMap (fun p => match p.2.st with | .waitm _ n => some (⟨w.gang, w.group, w.warp, p.1⟩, n) | _ => none))) s

/-- The lanes of a warp that are parked at collectives, debug-stopped ones apart (spec/21 R386). -/
def collLanes (s : State) (w : WarpId) : List (Nat × Lane) := (warpLanes s w).filter (fun p => p.2.st.atColl && !p.2.stopped)

/-- The bundles that the parked lanes of a warp would form at its collectives: one for each PC, of its own warp only (R79). -/
def collBundles (s : State) (w : WarpId) (x : Warp) : List Bundle :=
  let ls := collLanes s w
  let core := match s.group? (WarpId.grp w) with | some g => g.core | none => 0
  ((ls.map (fun p => p.2.pc)).firsts).map (fun pc =>
    { core := core, part := x.slot % 4, gang := w.gang, group := w.group, pc := pc, len := 0
      lanes := (ls.filter (fun p => p.2.pc == pc)).map (fun p => ⟨w.gang, w.group, w.warp, p.1⟩) })

/-- The unexited lanes of a gang with their state. -/
def liveLanes (s : State) (gang : Nat) : List (LaneId × Lane) :=
  s.lanes.filter (fun p => p.1.gang == gang && p.2.st != .exited)

/-- Parked at a group barrier. -/
def TState.atBarg : TState → Bool
  | .barg _ _ => true
  | _ => false

/-- The barrier at which a lane is parked: false and the id for BARG, true and the id for BARN. -/
def TState.barrier : TState → Option (Bool × Nat × Addr)
  | .barg id n => some (false, id, n)
  | .barn id n => some (true, id, n)
  | _ => none

/-- The detail of BARRIER_MISMATCH raised in a parked lane (R136). -/
def barrierInfo (st : TState) : TrapInfo :=
  match st.barrier with
  | some (n, id, _) => TrapInfo.plain .barrierMismatch (BitVec.ofNat 32 (id % 8 + 8 * b2n n))
  | none => TrapInfo.plain .barrierMismatch 0

/-- All lanes are parked at one barrier, none debug-stopped, their Square operations performed (R134, R135; spec/21 R386). -/
def barrierMet (s : State) (ls : List (LaneId × Lane)) (n : Bool) : Bool :=
  match ls with
  | [] => false
  | (_, l) :: _ =>
    match l.st.barrier with
    | some (k, id, _) =>
      k == n && ls.all (fun p => (match p.2.st.barrier with | some (k', id', _) => k' == k && id' == id | none => false) &&
        !p.2.stopped && !outstanding s p.1)
    | none => false

/-- Whether lanes are parked at one barrier whatever else holds it up. -/
def barrierSame (ls : List (LaneId × Lane)) (n : Bool) : Bool :=
  match ls with
  | [] => false
  | (_, l) :: _ =>
    match l.st.barrier with
    | some (k, id, _) => k == n && ls.all (fun p => match p.2.st.barrier with | some (k', id', _) => k' == k && id' == id | none => false)
    | none => false

/-- Release lanes parked at barriers, once the writes of their Square operations are applied at the gang's die (R134, R135). -/
def releaseBar (s : State) (gang : Nat) (ls : List (LaneId × Lane)) : State :=
  release (match s.gang? gang with | some x => drainTo s x.die | none => s) (ls.filterMap (fun p => p.2.st.barrier.map (fun b => (p.1, b.2.2))))

/-- Raise BARRIER_MISMATCH in every lane given (R136). -/
def mismatch (s : State) (ls : List (LaneId × Lane)) : State :=
  (warpsOf (ls.map Prod.fst)).foldl (fun s w =>
    trapParked s w ((ls.filter (fun p => LaneId.wid p.1 == w)).map (fun p => (p.1.lane, p.2))) (fun l => barrierInfo l.st)) s

/-- Recheck the barriers of a gang (R134, R136). -/
def recheckBars (s : State) (gang : Nat) : State :=
  let s := (gangGroups s gang).foldl (fun s g =>
    let ls := (liveLanes s gang).filter (fun p => LaneId.grp p.1 == g)
    if barrierMet s ls false then releaseBar s gang ls
    else if ls ≠ [] ∧ ls.all (fun p => p.2.st.atBarg) ∧ !barrierSame ls false then mismatch s ls
    else s) s
  let ls := liveLanes s gang
  if barrierMet s ls true then releaseBar s gang ls
  else if ls ≠ [] ∧ ls.all (fun p => p.2.st.barrier.isSome) ∧ !barrierSame ls true ∧
      !(gangGroups s gang).any (fun g => barrierSame (ls.filter (fun p => LaneId.grp p.1 == g)) false) then mismatch s ls
  else s

/-- Recheck the barriers, waits and collectives of a gang, and the triggers of its exited lanes. -/
def recheckGang (s : State) (gang : Nat) : State :=
  let ws := (s.warps.map Prod.fst).filter (fun w => w.gang == gang)
  (gangLanes s gang).foldl lateTrigger (recheckBars (ws.foldl recheckWaits s) gang)

/-- Exit lanes that execute or suffer an exit, and recheck what waited for them (R77, R120, R134). -/
def exitLanes (s : State) (ls : List LaneId) (trig : Bool) : State :=
  let s := ls.foldl (fun s l => exitLane s l trig) s
  let s := (warpsOf ls).foldl (fun s w => clearSubs (recheckWaits s w) w) s
  ((ls.map (·.gang)).firsts).foldl recheckBars s

/-! ### The abort of a try (spec/08 R207, R208) -/

/-- Roll one lane back (R208): its own registers, loops, counters and flags; its PC becomes the abort target, where it goes on outside
handler mode. A trap-parked lane keeps its place in its sub-warp, which it leaves only by TRET or the end of its group (spec/03 R64), and its TRET
leads to the target (log 27). -/
def Lane.abort (l : Lane) (code : Nat) (user : BitVec 8) : Lane :=
  match l.spec with
  | none => l
  | some t =>
    let n := t.regs.length
    let covered := fun r => t.base ≤ r ∧ r < t.base + n
    let l := (t.regs.zipIdx).foldl (fun l p => l.setReg (t.base + p.2) p.1) l
    let cut := fun (p : Pend) =>
      { p with dst := p.dst.filter (fun r => !decide (covered r))
               vals := p.vals.map (fun vs => ((p.dst.zip vs).filter (fun (q : Nat × Word) => !decide (covered q.1))).map Prod.snd)
               inTry := false }
    let l : Lane := { l with pend := (l.pend.filter (fun (p : Pend) => p.dst.isEmpty || p.dst.any (fun r => !decide (covered r)))).map cut
                             lc := t.lcs, loops := t.loops, fflags := t.fflags, spec := none, tsCode := BitVec.ofNat 4 code, tsUser := user
                             cmpSkip := if l.st = .trapped then l.cmpSkip else [] }
    if l.st = .trapped then { l with pc := t.target } else ({ l.outOfHandler with st := .run } : Lane).goto t.target

/-- Abort the open tries of lanes and recheck their warp's masks and sub-warps (R208). -/
def abortTries (s : State) (ls : List LaneId) (code : Nat) (user : BitVec 8) : State :=
  let s := ls.foldl (fun s k =>
    match s.lane? k with
    | some l =>
      (match l.spec with
       | some t =>
         let s := s.setLane k (l.abort code user)
         (match s.warp? (LaneId.wid k) with
          | some w =>
            let put := fun (m : Word) (b : Bool) => if b then m ||| (1#32 <<< k.lane) else m &&& ~~~(1#32 <<< k.lane)
            s.setWarp (LaneId.wid k) { w with masks := w.masks.zipIdx.map (fun p => if p.2 = 0 then p.1 else put p.1 (t.masks.getD p.2 false)) }
          | none => s)
       | none => s)
    | none => s) s
  (warpsOf ls).foldl (fun s w => clearSubs (recheckWaits s w) w) s

/-- Lanes found not to issue: they wait, or their try aborted before the issue (spec/08 R206; spec/07 R180). -/
def notIssued (s : State) (ls : List LaneId) : State := { s with blocked := ls ++ s.blocked }

/-! ### The lanes of a bundle (spec/02 R57; spec/03 R83, R89) -/

/-- What one lane's attempt at an instruction comes to. -/
inductive LaneOut where
  | ok (s : State)                             -- the lane has performed it
  | trap (t : TrapInfo)                        -- it raises a trap and writes nothing
  | trapWith (s : State) (t : TrapInfo)        -- the same, with flags left raised (spec/04 R108)
  | wait                                       -- it is not ready
  | abort (s : State) (code : Nat) (user : BitVec 8)   -- its try aborts (spec/08 R207)
  | park (f : FbInfo) (dst : List Nat)         -- a replayable fault: it parks, or its try aborts, and the fault is posted (R87, R207)
  | adm (s : State)                            -- it waits for an admission token: of `s` only the dies are kept (spec/01 R29)
  deriving DecidableEq, Repr

/-- The turns taken so far: the state, the traps and the replayable faults. -/
structure Turns where
  s : State
  traps : List (LaneId × TrapInfo)
  posts : List (LaneId × FbInfo)
  deriving DecidableEq, Repr

/-- One lane's turn: its effect, or its trap noted, or its wait. -/
def laneTurn (f : LaneId → Lane → State → LaneOut) (a : Turns) (k : LaneId) : Turns :=
  match a.s.lane? k with
  | none => a
  | some l =>
    match f k l a.s with
    | .ok s => { a with s := s }
    | .trap t => { a with traps := a.traps ++ [(k, t)] }
    | .trapWith s t => { a with s := s, traps := a.traps ++ [(k, t)] }
    | .wait => { a with s := { a.s with blocked := k :: a.s.blocked } }
    | .abort s code user =>
      let s := abortTries s [k] code user
      { a with s := if code = 4 then notIssued s [k] else s }
    | .adm t => { a with s := ({ a.s with dies := t.dies } : State).setLane k { l with st := .adm, token := 0 } }
    | .park p dst =>
      if l.spec.isSome then { a with s := abortTries a.s [k] 5 0, posts := a.posts ++ [(k, { p with access := p.access + 4 })] }
      else { a with s := a.s.setLane k { (l.emptyRegs dst) with st := .replay false dst }, posts := a.posts ++ [(k, p)] }

/-- The replayable faults of one bundle: the lanes whose faults fall in one 4 KiB page share an entry (spec/10 R225). Where some of them are
in a try and others are not, access bit 2 is 0: the model's choice (log 41). -/
def postAll (s : State) (ps : List (LaneId × FbInfo)) : State :=
  ((ps.map (fun p => p.2.va / 4096)).firsts).foldl (fun s page =>
    match ps.filter (fun p => p.2.va / 4096 == page) with
    | (k, f) :: r =>
      postFault s (laneDie s k) (.lane (laneCore s k))
        { f with lanes := maskOf (((k, f) :: r).map (fun p => p.1.lane)), access := r.foldl (fun a p => min a p.2.access) f.access }
    | [] => s) s

/-- The lanes of the bundle, in ascending lane order, each take their turn; then replayable faults are posted and the traps form
sub-warps (R83, R87, R89). -/
def runLanes (f : LaneId → Lane → State → LaneOut) (s : State) : State :=
  let r := s.cur.lanes.foldl (laneTurn f) { s := s, traps := [], posts := [] }
  formTraps (postAll r.s r.posts) s.cur.pc s.cur.len r.traps

/-- The address of the instruction after the one that issues. -/
def nextPc (s : State) : Addr := s.cur.pc + BitVec.ofNat 64 s.cur.len

/-- The lane goes on at the next instruction (R130). -/
def Lane.advance (l : Lane) (s : State) : Lane := l.goto (nextPc s)

end Sys2Proof.Machine
end

