-- ==== Sys2Proof/Machine/Flags.lean ====
section
/-! DEFINITION. Every computation of flags (spec/04 R92, R98, R106 to R108): the flags of an integer result, sticky accumulation, and
FP_TRAP. What the float operations raise is computed with their results in Num and Special. -/

namespace Sys2Proof.Machine

/-- fflags after raised flags are ORed in (R106). -/
def Lane.raise (l : Lane) (fl : Flags) : Lane := { l with fflags := l.fflags ||| fl }

/-- A raised flag is enabled in fcsr.TE (R108). -/
def Lane.fpTraps (l : Lane) (fl : Flags) : Bool := (l.te &&& fl) != 0

/-- The trap of R108: xinfo[5:0] holds the flags the instruction raised. -/
def fpTrap (fl : Flags) : TrapInfo := TrapInfo.plain .fpTrap (fl.setWidth 32)

/-- fcsr as a register (R107). -/
def Lane.fcsr (l : Lane) : Word := (l.te.setWidth 32 <<< 8) ||| l.rm.setWidth 32

/-- A write of fcsr (R107): RM 4 to 7 stores 0, reserved bits read 0. -/
def Lane.setFcsr (l : Lane) (v : Word) : Lane :=
  { l with te := BitVec.ofNat 6 (fld v 13 8), rm := if fld v 2 0 < 4 then BitVec.ofNat 3 (fld v 2 0) else 0 }

/-- AP is raised when an operation drops absent operands (R98). -/
def absentFlag (any : Bool) : Flags := flagIf any AP

/-- OF is raised when an integer result was clamped (R101). -/
def clampFlag (clamped : Bool) : Flags := flagIf clamped OF

end Sys2Proof.Machine
end

