-- ==== Sys2Proof/Machine/Special.lean ====
section
/-! DEFINITION. The special functions (spec/06 R162): RCP and SQRT correctly rounded; the others exact in their exact cases and
elsewhere a value the architecture leaves open, held to the stated bound (log 8). Approximations carry 96 fraction bits. -/

namespace Sys2Proof.Machine

/-- π, ln 2 and log2 e, each times 2^96. -/
def piFx : Nat := 248902613312231085230521944622
def ln2Fx : Nat := 54916777467707473351141471128
def log2eFx : Nat := 114302077158074026402637675936

/-- The product of two numbers with 96 fraction bits. -/
def fxMul (a b : Nat) : Nat := a * b / 2 ^ 96

/-- Σ t^k / k! from the k-th term on: `fuel` terms, `t` with 96 fraction bits, `term` the k-th. -/
def expSeries (t : Nat) : Nat → Nat → Nat → Nat
  | 0, _, _ => 0
  | fuel + 1, k, term => term + expSeries t fuel (k + 1) (fxMul term t / (k + 1))

/-- 2^f for a fraction f with 96 fraction bits. -/
def exp2Frac (f : Nat) : Nat := expSeries (fxMul f ln2Fx) 30 0 (2 ^ 96)

/-- The fraction bits of log2 x for x in [1, 2) with 96 fraction bits, `fuel` bits of them. -/
def log2Bits : Nat → Nat → Nat → Nat
  | 0, _, acc => acc
  | fuel + 1, x, acc =>
    let y := fxMul x x
    if 2 ^ 97 ≤ y then log2Bits fuel (y / 2) (2 * acc + 1) else log2Bits fuel y (2 * acc)

/-- Alternating Σ (−u)^k / ((2k+1)!) for sin: `u` the square, `term` the k-th magnitude. -/
def sinSeries (u : Nat) : Nat → Nat → Nat → Int
  | 0, _, _ => 0
  | fuel + 1, k, term =>
    (if k % 2 = 0 then (term : Int) else -(term : Int)) + sinSeries u fuel (k + 1) (fxMul term u / ((2 * k + 2) * (2 * k + 3)))

/-- A positive real as n × 2^e, to a relative error far below an f32 half unit. -/
abbrev Approx := Nat × Int

/-- m × 2^e with 96 fraction bits, for values below 2^32. -/
def toFx (m : Nat) (e : Int) : Nat := shiftUp m (e + 96) / shiftDn 1 (e + 96)

/-- sin(π m 2^e) for 0 < m 2^e ≤ 1/2. -/
def sinPiApprox (m : Nat) (e : Int) : Approx :=
  let t := fxMul (toFx m e) piFx
  let s := (sinSeries (fxMul t t) 16 0 (2 ^ 96)).toNat
  (m * piFx * s, e - 192)

/-- 1 / √(m 2^e). -/
def rsqApprox (m : Nat) (e : Int) : Approx :=
  let odd : Int := if e % 2 = 0 then 0 else 1
  (isqrt (2 ^ 240 / (shiftUp m odd)), -120 - (e - odd) / 2)

/-- 2^x for x = (−1)^neg × m 2^e with |x| < 400. -/
def exp2Approx (neg : Bool) (m : Nat) (e : Int) : Approx :=
  let fx : Int := if neg then -(toFx m e : Int) else toFx m e
  let i := fx / (2 ^ 96 : Nat)
  let f := (fx % (2 ^ 96 : Nat)).toNat
  (exp2Frac f, i - 96)

/-- tanh(m 2^e) for 2^−12 ≤ m 2^e < 16: (E − 1) / (E + 1) with E = e^(2x). -/
def tanhApprox (m : Nat) (e : Int) : Approx :=
  let (n, k) := exp2Approx false (m * log2eFx) (e + 1 - 96)
  let en := shiftUp n (k + 96) / shiftDn 1 (k + 96)
  ((en - 2 ^ 96) * 2 ^ 96 / (en + 2 ^ 96), -96)

/-- tanh x = x (1 − x²/3 + 2x⁴/15) for small x. -/
def tanhSmall (m : Nat) (e : Int) : Approx :=
  let u := fxMul (toFx m e) (toFx m e)
  (m * (2 ^ 96 - u / 3 + 2 * fxMul u u / 15), e - 96)

/-- The exponent of the unit in the last place of f32 at n × 2^e. -/
def ulpExp (n : Nat) (e : Int) : Int := max (flog2 (max n 1) 1 + e - 23) (-149)

/-- The flags of an open result beside overflow: inexact always, and underflow where the value before rounding is tiny (R162, R92): the bits
lie below the least normal f32, or are the rounding `r` of a tiny value. -/
def openFlags (mode : RMode) (neg : Bool) (v : Approx) (r c : Nat) : Flags :=
  NX ||| flagIf (decide (c % 2 ^ 31 < 2 ^ 23) || (c == r && tinyAfter (ffmt .f32) mode neg v.1 1 v.2)) UF

/-- The architecture's open value near (−1)^neg × n × 2^e: the device's own bits when they are within `tol` × 2^`te` of it, else the
nearest f32 (R162, log 8). Overflow, underflow and SAT are judged on the value before rounding. -/
def openValue (fn : SpecialFn) (x : Word) (mode : RMode) (sat neg : Bool) (v : Approx) (tol : Nat) (te : Int) : Nat × Flags :=
  let (r, fl) := roundF (ffmt .f32) mode sat (.num neg v.1 1 v.2)
  if fl &&& OF ≠ 0 then (r, fl ||| NX)
  else
    let c := Config.special fn x % 2 ^ 32
    match fval .f32 c with
    | .fin cn cm ce =>
      let k := min (min ce v.2) (te - 20)
      let d := sumAt k [.fin cn cm ce, .fin (!neg) v.1 v.2]
      if d.natAbs + shiftUp 1 (te - 20 - k) ≤ tol * shiftUp 1 (te - k) then (c, openFlags mode neg v r c)
      else (r, openFlags mode neg v r r)
    | _ => (r, openFlags mode neg v r r)

/-- Within `tol` units in the last place. -/
def openUlps (fn : SpecialFn) (x : Word) (mode : RMode) (sat neg : Bool) (v : Approx) (tol : Nat) : Nat × Flags :=
  openValue fn x mode sat neg v tol (ulpExp v.1 v.2)

/-- An exact result rounded once, with further flags. -/
def exactResult (mode : RMode) (sat : Bool) (x : Ex) (fl : Flags) : Nat × Flags :=
  let (r, f) := roundF (ffmt .f32) mode sat x
  (r, f ||| fl)

/-- m × 2^e in lowest terms: the odd part and its exponent, for m > 0; `fuel` bounds the trailing zeros. -/
def oddPart : Nat → Nat → Int → Nat × Int
  | 0, m, e => (m, e)
  | fuel + 1, m, e => if m % 2 = 0 then oddPart fuel (m / 2) (e + 1) else (m, e)

/-- RCP (R162): correctly rounded; ±0 → ±∞ with DZ. Every result outside the exact cases raises inexact, 1/2 too; underflow is raised only where the
rounding itself is tiny and inexact, so that the exact 2^−127 of ±2^127 raises inexact and no underflow, the model's choice (log 8). -/
def rcpVal (mode : RMode) (sat : Bool) (x : Nat) : Nat × Flags :=
  match fval .f32 x with
  | .absent => (absentOf .f32, 0)
  | .nan s => ((ffmt .f32).nanCode, flagIf s NV)
  | .inf n => exactResult mode sat (.zero n) 0
  | .fin n m e => if m = 0 then exactResult mode sat (.inf n) DZ else exactResult mode sat (.num n 1 m (-e)) NX

/-- SQRT (R162): correctly rounded; a negative operand gives NaN with NV. Every result outside the exact cases raises inexact, √4 too. -/
def sqrtVal (mode : RMode) (sat : Bool) (x : Nat) : Nat × Flags :=
  match fval .f32 x with
  | .absent => (absentOf .f32, 0)
  | .nan s => ((ffmt .f32).nanCode, flagIf s NV)
  | .inf n => if n then exactResult mode sat .nan NV else exactResult mode sat (.inf false) 0
  | .fin n m e =>
    if m = 0 then exactResult mode sat (.zero n) 0
    else if n then exactResult mode sat .nan NV
    else exactResult mode sat (sqrtEx m e) NX

/-- RSQ (R162): within 1 ulp; exact where 1/√A is exact. -/
def rsqVal (sat : Bool) (x : Nat) : Nat × Flags :=
  match fval .f32 x with
  | .absent => (absentOf .f32, 0)
  | .nan s => ((ffmt .f32).nanCode, flagIf s NV)
  | .inf n => if n then exactResult .rne sat .nan NV else exactResult .rne sat (.zero false) 0
  | .fin n m e =>
    if m = 0 then exactResult .rne sat (.inf n) DZ
    else if n then exactResult .rne sat .nan NV
    else openUlps .rsq (BitVec.ofNat 32 x) .rne sat false (rsqApprox m e) 1

/-- EXP2 (R162): integer operands exact, elsewhere within 2 ulp. -/
def exp2Val (sat : Bool) (x : Nat) : Nat × Flags :=
  match fval .f32 x with
  | .absent => (absentOf .f32, 0)
  | .nan s => ((ffmt .f32).nanCode, flagIf s NV)
  | .inf n => if n then exactResult .rne sat (.zero false) 0 else exactResult .rne sat (.inf false) 0
  | .fin n m e =>
    if m = 0 then exactResult .rne sat (.num false 1 1 0) 0
    else
      let (o, k) := oddPart 24 m e
      let big : Bool := 9 ≤ flog2 o 1 + k
      let i : Int := if big then 512 else shiftUp o k
      if 0 ≤ k then exactResult .rne sat (.num false 1 1 (if n then -i else i)) 0
      else openUlps .exp2 (BitVec.ofNat 32 x) .rne sat false (exp2Approx n o k) 2

/-- LOG2 (R162): 2^n → n; within 2 ulp, and within 2^−22 for operands in [0.5, 2]. That the absolute bound takes the place of the 2 ulp there, and does
not stand beside it, is the model's choice (log 8). -/
def log2Val (sat : Bool) (x : Nat) : Nat × Flags :=
  match fval .f32 x with
  | .absent => (absentOf .f32, 0)
  | .nan s => ((ffmt .f32).nanCode, flagIf s NV)
  | .inf n => if n then exactResult .rne sat .nan NV else exactResult .rne sat (.inf false) 0
  | .fin n m e =>
    if m = 0 then exactResult .rne sat (.inf true) DZ
    else if n then exactResult .rne sat .nan NV
    else
      let l := flog2 m 1
      let i := l + e
      if m = 2 ^ l.toNat then exactResult .rne sat (exOfInt i) 0
      else
        let f := log2Bits 80 (toFx m (-l)) 0
        let t : Int := i * (2 ^ 80 : Nat) + f
        let v : Approx := (t.natAbs, -80)
        if -1 ≤ i ∧ i ≤ 0 then openValue .log2 (BitVec.ofNat 32 x) .rne sat (t < 0) v 1 (-22)
        else openUlps .log2 (BitVec.ofNat 32 x) .rne sat (t < 0) v 2

/-- |A| modulo 2 as a multiple of 2^e', e' ≤ 0: (numerator, exponent). -/
def mod2 (m : Nat) (e : Int) : Nat × Int := if 1 ≤ e then (0, 0) else (m % 2 ^ (1 - e).toNat, e)

/-- sin(π r) for r = m × 2^e in [0, 2), e ≤ 0: its sign, and none where it is 0 or ±1 with the value. -/
inductive SinR where
  | exact (v : Int)
  | near (neg : Bool) (v : Approx)
  deriving DecidableEq, Repr

def sinR (m : Nat) (e : Int) : SinR :=
  let one := 2 ^ (-e).toNat
  let neg := one ≤ m
  let r := m % one
  let r' := min r (one - r)
  if r' = 0 then .exact 0
  else if 2 * r' = one then .exact (if neg then -1 else 1)
  else .near neg (sinPiApprox r' e)

/-- SINPI (R162). -/
def sinpiVal (sat : Bool) (x : Nat) : Nat × Flags :=
  match fval .f32 x with
  | .absent => (absentOf .f32, 0)
  | .nan s => ((ffmt .f32).nanCode, flagIf s NV)
  | .inf _ => exactResult .rne sat .nan NV
  | .fin n m e =>
    let (r, k) := mod2 m e
    match sinR r k with
    | .exact 0 => exactResult .rne sat (.zero n) 0
    | .exact v => exactResult .rne sat (.num ((v < 0) != n) 1 1 0) 0
    | .near g v => openUlps .sinpi (BitVec.ofNat 32 x) .rne sat (g != n) v 2

/-- COSPI (R162): cos(π r) = sin(π (r + 1/2)). -/
def cospiVal (sat : Bool) (x : Nat) : Nat × Flags :=
  match fval .f32 x with
  | .absent => (absentOf .f32, 0)
  | .nan s => ((ffmt .f32).nanCode, flagIf s NV)
  | .inf _ => exactResult .rne sat .nan NV
  | .fin _ m e =>
    let (r, k) := mod2 m e
    let k' := min k (-1)
    let r' := r * 2 ^ (k - k').toNat
    match sinR ((r' + 2 ^ (-1 - k').toNat) % 2 ^ (1 - k').toNat) k' with
    | .exact 0 => exactResult .rne sat (.zero false) 0
    | .exact v => exactResult .rne sat (.num (v < 0) 1 1 0) 0
    | .near g v => openUlps .cospi (BitVec.ofNat 32 x) .rne sat g v 2

/-- TANH (R162). -/
def tanhVal (sat : Bool) (x : Nat) : Nat × Flags :=
  match fval .f32 x with
  | .absent => (absentOf .f32, 0)
  | .nan s => ((ffmt .f32).nanCode, flagIf s NV)
  | .inf n => exactResult .rne sat (.num n 1 1 0) 0
  | .fin n m e =>
    if m = 0 then exactResult .rne sat (.zero n) 0
    else
      let l := flog2 m 1 + e
      let v : Approx := if 4 ≤ l then (2 ^ 60 - 1, -60) else if l < -12 then tanhSmall m e else tanhApprox m e
      openUlps .tanh (BitVec.ofNat 32 x) .rne sat n v 2

end Sys2Proof.Machine
end

