-- ==== Sys2Proof/Machine/AluOps.lean ====
section
/-! DEFINITION. The values of the integer, float, conversion and pixel instructions as functions of their operands (spec/06 R143 to
R164; spec/04 R95 to R112). -/

namespace Sys2Proof.Machine

/-- A result with the flags it raises. -/
abbrev Res := Nat × Flags

/-- Absent operands of an element-wise operation (R95): `ids` holds the identity of each position under `.ai`. -/
def withAbsent (t : Ty) (ai : Bool) (ids : List Nat) (ops : List Nat) (f : List Nat → Res) : Res :=
  let gone := ops.map (isAbsent t)
  if !gone.any id then f ops
  else if gone.all id then (absentOf t, 0)
  else if ai then f ((ops.zip ids).map (fun p => if isAbsent t p.1 then p.2 else p.1))
  else (absentOf t, AP)

/-- An operation on each element of a packed value (R91, R143): the results packed, the flags ORed. -/
def packed (t : Ty) (f : Nat → Res) : Res :=
  let rs := (List.range (tyCount t)).map f
  (packElems t (rs.map Prod.fst), rs.foldl (fun a r => a ||| r.2) 0)

/-! ### Integers (R143 to R149) -/

/-- Deliver an exact integer in type `t` (R143, R101). -/
def intRes (t : Ty) (x : Int) : Res :=
  if tyKind t = .raw then (intCode t x, 0)
  else
    let (c, clamped) := satInt t x
    (c, clampFlag clamped)

/-- A binary integer operation with the absent rule. -/
def intBin (t : Ty) (ai : Bool) (ids : List Nat) (f : Int → Int → Int) (a b : Nat) : Res :=
  withAbsent t ai ids [a, b] (fun xs => intRes t (f (intVal t (xs.getD 0 0)) (intVal t (xs.getD 1 0))))

/-- A unary integer operation with the absent rule. -/
def intUn (t : Ty) (f : Int → Int) (a : Nat) : Res :=
  withAbsent t false [] [a] (fun xs => intRes t (f (intVal t (xs.getD 0 0))))

/-- The codes of the greatest and least values of a type. -/
def maxCodeI (t : Ty) : Nat := intCode t (intMax t)
def minCodeI (t : Ty) : Nat := intCode t (intMin t)

/-- IMULH: bits 2w−1:w of the exact product (R144). -/
def imulhVal (t : Ty) (a b : Nat) : Res :=
  withAbsent t false [] [a, b] (fun xs =>
    (intCode t ((intVal t (xs.getD 0 0) * intVal t (xs.getD 1 0)) / (2 ^ tyWidth t : Nat)), 0))

/-- IMAD (R144). -/
def imadVal (t : Ty) (ai : Bool) (a b c : Nat) : Res :=
  withAbsent t ai [1, 1, 0] [a, b, c] (fun xs =>
    intRes t (intVal t (xs.getD 0 0) * intVal t (xs.getD 1 0) + intVal t (xs.getD 2 0)))

/-- The 64-bit type of IMADW's C and D (R144). -/
def wideTy (t : Ty) : Ty := if t = .i32 then .i64 else .n64

/-- IMADW (R144). -/
def imadwVal (t : Ty) (a b c : Nat) : Res :=
  let u := wideTy t
  let gone := [isAbsent t a, isAbsent t b, isAbsent u c]
  if gone.all id then (absentOf u, 0)
  else if gone.any id then (absentOf u, AP)
  else intRes u (intVal t a * intVal t b + intVal u c)

/-- IDIV and IREM of operands that are present, B nonzero (R144, R145). -/
def idivVal (t : Ty) (a b : Nat) : Res := intRes t (Int.tdiv (intVal t a) (intVal t b))
def iremVal (t : Ty) (a b : Nat) : Res := intRes t (Int.tmod (intVal t a) (intVal t b))

/-- A comparison of integers under CND (R53, R146). -/
def intCmp (cnd : Nat) (a b : Int) : Bool :=
  match cnd with
  | 0 => a == b
  | 1 => a != b
  | 2 => a < b
  | 3 => a ≤ b
  | 4 => b < a
  | _ => b ≤ a

/-- ISET (R146). -/
def isetVal (t : Ty) (cnd a b : Nat) : Res :=
  (b2n (!isAbsent t a && !isAbsent t b && intCmp cnd (intVal t a) (intVal t b)), 0)

/-- Shifts and rotation of `w`-bit patterns (R147). -/
def shlVal (w a n : Nat) : Nat := if w ≤ n then 0 else a * 2 ^ n % 2 ^ w
def shrVal (w a n : Nat) : Nat := if w ≤ n then 0 else a / 2 ^ n
def sarVal (w a n : Nat) : Nat := wrapInt w (sext w a / (2 ^ min n w : Nat))
def rotVal (w a n : Nat) : Nat := a * 2 ^ (n % w) % 2 ^ w + a / 2 ^ (w - n % w)

/-- The field of BFX and BFI: position and usable length (R148). -/
def bfField (w ctl : Nat) : Nat × Nat :=
  let pos := ctl % 256
  let len := ctl / 256 % 256
  if w ≤ pos then (pos, 0) else (pos, min len (w - pos))

/-- BFX (R148). -/
def bfxVal (t : Ty) (a ctl : Nat) : Nat :=
  let w := tyWidth t
  let (pos, len) := bfField w ctl
  if len = 0 then 0
  else
    let v := a / 2 ^ pos % 2 ^ len
    if tyKind t = .int then wrapInt w (sext len v) else v

/-- BFI (R148). -/
def bfiVal (w a b ctl : Nat) : Nat :=
  let (pos, len) := bfField w ctl
  if len = 0 then a else a - a / 2 ^ pos % 2 ^ len * 2 ^ pos + b % 2 ^ len * 2 ^ pos

/-- CLZ, CTZ and BREV of `w`-bit patterns (R144). -/
def clzVal (w a : Nat) : Nat := if a = 0 then w else w - 1 - Nat.log2 a
def ctzVal (w a : Nat) : Nat := ((List.range w).find? (fun i => natBit a i)).getD w
def brevVal (w a : Nat) : Nat := ((List.range w).map (fun i => b2n (natBit a (w - 1 - i)) * 2 ^ i)).foldl (· + ·) 0

/-- PRMB (R149). -/
def prmbVal (a b c : Nat) : Nat :=
  let byte := fun (i : Nat) => (a + b * 2 ^ 32) / 2 ^ (8 * i) % 256
  let pick := fun (i : Nat) =>
    let n := c / 2 ^ (4 * i) % 16
    let v := byte (n % 8)
    if n < 8 then v else if 128 ≤ v then 255 else 0
  pick 0 + pick 1 * 2 ^ 8 + pick 2 * 2 ^ 16 + pick 3 * 2 ^ 24

/-- LEA (R150). -/
def leaVal (imm ux : Bool) (sh a b : Nat) : Nat :=
  let i : Int := if ux && !imm then b else sext 32 b
  wrapInt 64 ((a : Int) + i * (2 ^ sh : Nat))

/-! ### Floats (R152 to R156) -/

/-- Round a sum or product result with its flags (R143). -/
def roundRes (t : Ty) (mode : RMode) (sat : Bool) (x : Ex) (fl : Flags) : Res :=
  let (c, f) := roundF (ffmt t) mode sat x
  (c, fl ||| f)

/-- FADD of present patterns (R143). -/
def faddPre (t : Ty) (mode : RMode) (sat : Bool) (a b : Nat) : Res :=
  let (x, fl) := sumV mode [fval t a, fval t b]
  roundRes t mode sat x fl

/-- FSUB of present patterns. -/
def fsubPre (t : Ty) (mode : RMode) (sat : Bool) (a b : Nat) : Res :=
  let (x, fl) := sumV mode [fval t a, (fval t b).negate]
  roundRes t mode sat x fl

/-- FMUL of present patterns. -/
def fmulPre (t : Ty) (mode : RMode) (sat : Bool) (a b : Nat) : Res :=
  let (x, fl) := mulV (fval t a) (fval t b)
  roundRes t mode sat x.toEx fl

/-- FFMA of present patterns: rounded once (R152). -/
def ffmaPre (t : Ty) (mode : RMode) (sat : Bool) (a b c : Nat) : Res :=
  let (p, f1) := mulV (fval t a) (fval t b)
  let (x, f2) := sumV mode [p, fval t c]
  roundRes t mode sat x (f1 ||| f2)

/-- The pattern of 1 in a float format. -/
def oneOf (t : Ty) : Nat := (ffmt t).bias * 2 ^ (ffmt t).mb

def faddVal (t : Ty) (mode : RMode) (sat ai : Bool) (a b : Nat) : Res :=
  withAbsent t ai [0, 0] [a, b] (fun xs => faddPre t mode sat (xs.getD 0 0) (xs.getD 1 0))
def fsubVal (t : Ty) (mode : RMode) (sat ai : Bool) (a b : Nat) : Res :=
  withAbsent t ai [0, 0] [a, b] (fun xs => fsubPre t mode sat (xs.getD 0 0) (xs.getD 1 0))
def fmulVal (t : Ty) (mode : RMode) (sat ai : Bool) (a b : Nat) : Res :=
  withAbsent t ai [oneOf t, oneOf t] [a, b] (fun xs => fmulPre t mode sat (xs.getD 0 0) (xs.getD 1 0))
def ffmaVal (t : Ty) (mode : RMode) (sat ai : Bool) (a b c : Nat) : Res :=
  withAbsent t ai [oneOf t, oneOf t, 0] [a, b, c] (fun xs => ffmaPre t mode sat (xs.getD 0 0) (xs.getD 1 0) (xs.getD 2 0))

/-- FMIN (`max` false) and FMAX of present patterns (R153). -/
def fminPre (t : Ty) (max : Bool) (a b : Nat) : Res :=
  let x := fval t a
  let y := fval t b
  let fl := flagIf (x.isSig || y.isSig) NV
  match x.isNan, y.isNan with
  | true, true => ((ffmt t).nanCode, fl)
  | true, false => (b, fl)
  | false, true => (a, fl)
  | false, false => (if max then (if lessV x y then b else a) else (if lessV y x then b else a), fl)

/-- The identity of a minimum or maximum (R95). -/
def fminId (t : Ty) (max : Bool) : Nat :=
  let f := ffmt t
  f.sign max + (if f.hasInf then f.infCode else f.maxCode)

def fminVal (t : Ty) (max ai : Bool) (a b : Nat) : Res :=
  withAbsent t ai [fminId t max, fminId t max] [a, b] (fun xs => fminPre t max (xs.getD 0 0) (xs.getD 1 0))

/-- FABS and FNEG (R93, R152). -/
def fsignVal (t : Ty) (neg : Bool) (a : Nat) : Res :=
  let f := ffmt t
  let half := 2 ^ (f.eb + f.mb)
  match fval t a with
  | .absent => (absentOf t, 0)
  | .nan sg => (f.nanCode, flagIf sg NV)
  | _ => (if neg then (if natBit a (f.eb + f.mb) then a % half else a + half) else a % half, 0)

/-- FSET (R154). -/
def fsetVal (t : Ty) (cnd a b : Nat) : Res :=
  match fval t a, fval t b with
  | .absent, _ => (0, 0)
  | _, .absent => (0, 0)
  | x, y =>
    let nan := x.isNan || y.isNan
    let sig := x.isSig || y.isSig
    let c := cmpV x y
    match cnd with
    | 0 => (b2n (!nan && c == 0), flagIf sig NV)
    | 1 => (b2n (nan || c != 0), flagIf sig NV)
    | 2 => (b2n (!nan && c < 0), flagIf nan NV)
    | 3 => (b2n (!nan && c ≤ 0), flagIf nan NV)
    | 4 => (b2n (!nan && 0 < c), flagIf nan NV)
    | 5 => (b2n (!nan && 0 ≤ c), flagIf nan NV)
    | 6 => (b2n (!nan), flagIf sig NV)
    | _ => (b2n nan, flagIf sig NV)

/-- FCLASS (R155). -/
def fclassVal (t : Ty) (a : Nat) : Nat :=
  match fval t a with
  | .inf n => if n then 2 ^ 0 else 2 ^ 7
  | .nan sg => if sg then 2 ^ 8 else 2 ^ 9
  | .absent => 2 ^ 10
  | .fin n m _ =>
    if m = 0 then (if n then 2 ^ 3 else 2 ^ 4)
    else if m < 2 ^ (ffmt t).mb then (if n then 2 ^ 2 else 2 ^ 5)
    else (if n then 2 ^ 1 else 2 ^ 6)

/-- FDOT2 (R156, R97). -/
def fdot2Val (t : Ty) (mode : RMode) (sat : Bool) (a b c : Nat) : Res :=
  let e := tyElem t
  let ps := ((List.range 2).filter (fun i => !isAbsent e (elemOf t i a) && !isAbsent e (elemOf t i b))).map
    (fun i => mulV (fval e (elemOf t i a)) (fval e (elemOf t i b)))
  let cs := if isAbsent .f32 c then [] else [fval .f32 c]
  if ps.isEmpty ∧ cs.isEmpty then (absentOf .f32, 0)
  else
    let (x, fl) := sumV mode (ps.map Prod.fst ++ cs)
    roundRes .f32 mode sat x (ps.foldl (fun f p => f ||| p.2) fl)

/-! ### Scaling (R109, R112, R161) -/

/-- BEXP's block exponent for the elements of type `t` (R109): `p` is the clip fraction, `target` the target's code. -/
def bexpVal (t : Ty) (xs : List Nat) (p target : Nat) : Nat :=
  let emax : Int := match target with | 0 => 8 | 1 => 15 | _ => 6
  let es := xs.filterMap (fun x => match fval t x with
    | .fin _ m e => if m = 0 then none else some (flog2 m 1 + e)
    | _ => none)
  if es.isEmpty then 0xFF
  else
    let need := ceilDiv (es.length * p) 64
    let sorted := es.mergeSort (fun a b => a ≤ b)
    (clampInt (-127) 127 (sorted.getD (need - 1) 0 - emax) + 127).toNat

/-- The largest finite value of a target type as numerator times 2^exponent (R112, R159). -/
def targetMax : Ty → Nat × Int
  | .i8 => (127, 0)
  | t => match fval t (ffmt t).maxCode with | .fin _ m e => (m, e) | _ => (1, 0)

/-- AMXGET's scale exponent for a record (R112). -/
def amxScale (r : ScaleRec) (t : Ty) : Int :=
  let vs := (r.ent.drop 0).zipIdx.filterMap (fun p =>
    if (r.wi + 16 - 1 - p.2) % 16 < r.v then some (fval .f32 p.1.toNat) else none)
  if vs.any (fun v => v == .inf false) then -127
  else
    let k := minExp vs 0
    let m := vs.foldl (fun a v => max a (sumAt k [v]).toNat) 0
    if r.v = 0 then 0
    else if m = 0 then 127
    else
      let (n, e) := targetMax t
      -- the largest j with m × 2^(k + j) ≤ n × 2^e
      let q := e - k
      let j := flog2 (shiftUp n q) (shiftDn m q)
      clampInt (-127) 127 j

/-- The f32 pattern of 2^j for −127 ≤ j ≤ 127. -/
def pow2F32 (j : Int) : Nat := if j = -127 then 2 ^ 22 else (j + 127).toNat * 2 ^ 23

/-- ABSENT's test mask and make form (R161). -/
def absentTest (t : Ty) (a : Nat) : Nat :=
  ((List.range (tyCount t)).map (fun i => b2n (isAbsent (tyElem t) (elemOf t i a)) * 2 ^ i)).foldl (· + ·) 0
def absentMake (t : Ty) (a m : Nat) : Nat :=
  packElems t ((List.range (tyCount t)).map (fun i => if natBit m i then absentOf (tyElem t) else elemOf t i a))

/-! ### Pixels (R163, R164) -/

/-- An element-wise pixel operation with the absent rule (R143, R163). -/
def pixBin (ai : Bool) (ids : List Nat) (f : Int → Int → Int) (a b : Nat) : Res :=
  packed .px2 (fun i => intBin .n16 ai ids f (elemOf .px2 i a) (elemOf .px2 i b))

/-- PAVG and PABD: under `.ai` an absent pixel takes the other's value (R95, R163). -/
def pixPair (ai : Bool) (f : Int → Int → Int) (a b : Nat) : Res :=
  packed .px2 (fun i =>
    let x := elemOf .px2 i a
    let y := elemOf .px2 i b
    intBin .n16 ai [y, x] f x y)

/-- PSAD (R164). -/
def psadVal (a b c : Nat) : Res :=
  let ps := (List.range 2).filter (fun i => !isAbsent .n16 (elemOf .px2 i a) && !isAbsent .n16 (elemOf .px2 i b))
  if ps.isEmpty ∧ isAbsent .n32 c then (absentOf .n32, 0)
  else
    intRes .n32 ((ps.map (fun i => (((elemOf .px2 i a : Int) - elemOf .px2 i b).natAbs : Int))).foldl (· + ·)
      (if isAbsent .n32 c then 0 else (c : Int)))

/-- PMAD (R164). -/
def pmadVal (a b c : Nat) : Res :=
  packed .px2 (fun i =>
    withAbsent .n16 false [] [elemOf .px2 i a, elemOf .px2 i b, elemOf .px2 i c] (fun xs =>
      intRes .n16 ((((xs.getD 0 0 * xs.getD 1 0 + 128) / 256 + xs.getD 2 0 : Nat)) : Int)))

/-- PSHR (R163). -/
def pshrVal (a n : Nat) : Nat :=
  packElems .px2 ((List.range 2).map (fun i => let x := elemOf .px2 i a; if isAbsent .n16 x then x else x / 2 ^ (n % 16)))

/-- PPACK (R163, R103). -/
def ppackVal (a b : Nat) : Res :=
  let x := convert .n32 .n16 .rne false a none
  let y := convert .n32 .n16 .rne false b none
  (packElems .px2 [x.1, y.1], x.2 ||| y.2)

/-- PUNPK (R163). -/
def punpkVal (a i : Nat) : Nat := (convert .n16 .n32 .rne false (elemOf .px2 (i % 2) a) none).1

/-- PCLMP (R163). -/
def pclmpVal (a lo hi : Nat) : Nat :=
  packElems .px2 ((List.range 2).map (fun i =>
    let x := elemOf .px2 i a
    let l := elemOf .px2 i lo
    let h := elemOf .px2 i hi
    if isAbsent .n16 x then x
    else
      let y := if isAbsent .n16 l then x else max x l
      if isAbsent .n16 h then y else min y h))

end Sys2Proof.Machine
end

