-- ==== Sys2Proof/Machine/Queues.lean ====
section
/-! DEFINITION. Scratchpad offsets (spec/08 R194, R195), the Roadworks table (spec/13 R269, R270) and the queues q0 to q11 (spec/08
R198 to R200), with the tags of lane writes. -/

namespace Sys2Proof.Machine

/-- No Square or set operation of the lane is on its way: its next flat access may be performed (spec/12 R241 item 1). -/
def Lane.quiet (l : Lane) : Bool := !l.pend.any (fun p => p.kind == .square || p.kind == .set || p.kind == .setArr)

/-- No Square operation with acquire order is on its way: the lane's next scratchpad access or queue transfer may be performed (spec/12 R246;
spec/16 R314). -/
def Lane.acquired (l : Lane) : Bool := !l.pend.any (fun p => p.acq)

/-- The tag of a write by a lane's instruction (spec/21 R395). -/
def laneTag (s : State) (k : LaneId) (issuer : Nat) (vas : List Nat) : WTag :=
  { ctx := laneCtx s k, issuer := issuer, vas := vas, pc := s.cur.pc, lane := some k }

/-- The group and byte that a scratchpad offset names (R194). -/
def spadTarget (g : GroupId) (off : Nat) : GroupId × Nat :=
  if natBit off 31 then (⟨g.gang, off / 2 ^ 24 % 128⟩, off % 2 ^ 24) else (g, off % 2 ^ 31)

/-- The group and byte that a scratchpad offset reaches for an access of `n` bytes; none out of bounds (R194). -/
def spadResolve (s : State) (g : GroupId) (off n : Nat) : Option (GroupId × Nat) :=
  let (t, o) := spadTarget g off
  match s.group? t with
  | some x => if o + n ≤ x.scratch then some (t, o) else none
  | none => none

/-- The bytes of a group's allocation. -/
def spadRead (s : State) (g : GroupId) (off n : Nat) : List Byte :=
  match s.group? g with | some x => memReads x.spad off n | none => []

/-- The index of a memory space in xinfo.SPC (R191). -/
def spcCode : Space → Nat
  | .flat => 0 | .spad => 1 | .const => 2 | .priv => 3

/-- xinfo of an access (R191). -/
def accInfo (reg : Nat) (sp : Space) (store : Bool) (size : Nat) (deferred : Bool) : Word :=
  BitVec.ofNat 32 (b2n deferred * 2 ^ 16 + reg * 2 ^ 8 + spcCode sp * 2 ^ 6 + b2n store * 2 ^ 5 + Nat.log2 (max size 1))

/-- An address trap of an access by a lane (R191, R195). -/
def accTrap (c : Cause) (a : Addr) (info : Word) : TrapInfo :=
  { cause := c, xaddr := a, xinfo := info, perLane := some a, level := 0xFF, malformed := false, attempts := 0, under := c }

/-- An entry holds one of `n` bytes from `lo`; an entry whose range has shrunk to nothing holds none (spec/13 R269, R270). -/
def Road.holds (r : Road) (lo n : Nat) : Bool := decide (max lo r.lo < min (lo + n) r.hi)

/-- Whether flat bytes of a context are registered on a die (spec/13 R269, R270). -/
def roadFlat (s : State) (d ctx lo n : Nat) : Bool :=
  (s.die d).road.any (fun r => decide (r.space = none) && r.ctx == ctx && r.holds lo n)

/-- Whether bytes of a group's allocation are registered. -/
def roadSpad (s : State) (d ctx : Nat) (g : GroupId) (lo n : Nat) : Bool :=
  (s.die d).road.any (fun r => decide (r.space = some g) && r.ctx == ctx && r.holds lo n)

/-- The entries a die's Roadworks table can still take (R269). -/
def roadRoom (s : State) (d : Nat) : Nat := 4096 - (s.die d).road.length

/-! ### q0 to q11 (R198 to R200) -/

/-- Queue `n` of a group, none while it is unconfigured. -/
def queueOf (s : State) (g : GroupId) (n : Nat) : Option Queue :=
  match s.group? g with | some x => (x.queues.getD n none) | none => none

/-- Set the state of queue `n` of a group. -/
def setQueue (s : State) (g : GroupId) (n : Nat) (q : Option Queue) : State :=
  match s.group? g with | some x => s.setGroup g { x with queues := x.queues.set n q } | none => s

/-- The byte at which entry `i` (from the head) of a queue stands (R200). -/
def Queue.byteOf (q : Queue) (i : Nat) : Nat := q.base + 4 * ((q.head + i) % q.cap)

/-- The entries at the head of a queue. -/
def queuePeek (s : State) (g : GroupId) (q : Queue) (n : Nat) : List Nat :=
  (List.range n).map (fun i => ofBytesLE (spadRead s g (q.byteOf i) 4))

/-- Remove `n` entries from the head (R200). -/
def queueDrop (s : State) (g : GroupId) (k : Nat) (q : Queue) (n : Nat) : State :=
  setQueue s g k (some { q with head := (q.head + n) % q.cap, count := q.count - n })

/-- Append entries to a queue that has room for them (R200). -/
def queuePush (s : State) (g : GroupId) (k : Nat) (es : List Nat) (tag : WTag) : State :=
  es.foldl (fun s e =>
    match queueOf s g k with
    | some q =>
      let s := spadWrite s g (q.byteOf q.count) (bytesLE 4 e) tag
      setQueue s g k (some { q with count := q.count + 1 })
    | none => s) s

end Sys2Proof.Machine
end

