-- ==== Sys2Proof/Machine/StreamOps.lean ====
section
/-! DEFINITION. The commands of a stream engine as they are accepted and as they complete (spec/13 R254 to R279, R434): X fields,
tickets, range and record checks, roadworks, admission, completion words, cd and the status history. -/

namespace Sys2Proof.Machine

/-- The fields of the stream layout (R255). -/
def sN0 (x : Word) : Nat := fld x 3 0
def sN1 (x : Word) : Nat := fld x 7 4
def sN2 (x : Word) : Nat := fld x 11 8
def sSop (x : Word) : Nat := fld x 23 16

/-- SOP values of the binary operations, and all values (R272). -/
def sopBinary (n : Nat) : Bool := n ≤ 4
def sopOk (n : Nat) : Bool := n ≤ 7 || (16 ≤ n && n ≤ 18)

/-- X of a stream form is well-formed (R254, R255): fields the form does not use are zero and the others keep their limits. -/
def streamXOk (op : Nat) (x : Word) : Bool :=
  let hnt := true
  let z := fun (hi lo : Nat) => fld x hi lo == 0
  match op with
  | 0x280 => hnt && z 29 15 && z 11 0
  | 0x281 => z 29 16 && z 11 4
  | 0x282 => z 29 13 && z 11 8 && sN0 x < 8 && sN1 x < 8
  | 0x283 => z 31 4
  | 0x284 => z 31 4 && sN0 x < 2
  | 0x285 => z 31 4 && sN0 x < 4
  | 0x286 => z 31 13 && z 11 4 && sN0 x < 4
  | 0x287 => z 31 4 && sN0 x < 4
  | 0x288 => z 31 4 && sN0 x < 8
  | 0x289 => z 29 29 && z 15 13 && fld x 26 24 < 5 && sopOk (sSop x) && sN0 x < 8 && sN1 x < 8 && sN2 x < 8 &&
      (sopBinary (sSop x) || sN2 x == 0)
  | 0x28A => z 29 14 && z 11 4
  | _ => false

/-- The types of CVT (spec/06 R157). -/
def cvtType (t : Ty) : Bool :=
  [Ty.f32, .f16, .bf16, .e4m3, .e5m2, .i8, .i16, .i32, .i64, .n8, .n16, .n32, .n64].contains t

/-- The types a SWEEP operation accepts (R272). -/
def sweepType (sop : Nat) (t : Ty) : Bool :=
  if sop ≤ 4 then [Ty.f32, .f16, .bf16, .i32, .n32, .i16, .n16].contains t
  else if sop = 5 then cvtType t
  else if sop = 6 then t == .q8
  else if sop = 7 then t == .f32
  else [Ty.f32, .i32, .n32].contains t

/-- The type of a SWEEP's inputs (R272). -/
def sweepInTy (sop : Nat) (t : Ty) (b : Nat) : Ty :=
  if sop = 5 then Ty.ofCode (b % 32) else if sop = 6 then .f32 else if sop = 7 then .q8 else t

/-! ### Iterator records (R271) -/

/-- The number of elements of a record. -/
def IterRec.count (r : IterRec) : Nat := r.ext.foldl (· * ·) 1

/-- Offset of element `i`, in iteration order, from BASE (R271). -/
def IterRec.offset (r : IterRec) (i : Nat) : Int :=
  ((List.range 4).foldl (fun (a : Int × Nat) d =>
    let e := r.ext.getD d 1
    let here : Int := if r.bc.getD d false then 0 else (a.2 % e : Nat) * r.str.getD d 0
    (a.1 + here, a.2 / e)) (0, i)).1

/-- The least and greatest offsets a record reaches, the element's bytes included (R269). -/
def IterRec.bounds (r : IterRec) : Int × Int :=
  let ds := (List.range 4).map (fun d => if r.bc.getD d false then (0 : Int) else ((r.ext.getD d 1 : Int) - 1) * r.str.getD d 0)
  (ds.foldl (fun a x => a + min x 0) 0, ds.foldl (fun a x => a + max x 0) 0 + (2 ^ r.esz : Nat))

/-- Where element `i` of a record stands: a flat address or a scratchpad offset. -/
def IterRec.addrOf (r : IterRec) (i : Nat) : Nat := (((r.base : Int) + r.offset i) % (2 ^ 64 : Nat)).toNat

/-- Parse an iterator record, or the offset of the first failing byte (R271). The reach of a scratchpad record is tested once its extents and
element size lie in their ranges. Bits 63:32 of BASE with SPAD are taken as reserved, so that a nonzero byte of them is a failing byte: the model's choice
(log 22). -/
def parseIter (bs : List Byte) (alloc : Nat) : IterRec ⊕ Nat :=
  let n := fun (o k : Nat) => ofBytesLE ((bs.drop o).take k)
  let esz := n 0x3A 1
  let sz := 2 ^ esz
  let ndim := n 0x38 1
  let fl := n 0x39 1
  let ext := (List.range 4).map (fun d => n (8 + 4 * d) 4)
  let str := (List.range 4).map (fun d => sext 64 (n (0x18 + 8 * d) 8))
  let spad := natBit fl 0
  let r : IterRec := { base := if spad then n 0 8 % 2 ^ 32 else n 0 8, ext := ext, str := str, ndim := ndim, spad := spad
                       bc := (List.range 4).map (fun d => natBit fl (4 + d)), esz := esz }
  let (lo, hi) := r.bounds
  let reach := esz ≤ 4 ∧ ext.all (fun e => decide (1 ≤ e ∧ e ≤ 2 ^ 24))
  let bad : List Nat :=
    (if esz ≤ 4 ∧ n 0 8 % sz ≠ 0 then [0] else []) ++
    (if spad ∧ reach ∧ ((r.base : Int) + lo < 0 ∨ (alloc : Int) < (r.base : Int) + hi) then [0] else []) ++
    (if spad then (List.range 4).filterMap (fun i => if n (4 + i) 1 ≠ 0 then some (4 + i) else none) else []) ++
    (List.range 4).filterMap (fun d => let e := ext.getD d 0
      if e = 0 ∨ 2 ^ 24 < e ∨ (ndim ≤ d ∧ e ≠ 1) then some (8 + 4 * d) else none) ++
    (List.range 4).filterMap (fun d => if esz ≤ 4 ∧ str.getD d 0 % (sz : Int) ≠ 0 then some (0x18 + 8 * d) else none) ++
    (if ndim = 0 ∨ 4 < ndim then [0x38] else []) ++
    (if fl / 2 % 8 ≠ 0 then [0x39] else []) ++
    (if 4 < esz then [0x3A] else []) ++
    ((List.range 5).filterMap (fun i => if n (0x3B + i) 1 ≠ 0 then some (0x3B + i) else none))
  match bad with
  | [] => .inl r
  | b :: r => .inr (r.foldl min b)

/-! ### Completion (R257 to R261, R434) -/

/-- The stream engine's fault record (R434). -/
def streamFault (s : State) (core : Nat) (c : Cmd) (status va : Nat) (cause : Cause) (what level : Nat) (mal : Bool) (attempts : Nat) :
    State :=
  let gi := match s.gang? c.lane.gang with | some g => g.index | none => 0
  emitRing s (dieOf core) (.stream core) 0x21 c.ctx
    [(0x90, 4, c.ticket.toNat), (0x94, 4, status), (0x98, 8, va), (0xA0, 1, cause.code), (0xA1, 1, c.ctx), (0xA2, 1, what),
      (0xA3, 1, level), (0xA4, 1, b2n mal + 2 * b2n (ctxKeyId s c.ctx != 0)), (0xA5, 1, attempts), (0xA6, 2, c.op - 0x280),
      (0xA8, 4, gi), (0xAC, 3, c.lane.group + 256 * c.lane.warp + 65536 * c.lane.lane)] [(0x98, 8)] 0xB0

/-- The commands of a core with a ticket: one, and beside it those that a restore brought there (R277). -/
def cmdsOf (s : State) (core : Nat) (t : BitVec 32) : List Cmd := (s.core core).cmds.filter (fun c => c.ticket == t)

/-- The command of a core with a ticket and a name. -/
def cmdOf (s : State) (core : Nat) (t : BitVec 32) (id : Nat) : Option Cmd := (cmdsOf s core t).find? (fun c => c.id == id)

/-- Replace a command. -/
def setCmd (s : State) (core : Nat) (c : Cmd) : State :=
  let x := s.core core
  s.setCore core { x with cmds := x.cmds.map (fun k => if k.same c then c else k) }

/-- Append a completion to cd of the issuing warp; it waits in the engine while cd is full, and is discarded when the warp has exited
(R259). -/
def postCd (s : State) (core : Nat) (w : WarpId) (t : Word) (status : Nat) : State :=
  match s.warp? w with
  | some x =>
    if x.masks.headD 0#32 = 0#32 then s
    else if x.cd.length + 2 ≤ 64 ∧ !(s.core core).cdHeld.any (fun p => p.1 == w) then
      s.setWarp w { x with cd := x.cd ++ [t, BitVec.ofNat 32 status] }
    else
      let y := s.core core
      s.setCore core { y with cdHeld := y.cdHeld ++ [(w, t, BitVec.ofNat 32 status)] }
  | none => s

/-- Count a completion in the group's history and in its lane's account (R260). -/
def noteDone (s : State) (c : Cmd) (status st : Nat) : State :=
  let s := match s.group? (LaneId.grp c.lane) with
    | some g =>
      let h := g.hist ++ [(c.ticket, BitVec.ofNat 32 status)]
      s.setGroup (LaneId.grp c.lane) { g with hist := h.drop (h.length - 256) }
    | none => s
  match s.lane? c.lane with
  | some l => s.setLane c.lane { l with owed := l.owed.erase c.ticket, owedBad := l.owedBad || (st != 0 && l.owed.contains c.ticket) }
  | none => s

/-- The status of a command whose work has ended. -/
def Cmd.status (c : Cmd) : Nat :=
  match c.st with
  | some (st, cause) => statusWord c.op st cause.code c.fl.toNat
  | none => statusWord c.op 0 0 c.fl.toNat

/-- An indirect stream of a group. -/
def istreamOf (s : State) (g : GroupId) (n : Nat) : IStream :=
  match s.group? g with | some x => x.istreams.getD n .idle | none => .idle

/-- Set an indirect stream. -/
def setIstream (s : State) (g : GroupId) (n : Nat) (i : IStream) : State :=
  match s.group? g with | some x => s.setGroup g { x with istreams := x.istreams.set n i } | none => s

/-- The faults of an address that no translation decides (R262; spec/08 R189). -/
def flatCheck (va n : Nat) : Option Cause :=
  let a : Addr := BitVec.ofNat 64 va
  let z : Addr := BitVec.ofNat 64 (va + (n - 1))
  if !canonical a || !canonical z then some .noncanonical else if inPrivate a || inPrivate z then some .permission else none

/-- A command whose work has ended completes: its entries and token go, then the completion word, cd and the event record follow in
order (R257). A replayable fault on the word parks the command. -/
def completeCmd (s : State) (core : Nat) (t : BitVec 32) (id : Nat) : State :=
  match cmdOf s core t id with
  | none => s
  | some c =>
    match c.st with
    | none => s
    | some (st, _) =>
      let s := if c.posted then s else releaseUnits (dropRoads s core false c.owner) core c.units
      let c := { c with posted := true, units := 0 }
      let s := setCmd s core c
      let status := c.status
      let d := dieOf core
      let fin := fun (s : State) =>
        let s := if c.note then postCd s core (LaneId.wid c.lane) c.ticket status else s
        let s := emit s (.stream core) 0x20 [(0x90, 4, c.ticket.toNat), (0x94, 4, status)]
        let s := noteDone s c status st
        let s := match c.is with | some i => setIstream s (LaneId.grp c.lane) (sN0 c.x) (.configured i) | none => s
        let x := s.core core
        s.setCore core { x with cmds := x.cmds.filter (fun k => !k.same c) }
      if c.cpl = 0 then fin s
      else
        match flatCheck c.cpl 16 with
        | some cause => fin (streamFault s core c status c.cpl cause 4 0xFF false 0)
        | none =>
        match vplace s d c.ctx (BitVec.ofNat 64 c.cpl) .store with
        | (s, .place loc _) =>
          let bs := bytesLE 8 (nextSeq s (.stream core)) ++ bytesLE 4 c.ticket.toNat ++ bytesLE 4 status
          let tag : WTag := { ctx := c.ctx, issuer := 1, vas := (List.range 16).map (c.cpl + ·), pc := BitVec.ofNat 64 c.ticket.toNat, lane := some c.lane }
          fin (flatWrite s d (bs.zipIdx.map (fun p => (loc + p.2, p.1))) tag)
        | (s, .fault cause level mal) =>
          if replayable cause then
            let s := postFault s d (.stream core) { va := c.cpl, cause := cause, access := 1, ctx := c.ctx, issuer := 1, lanes := 0,
                                                    pc := c.ticket.toNat, level := level }
            setCmd s core { c with parked := true }
          else fin (streamFault s core c status c.cpl cause 4 level mal 0)
        | (s, .failed f) => fin (streamFault s core c status c.cpl f.cause 4 f.level f.malformed f.attempts)
        | (s, _) => s

/-! ### Acceptance -/

/-- What the acceptance of a command comes to. -/
inductive CmdOut where
  | issued (s : State) (d : Nat)               -- accepted; the value of D
  | trap (t : TrapInfo)
  | trapWith (s : State) (t : TrapInfo)        -- a trap with the partial cq record cleared (R261)
  | wait
  | adm (s : State)                            -- the lane waits for an admission token
  deriving DecidableEq, Repr

/-- A range a command uses: scratchpad or flat. -/
structure Range where
  spad : Option GroupId
  lo : Nat
  hi : Nat
  deriving DecidableEq, Repr

/-- Check one end of a copy (R262): its range, or the trap. -/
def checkEnd (s : State) (k : LaneId) (spad store : Bool) (a n : Nat) : Range ⊕ TrapInfo :=
  if spad then
    match spadResolve s (LaneId.grp k) (a % 2 ^ 32) n with
    | some (g, o) => .inl ⟨some g, o, o + n⟩
    | none => .inr (accTrap .spadBounds (BitVec.ofNat 64 (a % 2 ^ 32)) (accInfo 0 .spad store 1 false))
  else
    match flatCheck a n with
    | some c => .inr (accTrap c (BitVec.ofNat 64 a) (accInfo 0 (if c = .permission then .priv else .flat) store 1 false))
    | none => .inl ⟨none, a, a + n⟩

/-- The bounding range of a record, checked as a copy's end is (R262, R269). -/
def checkRec (s : State) (k : LaneId) (store : Bool) (r : IterRec) : Range ⊕ TrapInfo :=
  let (lo, hi) := r.bounds
  let a := (((r.base : Int) + lo) % (2 ^ 64 : Nat)).toNat
  if r.spad then .inl ⟨some (LaneId.grp k), a, a + (hi - lo).toNat⟩
  else checkEnd s k false store a (hi - lo).toNat

/-- ITER_RECORD_BAD raised by a command (R271, R272). -/
def iterBad : TrapInfo := TrapInfo.plain .iterRecordBad 0

/-- A record of a group. -/
def iterOf (s : State) (g : GroupId) (n : Nat) : Option IterRec :=
  match s.group? g with | some x => x.iters.getD n none | none => none

/-- The records that a CPYT or SWEEP names, as far as they are defined, output first. -/
def namedRecs (s : State) (g : GroupId) (op : Nat) (x : Word) : List (IterRec × Bool) :=
  let ns := if op ≠ 0x282 ∧ sopBinary (sSop x) then [(sN0 x, true), (sN1 x, false), (sN2 x, false)] else [(sN0 x, true), (sN1 x, false)]
  ns.filterMap (fun n => (iterOf s g n.1).map (fun r => (r, n.2)))

/-- The records a CPYT or SWEEP names, output first, checked (R262, R271, R272). -/
def sweepRecs (s : State) (k : LaneId) (op : Nat) (ty : Ty) (x : Word) (b : Nat) : List IterRec ⊕ TrapInfo :=
  let g := LaneId.grp k
  if op = 0x282 then
    match iterOf s g (sN0 x), iterOf s g (sN1 x) with
    | some o, some i => if o.bc.any id || o.count != i.count || o.esz != i.esz then .inr iterBad else .inl [o, i]
    | _, _ => .inr iterBad
  else
    let sop := sSop x
    let tin := sweepInTy sop ty b
    let ok := fun (r : IterRec) (t : Ty) => tyWidth t == 8 * 2 ^ r.esz
    match iterOf s g (sN0 x), iterOf s g (sN1 x) with
    | some o, some i =>
      if o.bc.any id || !ok o ty || !ok i tin ||
          o.count != (if sop ≥ 16 then i.count / i.ext.headD 1 else i.count) then .inr iterBad
      else if sopBinary sop then
        match iterOf s g (sN2 x) with
        | some j => if !ok j tin || j.count != o.count then .inr iterBad else .inl [o, i, j]
        | none => .inr iterBad
      else .inl [o, i]
    | _, _ => .inr iterBad

/-- Storage binding `n` of a context is bound; its block size (R276; spec/22 R414). -/
def bound (s : State) (ctx n : Nat) : Option Nat :=
  let v := s.mreg ⟨.nsbctl, ctx, n⟩
  if flg v 63 then some (2 ^ fld v 35 32) else none

/-- The operands of a command. -/
structure CmdArgs where
  op : Nat
  ty : Ty
  x : Word
  av : Nat
  bv : Nat
  cv : Nat
  note : Bool
  cpl : Nat
  port : Bool                   -- the command came through cq (R261)
  deriving DecidableEq, Repr

/-- The destination of the next ticket (R257). -/
def bumpTicket (t : BitVec 32) : BitVec 32 := if t + 1 = 0 then 1 else t + 1

/-- A channel of a group. -/
def chanOf (s : State) (g : GroupId) (n : Nat) : Chan :=
  match s.group? g with | some x => x.chans.getD n ⟨0, false, 0⟩ | none => ⟨0, false, 0⟩

/-- Set a channel. -/
def setChan (s : State) (g : GroupId) (n : Nat) (c : Chan) : State :=
  match s.group? g with | some x => s.setGroup g { x with chans := x.chans.set n c } | none => s

/-- The ranges of a CPYT or SWEEP, or the first trap of their checks: the input type of a CVT, the reach of the records, then the records
themselves (R262, R271, R272, R279). -/
def recsCheck (s : State) (k : LaneId) (a : CmdArgs) : (List Range × List IterRec) ⊕ TrapInfo :=
  let es := (namedRecs s (LaneId.grp k) a.op a.x).map (fun r => checkRec s k r.2 r.1)
  if a.op = 0x289 ∧ sSop a.x = 5 ∧ cvtType (sweepInTy 5 a.ty a.bv) = false then .inr (TrapInfo.plain .illType 0)
  else
    match es.findSome? (fun e => match e with | .inr t => some t | _ => none) with
    | some t => .inr t
    | none =>
      match sweepRecs s k a.op a.ty a.x a.bv with
      | .inr t => .inr t
      | .inl rs => .inl (es.filterMap (fun e => match e with | .inl r => some r | _ => none), rs)

/-- The bytes that an output record covers. -/
def recBytes (rs : List IterRec) : Nat := match rs with | r :: _ => r.count * 2 ^ r.esz | [] => 0

/-- The index array of an indirect stream as it is registered (R269); what of it cannot be read is met at the read (R264, R274). -/
def indexRange (k : LaneId) (c : IsCfg) : List Range :=
  let n := c.count * (if c.i64 then 8 else 4)
  if n = 0 then []
  else if c.ispad then
    let (g, o) := spadTarget (LaneId.grp k) (c.ibase % 2 ^ 32)
    [⟨some g, o, o + n⟩]
  else [⟨none, c.ibase, c.ibase + n⟩]

/-- The checks of a command before it waits (R262, R271, R272, R274, R276), in the order of R279: its ranges to register, its records and
the bytes it moves; or its trap. -/
def cmdCheck (s : State) (k : LaneId) (a : CmdArgs) : (List Range × List IterRec × Nat) ⊕ TrapInfo :=
  let bad := TrapInfo.plain .streamBadCmd 0
  match a.op with
  | 0x280 | 0x281 =>
    match checkEnd s k (flg a.x 13) true a.av a.cv, checkEnd s k (flg a.x 14) false a.bv a.cv with
    | .inr t, _ => .inr t
    | _, .inr t => .inr t
    | .inl d, .inl e => .inl (if a.cv = 0 then [] else [d, e], [], a.cv)
  | 0x282 =>
    match recsCheck s k a with
    | .inr t => .inr t
    | .inl (es, rs) => .inl (es, rs, recBytes rs)
  | 0x289 =>
    match recsCheck s k a with
    | .inr t => .inr t
    | .inl (es, rs) => .inl (es, rs, 0)
  | 0x286 =>
    match istreamOf s (LaneId.grp k) (sN0 a.x) with
    | .configured c => if (queueOf s (LaneId.grp k) c.qn).isNone then .inr bad else .inl (indexRange k c, [], 0)
    | _ => .inr bad
  | 0x28A =>
    let n := a.cv * (bound s (laneCtx s k) (sN0 a.x)).getD 0
    match checkEnd s k (flg a.x 13) true a.av n with
    | .inr t => .inr t
    | .inl r => if (bound s (laneCtx s k) (sN0 a.x)).isNone ∨ a.cv = 0 ∨ 2 ^ 32 ≤ n then .inr bad else .inl ([r], [], n)
  | _ => .inl ([], [], 0)

/-- The admission units of a command that moves `n` bytes (spec/01 R28; spec/22 R415). -/
def cmdUnits (op n : Nat) : Nat :=
  if op = 0x289 then 4 else if op = 0x28A then 2 else if (op = 0x280 ∨ op = 0x281 ∨ op = 0x282) ∧ 2 ^ 20 < n then 2 else 0

/-- Register ranges under an owner (R269). -/
def addRoads (s : State) (d core ctx owner : Nat) (matrix : Bool) (rs : List Range) : State :=
  let new : List Road := rs.map (fun r =>
    { ctx := ctx, space := r.spad, lo := r.lo, hi := r.hi, core := core, matrix := matrix, owner := owner })
  s.setDie d { s.die d with road := (s.die d).road ++ new }

/-- Clear the group's idempotence flag (spec/20 R367). -/
def clearIdem (s : State) (g : GroupId) : State :=
  match s.group? g with | some x => s.setGroup g { x with idem := false } | none => s

/-- `cpyw.chN.clr` (R268): once the channel's earlier copies have completed, ERR := 0, the issue end is COUNT and D := COUNT. -/
def clearChan (s : State) (k : LaneId) (n : Nat) : CmdOut :=
  let g := LaneId.grp k
  let ch := chanOf s g n
  if (s.core (laneCore s k)).cmds.any (fun c => c.op == 0x281 && sN0 c.x == n && LaneId.grp c.lane == g) then .wait
  else .issued (setChan s g n { ch with err := false, stop := if ch.err then ch.count else ch.stop }) ch.count

/-- A command as it is accepted under the next ticket: what it works on stands in it (R257, R262, R265, R274). -/
def newCmd (s : State) (k : LaneId) (a : CmdArgs) (recs : List IterRec) (units : Nat) (ended : Option (Nat × Cause)) : Cmd :=
  let g := LaneId.grp k
  { id := s.uid, ticket := (s.core (laneCore s k)).ticket, op := a.op, ty := a.ty, x := a.x, av := a.av, bv := a.bv, cv := a.cv, lane := k
    rm := (match s.lane? k with | some l => l.rm | none => 0), ctx := laneCtx s k, note := a.note, cpl := a.cpl
    start := (chanOf s g (sN0 a.x)).stop, recs := recs
    is := (match istreamOf s g (sN0 a.x) with | .configured c => if a.op = 0x286 then some c else none | _ => none)
    done := [], next := 0, out := false, fl := 0, st := ended, parked := false, posted := false, waited := 0, units := units, back := 0 }

/-- A command enters the engine: its ranges are registered, the ticket is taken, and its lane owes its completion (R257, R260, R269). One
whose work has ended completes at once. -/
def enter (s : State) (k : LaneId) (c : Cmd) (ranges : List Range) : State :=
  let core := laneCore s k
  let s := addRoads s (dieOf core) core c.ctx c.owner false ranges
  let x := s.core core
  let s := { s.setCore core { x with ticket := bumpTicket c.ticket, cmds := x.cmds ++ [c] } with uid := s.uid + 1 }
  let s := match s.lane? k with
    | some l => s.setLane k { l with token := if c.units ≠ 0 then 0 else l.token, owed := l.owed ++ [c.ticket] }
    | none => s
  if c.st.isSome then completeCmd s core c.ticket c.id else s

/-- An ISSTP or a CLR: one that came through cq is a command with a ticket and a completion of its own (R261, log 22). -/
def portDone (k : LaneId) (a : CmdArgs) : CmdOut → CmdOut
  | .issued s v => .issued (if a.port then enter s k (newCmd s k a [] 0 (some (0, .none))) [] else s) v
  | o => o

/-- ISSTP: a running stream stops, one that waits for a replay too (R275). -/
def stopIstream (s : State) (k : LaneId) (n : Nat) : State :=
  let core := laneCore s k
  match istreamOf s (LaneId.grp k) n with
  | .running _ t id =>
    (match cmdOf s core t id with
     | some c => if c.st.isNone then setCmd s core { c with st := some (4, .none), parked := false } else s
     | none => s)
  | _ => s

/-- The lane asks for a token of `units` (spec/01 R28, R29): it holds its ranges meanwhile, and gives back a token of another size. -/
def askToken (s : State) (k : LaneId) (units : Nat) (ranges : List Range) : State :=
  let core := laneCore s k
  let d := dieOf core
  let held := match s.lane? k with | some l => l.token | none => 0
  let s := releaseUnits (addRoads s d core (laneCtx s k) (laneOwner k) false ranges) core held
  s.setDie d { s.die d with admq := (s.die d).admq ++ [{ who := .lane, units := units, lane := k, core := core, waited := 0 }] }

/-- The commands that a core's engine holds: those of its resident groups; what a saved gang left is part of its image (R266, R277). -/
def engineCmds (s : State) (core : Nat) : List Cmd :=
  (s.core core).cmds.filter (fun c => match s.gang? c.lane.gang with | some g => g.onClose | none => true)

/-- A command that copies (R266). -/
def isCopy (op : Nat) : Bool := op == 0x280 || op == 0x281 || op == 0x282

/-- Accept a command of a lane, by an instruction or through cq (R256, R257, R261, R262, R265, R268, R272, R274, R276). -/
def cmdIssue (s : State) (k : LaneId) (a : CmdArgs) : CmdOut :=
  let g := LaneId.grp k
  let core := laneCore s k
  if a.op = 0x287 then portDone k a (.issued (stopIstream s k (sN0 a.x)) 0)
  else if a.op = 0x281 ∧ flg a.x 15 then portDone k a (clearChan s k (sN0 a.x))
  else
    match cmdCheck s k a with
    | .inr t => .trap t
    | .inl (ranges, recs, n) =>
      let s0 := dropRoads s core false (laneOwner k)
      let units := cmdUnits a.op n
      let granted := match s.lane? k with | some l => l.token == units | none => false
      if isCopy a.op ∧ 1024 ≤ ((engineCmds s core).filter (fun c => isCopy c.op)).length then .wait
      else if roadRoom s0 (dieOf core) < (if ranges.isEmpty then 0 else if isCopy a.op then 2 else ranges.length) then .wait
      else if units ≠ 0 ∧ !granted then .adm (askToken s0 k units ranges)
      else
        let ch := chanOf s g (sN0 a.x)
        let isw := decide (a.op = 0x281)
        let ended : Option (Nat × Cause) :=
          if isw && ch.err then some (3, .none)
          else if (a.op = 0x280 ∨ a.op = 0x281) ∧ a.cv = 0 then some (0, .none)
          else none
        let c := newCmd s0 k a recs units ended
        let s := if isw then setChan s0 g (sN0 a.x) { ch with stop := (ch.stop + a.cv) % 2 ^ 63 } else s0
        let s := match c.is with | some i => setIstream s g (sN0 a.x) (.running i c.ticket c.id) | none => s
        .issued (enter (clearIdem s g) k c ranges) (if isw then (ch.stop + a.cv) % 2 ^ 63 else c.ticket.toNat)

/-- The command of a complete cq record (R261), or none when the engine refuses it. -/
def cqParse (ws : List Word) : Option CmdArgs :=
  let bs := ws.flatMap (fun w => bytesLE 4 w.toNat)
  let n := fun (o k : Nat) => ofBytesLE ((bs.drop o).take k)
  let op := n 0 2
  let x : Word := BitVec.ofNat 32 (n 4 4)
  let spadHi := fun (bit o : Nat) => flg x bit && n o 4 != 0
  if !([0x280, 0x281, 0x282, 0x286, 0x287, 0x289, 0x28A] : List Nat).contains op || n 3 1 != 0 || n 0x1C 4 != 0 || n 0x28 8 != 0 ||
      !streamXOk op x || n 0x20 8 % 16 != 0 || 32 ≤ n 2 1 || spadHi 13 0xC || spadHi 14 0x14 then none
  else some { op := op, ty := Ty.ofCode (n 2 1), x := x, av := n 8 8, bv := n 0x10 8, cv := n 0x18 4, note := true, cpl := n 0x20 8, port := true }

/-- One entry pushed to cq (R261): the twelfth completes the record, which the engine checks and issues at that push. A push waits while 64
commands are pending, and the twelfth while a Square or set operation of the lane is on its way, as the command's instruction would
(spec/12 R241, R248). -/
def cqPush (s : State) (k : LaneId) (e : Word) : CmdOut :=
  match s.lane? k with
  | none => .issued s 0
  | some l =>
    let part := l.cq ++ [e]
    if 64 ≤ (engineCmds s (laneCore s k)).length then .wait
    else if part.length < 12 then .issued (s.setLane k { l with cq := part }) 0
    else if !l.quiet then .wait
    else
      match cqParse part with
      | none => .trapWith (s.setLane k { l with cq := [] }) (TrapInfo.plain .streamBadCmd 0)
      | some a =>
        if (a.op = 0x289 ∧ sweepType (sSop a.x) a.ty = false) ∨ (a.op ≠ 0x289 ∧ a.ty ≠ .none) then .trap (TrapInfo.plain .illType 0)
        else
          match cmdIssue s k a with
          | .issued s v =>
            (match s.lane? k with
             | some l => .issued (s.setLane k { l with cq := [] }) v
             | none => .issued s v)
          | o => o

end Sys2Proof.Machine
end

