-- ==== Sys2Proof/Machine/Operands.lean ====
section
/-! DEFINITION. Every operand form: the classes of codes a field accepts (spec/02 R45 to R49, spec/06 R139 to R141), the checks of R57
that depend on the word, special registers (R46), sources that wait on full/empty bits and queues (R14, R19, R20), and destinations
(R15, R18, R141). -/

namespace Sys2Proof.Machine

/-! ### Field classes and entries -/

/-- A class of operand codes. -/
inductive Cls where
  | g            -- a general register, 32 bits whatever T is
  | gT           -- a general register of T's width
  | even         -- an even general register
  | g12          -- a pair whose second register must lie below the count (spec/14 R282)
  | q            -- q0 to q11, not transferred
  | pop          -- a queue popped: q0 to q11, mr, cd
  | push         -- a queue pushed: q0 to q11, mq, cq
  | port (n : Nat)   -- one named engine port, not transferred
  | m            -- m0 to m11
  | m1           -- m1 to m11
  | lc
  | sr           -- a special register
  | sr14         -- 0xA0 to 0xAE
  | z
  | absent
  | imm
  | none
  deriving DecidableEq, Repr

/-- Registers an operand of a type takes (R185, R198). -/
def tyRegs (t : Ty) : Nat := if tyWidth t = 128 then 4 else if tyWidth t = 64 then 2 else 1

/-- Whether an operand belongs to a class, for type `t` and register count `n` (R47, R139, R185). -/
def Cls.has (t : Ty) (n : Nat) (o : Operand) : Cls → Bool
  | .g => match o with | .g r => r < n | _ => false
  | .gT => match o with | .g r => r % tyRegs t == 0 && r + tyRegs t ≤ n | _ => false
  | .even => match o with | .g r => r % 2 == 0 && r < n | _ => false
  | .g12 => match o with | .g r => r + 1 < n | _ => false
  | .q => match o with | .q k => k < 12 | _ => false
  | .pop => match o with | .q k => k < 12 || k == 13 || k == 15 | _ => false
  | .push => match o with | .q k => k < 12 || k == 12 || k == 14 | _ => false
  | .port k => o == .q k
  | .m => match o with | .m _ => true | _ => false
  | .m1 => match o with | .m k => k != 0 | _ => false
  | .lc => match o with | .lc _ => true | _ => false
  | .sr => match o with | .sr _ => true | _ => false
  | .sr14 => match o with | .sr k => k < 15 | _ => false
  | .z => o == .z
  | .absent => o == .absent && t != .none
  | .imm => o == .imm && t != .b128
  | .none => o == .none

/-- What an instruction's entry says of its word: the types, the classes of each field, the X layout, privilege, and whether it aborts
an open try with code 7 (R47, R50, R52, R54, R56; spec/08 R207). -/
structure Entry where
  tOk : IWord → Bool := fun w => w.t == .none
  d : List Cls := [.none]
  a : List Cls := [.none]
  b : List Cls := [.none]
  c : List Cls := [.none]
  more : Nat → IWord → Bool := fun _ _ => true
  xOk : IWord → Bool := fun w => w.x == 0#32
  priv : Bool := false
  sync : Bool := false
  moves : Bool := true          -- a queue named in a field is transferred

/-- The type is one of a list. -/
def tIn (ts : List Ty) (w : IWord) : Bool := ts.contains w.t

/-- X is all zero, unless B is an immediate (R51, R117). -/
def xZero (w : IWord) : Bool := w.b == .imm || w.x == 0#32

/-- The arithmetic layout with the modifiers the entry accepts (R52). -/
def xArith (cnd ai sat rnd : Bool) (w : IWord) : Bool :=
  w.b == .imm ||
    (fld w.x 31 8 == 0 && (cnd || fld w.x 7 5 == 0) && (ai || !flg w.x 4) && (sat || !flg w.x 3) &&
      fld w.x 2 0 < 5 && (rnd || fld w.x 2 0 == 0))

/-- The memory layout with the orders accepted and the fields used (R54, R184). -/
def xMem (orders : List Nat) (scp hnt ofs : Bool) (w : IWord) : Bool :=
  w.b == .imm ||
    (orders.contains (fld w.x 26 24) && (scp || fld w.x 29 27 == 0) && (hnt || fld w.x 31 30 == 0) && (ofs || fld w.x 23 0 == 0))

/-- Privileged special registers (R46). -/
def srPriv (o : Operand) : Bool := match o with | .sr k => 16 ≤ k | _ => false

/-- The trap of the checks of R57 that depend on the word and on privilege, in their order. -/
def wordTrap (e : Entry) (n : Nat) (handler : Bool) (w : IWord) : Option Cause :=
  let ok := fun (cs : List Cls) (o : Operand) => cs.any (fun c => c.has w.t n o)
  if !e.tOk w then some .illType
  else if !(ok e.d w.d && ok e.a w.a && ok e.b w.b && ok e.c w.c && e.more n w) then some .illOperand
  else if !e.xOk w then some .illModifier
  else if (e.priv || srPriv w.d || srPriv w.a || srPriv w.b || srPriv w.c) && !handler then some .privileged
  else none

/-- A field that transfers a queue. -/
def isQ (o : Operand) : Bool := match o with | .q _ => true | _ => false

/-- The instruction transfers a queue, or its entry aborts a try by itself (spec/08 R207 code 7). -/
def syncs (e : Entry) (w : IWord) : Bool :=
  e.sync || (e.moves && (isQ w.d || isQ w.a || isQ w.b || isQ w.c))

/-! ### The checks of R57 -/

/-- The registers of a lane's group. -/
def laneRegs (s : State) (k : LaneId) : Nat := match s.group? (LaneId.grp k) with | some g => g.nregs | none => 0

/-- What the checks before an instruction's own traps say of one lane. -/
inductive Gate where
  | go
  | skip                        -- guarded off: the lane goes on at the next instruction (spec/02 R57, spec/05 R118)
  | wait
  | trap (t : TrapInfo)
  | abort (code : Nat)
  deriving DecidableEq, Repr

/-- A register of a lane. -/
def Lane.reg (l : Lane) (n : Nat) : Reg := l.regs.getD n ⟨0, true⟩

/-- The guard of a word in a lane (R44): none while its register is empty. -/
def guardOf (w : IWord) (l : Lane) : Option Bool :=
  if w.ge then
    let r := l.reg w.gr
    if r.full then some (flg r.val w.gb != w.gn) else none
  else some true

/-- A write to a line that the lane's open try tracks has been applied (spec/08 R206). -/
def Lane.inConflict (l : Lane) : Bool := match l.spec with | some t => t.conflict | none => false

/-- The checks of R57 up to the instruction's own traps, with the conflicts of R206 before them and the code-7 abort of R207 after. -/
def gate (e : Entry) (w : IWord) (k : LaneId) (l : Lane) (s : State) : Gate :=
  if l.inConflict then .abort 4
  else if w.ge && laneRegs s k ≤ w.gr then .trap (TrapInfo.plain .illOperand 0)
  else
    match guardOf w l with
    | none => .wait
    | some false => .skip
    | some true =>
      match wordTrap e (laneRegs s k) l.inHandler w with
      | some c => .trap (TrapInfo.plain c 0)
      | none => if l.spec.isSome && syncs e w then .abort 7 else .go

/-- A lane's turn at an instruction behind its gate. -/
def gated (e : Entry) (w : IWord) (f : LaneId → Lane → State → LaneOut) (k : LaneId) (l : Lane) (s : State) : LaneOut :=
  match gate e w k l s with
  | .go => f k l s
  | .skip => .ok (s.setLane k (l.advance s))
  | .wait => .wait
  | .trap t => .trap t
  | .abort c => .abort s c 0

/-- The lanes of the bundle perform an instruction one by one (R57, spec/03 R89). -/
def perLane (e : Entry) (f : IWord → LaneId → Lane → State → LaneOut) (w : IWord) (s : State) : State :=
  runLanes (gated e w (f w)) s

/-! ### Special registers (R46) -/

/-- tstat (spec/08 R211). -/
def Lane.tstat (l : Lane) : Word :=
  BitVec.ofNat 32 (l.tsUser.toNat * 2 ^ 16 + (match l.spec with | some t => t.depth | none => 0) * 2 ^ 8 + b2n l.tsKill * 2 ^ 7 + l.tsCode.toNat)

/-- The warp owns its core's matrix engine. -/
def ownsMatrix (s : State) (k : LaneId) : Bool := (s.core (laneCore s k)).mx.owner == some (LaneId.wid k)

/-- qstat (spec/08 R203). -/
def qstat (s : State) (k : LaneId) : Word :=
  let g := LaneId.grp k
  let x := s.core (laneCore s k)
  let own := ownsMatrix s k
  let ne := (List.range 12).map (fun n => match queueOf s g n with | some q => b2n (q.count != 0) * 2 ^ n | none => 0)
  let cf := (List.range 12).map (fun n => b2n (queueOf s g n).isSome * 2 ^ (12 + n))
  let cd := match s.warp? (LaneId.wid k) with | some w => !w.cd.isEmpty | none => false
  BitVec.ofNat 32 (ne.foldl (· + ·) 0 + cf.foldl (· + ·) 0 + b2n (own && !x.mx.mr.isEmpty) * 2 ^ 24 + b2n cd * 2 ^ 25 +
    b2n (own && decide (256 ≤ x.mx.mq.length)) * 2 ^ 26 + b2n (decide (64 ≤ (engineCmds s (laneCore s k)).length)) * 2 ^ 27)

/-- The value of special register 0xA0 + n in a lane (R46). -/
def srRead (s : State) (k : LaneId) (l : Lane) (n : Nat) : Nat :=
  let grid := s.grid? (gangGrid s k.gang)
  match n with
  | 0 => k.lane
  | 1 => k.lane / 4
  | 2 => k.warp
  | 3 => k.group
  | 4 => (match s.gang? k.gang with | some g => g.index | none => 0)
  | 5 => (match grid with | some g => g.seq % 2 ^ 32 | none => 0)
  | 6 => (match s.group? (LaneId.grp k) with | some g => g.nwarps | none => 0)
  | 7 => (match s.gang? k.gang with | some g => g.ngroups | none => 0)
  | 8 => (match grid with | some g => g.ngang | none => 0)
  | 9 => (s.core (laneCore s k)).cyc % 2 ^ 64
  | 10 => l.fflags.toNat
  | 11 => l.fcsr.toNat
  | 12 => l.tstat.toNat
  | 13 => (qstat s k).toNat
  | 14 => laneCtx s k
  | 16 => l.handler.cause.toNat
  | 17 => l.handler.pc.toNat
  | 18 => l.handler.addr.toNat
  | 19 => l.handler.mask.toNat
  | 20 => l.handler.info.toNat
  | _ => 0

/-- A write of a special register: those marked RO ignore it (R46, R48). -/
def Lane.srWrite (l : Lane) (n v : Nat) : Lane :=
  match n with
  | 10 => { l with fflags := BitVec.ofNat 6 v }
  | 11 => l.setFcsr (BitVec.ofNat 32 v)
  | 16 => l.setHandler (fun h => { h with cause := BitVec.ofNat 6 v })
  | 17 => l.setHandler (fun h => { h with pc := BitVec.ofNat 64 v })
  | 18 => l.setHandler (fun h => { h with addr := BitVec.ofNat 64 v })
  | 20 => l.setHandler (fun h => { h with info := BitVec.ofNat 32 v })
  | _ => l

/-! ### Sources (R14, R19, R20, R48, R49, R51) -/

/-- The immediate of type `t` (R51). -/
def immOf (t : Ty) (x : Word) : Nat :=
  match t with
  | .i64 => (x.signExtend 64).toNat
  | .b64 | .n64 => x.toNat
  | _ => x.toNat % 2 ^ min (tyWidth t) 32

/-- What a source gives. -/
inductive Rd where
  | val (s : State) (v : Nat)
  | wait
  | trap (t : TrapInfo)
  deriving DecidableEq, Repr

/-- The value in `n` registers from `r` up, low register first; none while one is empty. -/
def Lane.readRegs (l : Lane) (r n : Nat) : Option Nat :=
  let rs := (List.range n).map (fun i => l.reg (r + i))
  if rs.all (fun x => x.full) then some (rs.foldr (fun x a => x.val.toNat + 2 ^ 32 * a) 0) else none

/-- The lane's next queue transfer may be performed (spec/12 R246). -/
def acquired (s : State) (k : LaneId) : Bool := match s.lane? k with | some l => l.acquired | none => true

/-- Pop `n` entries of a queue register (R18 to R22, R198, R259). -/
def popQ (s : State) (k : LaneId) (q n : Nat) (wait : Bool) (dcode : Nat) : Rd :=
  let g := LaneId.grp k
  let empty := if wait then Rd.trap (TrapInfo.plain .queueEmptyTrap (BitVec.ofNat 32 q)) else Rd.wait
  let value := fun (es : List Nat) => es.foldr (fun e a => e + 2 ^ 32 * a) 0
  if !acquired s k then .wait
  else if q < 12 then
    match queueOf s g q with
    | none => .trap (TrapInfo.plain .queueUnconfigured (BitVec.ofNat 32 q))
    | some x =>
      if x.count < n then empty
      else
        let bytes := (List.range n).map x.byteOf
        match bytes.find? (fun b => roadSpad s (laneDie s k) (laneCtx s k) g b 4) with
        | some _ => .trap (accTrap .roadworks (BitVec.ofNat 64 (x.byteOf 0)) (accInfo dcode .spad false (4 * n) false))
        | none => .val (queueDrop s g q x n) (value (queuePeek s g x n))
  else if q = 13 then
    if !ownsMatrix s k then .trap (TrapInfo.plain .matrixNotOwner 0)
    else
      let x := s.core (laneCore s k)
      if x.mx.mr.length < n then empty
      else .val (s.setCore (laneCore s k) { x with mx := { x.mx with mr := x.mx.mr.drop n } }) (value ((x.mx.mr.take n).map (·.toNat)))
  else
    match s.warp? (LaneId.wid k) with
    | some w =>
      if w.cd.length < n then empty
      else .val (s.setWarp (LaneId.wid k) { w with cd := w.cd.drop n }) (value ((w.cd.take n).map (·.toNat)))
    | none => empty

/-- Read a source as type `t` (R14, R19, R20, R48, R49, R51, R141): the low bits of the type's width. `absent` reads as the absent code of the
instruction's type T, in an operand of another type too (R48): cut to an operand of fewer bits, and extended with zeros in one of more, where it
is a present value, the model's choice (log 39). That lc, a 32-bit source by spec/05 R128, may also stand where the type has 64 bits,
zero-extended, is the model's choice (log 43). -/
def readSrc (s : State) (k : LaneId) (l : Lane) (w : IWord) (o : Operand) (wait : Bool) (t : Ty) : Rd :=
  let cut := fun (v : Nat) => v % 2 ^ tyWidth t
  match o with
  | .g r =>
    match l.readRegs r (tyRegs t) with
    | some v => .val s (cut v)
    | none => if wait then .trap (TrapInfo.plain .emptyRead (BitVec.ofNat 32 o.code)) else .wait
  | .q n =>
    match popQ s k n (tyRegs t) wait w.d.code with
    | .val s v => .val s (cut v)
    | r => r
  | .lc n => .val s (cut ((l.lc.getD n 0#32).toNat))
  | .sr n => .val s (cut (srRead s k l n))
  | .absent => .val s (cut (absentOf (if w.t = .none then t else w.t)))
  | .imm => .val s (immOf t w.x)
  | _ => .val s 0

/-! ### Destinations (R13, R15, R18 to R22, R141) -/

/-- A value of type `t` as it stands in registers (R141). A b8 or b16 value, of which R141 says nothing, is zero-extended (log 39). -/
def extend (t : Ty) (v : Nat) : Nat :=
  if tyWidth t < 32 ∧ tyKind t = .int then wrapInt 32 (sext (tyWidth t) v) else v % 2 ^ tyWidth t

/-- The 32-bit parts of a value, low first. -/
def partsOf : Nat → Nat → List Word
  | 0, _ => []
  | n + 1, v => BitVec.ofNat 32 v :: partsOf n (v / 2 ^ 32)

/-- Fill `vs` into registers from `r` up. -/
def Lane.fillRegs (l : Lane) (r : Nat) (vs : List Word) : Lane := (vs.zipIdx).foldl (fun l p => l.setReg (r + p.2) p.1) l

/-- The registers can be written: each is full, or no producer is pending for it (R15). One whose delivery failed is empty with no producer
(spec/08 R190). -/
def Lane.regsFull (l : Lane) (rs : List Nat) : Bool := rs.all (fun r => (l.reg r).full || !l.pend.any (fun p => p.dst.contains r))

/-- The registers a destination of type `t` names. -/
def destRegs (o : Operand) (t : Ty) : List Nat :=
  match o with | .g r => (List.range (tyRegs t)).map (r + ·) | _ => []

/-- What pushing `es` to a queue register comes to (R18 to R21, R261). -/
def pushQ (s : State) (k : LaneId) (q : Nat) (es : List Word) (bcode : Nat) : CmdOut :=
  let g := LaneId.grp k
  if !acquired s k then .wait
  else if q < 12 then
    match queueOf s g q with
    | none => .trap (TrapInfo.plain .queueUnconfigured (BitVec.ofNat 32 q))
    | some x =>
      if x.cap < x.count + es.length then .wait
      else
        let bytes := (List.range es.length).map (fun i => x.byteOf (x.count + i))
        match bytes.find? (fun b => roadSpad s (laneDie s k) (laneCtx s k) g b 4) with
        | some _ => .trap (accTrap .roadworks (BitVec.ofNat 64 (x.byteOf x.count)) (accInfo bcode .spad true (4 * es.length) false))
        | none => .issued (queuePush s g q (es.map (·.toNat)) (laneTag s k 0 [])) 0
  else if q = 12 then
    if !ownsMatrix s k then .trap (TrapInfo.plain .matrixNotOwner 0)
    else
      let x := s.core (laneCore s k)
      if 256 < x.mx.mq.length + es.length then .wait
      else .issued (s.setCore (laneCore s k) { x with mx := { x.mx with mq := x.mx.mq ++ es } }) 0
  else
    es.foldl (fun o e => match o with | .issued s _ => cqPush s k e | o => o) (.issued s 0)

/-- Own traps of queue fields that no source value decides: an unconfigured queue (R199), a port of an engine the warp does not own
(R21). -/
def queueTrap (s : State) (k : LaneId) (w : IWord) : Option TrapInfo :=
  [w.a, w.b, w.c, w.d].findSome? (fun o =>
    match o with
    | .q n =>
      if n < 12 ∧ (queueOf s (LaneId.grp k) n).isNone then some (TrapInfo.plain .queueUnconfigured (BitVec.ofNat 32 n))
      else if (n = 12 ∨ n = 13) ∧ ownsMatrix s k = false then some (TrapInfo.plain .matrixNotOwner 0)
      else none
    | _ => none)

/-- The destination can take its write now (R15, R20): its registers are full, its queue has room. -/
def destReady (s : State) (k : LaneId) (l : Lane) (w : IWord) (t : Ty) : Bool :=
  match w.d with
  | .g _ => l.regsFull (destRegs w.d t)
  | .q n => (match pushQ s k n (List.replicate (tyRegs t) 0#32) w.b.code with | .wait => false | _ => true)
  | _ => true

/-- Deliver the result of an instruction that writes at issue, and go on (R15, R108, R141, R142): `s` holds the state after the
sources were read. A push to the destination queue that traps, as with ROADWORKS, leaves the source queues unpopped and the flags unraised, unlike
FP_TRAP: the model's choice (log 40). -/
def finish (s : State) (k : LaneId) (w : IWord) (t : Ty) (v : Nat) (fl : Flags) : LaneOut :=
  match s.lane? k with
  | none => .ok s
  | some l =>
    if !destReady s k l w t then .wait
    else if l.fpTraps fl then .trapWith (s.setLane k (l.raise fl)) (fpTrap fl)
    else
      let l := l.raise fl
      let parts := partsOf (tyRegs t) (extend t v)
      match w.d with
      | .g r => .ok (s.setLane k ((l.fillRegs r parts).advance s))
      | .q n =>
        (match pushQ (s.setLane k l) k n parts w.b.code with
         | .issued s _ =>
           (match s.lane? k with
            | some l => .ok (s.setLane k (l.advance s))
            | none => .ok s)
         | .trap t => .trap t
         | .trapWith s t => .trapWith s t
         | .wait => .wait
         | .adm s => .adm s)
      | .sr n => .ok (s.setLane k ((l.srWrite n v).advance s))
      | _ => .ok (s.setLane k (l.advance s))

/-- Read A, B and C in order with their types (R19), then continue. Where several sources are empty, the first of A, B and C decides between
the wait and EMPTY_READ, a wait on an earlier one comes before a later one's trap, and a trap of a later source undoes an earlier
source's pop: the model's choices (log 40). -/
def withSrcs (s : State) (k : LaneId) (l : Lane) (w : IWord) (ta tb tc : Ty) (f : State → Nat → Nat → Nat → LaneOut) : LaneOut :=
  match readSrc s k l w w.a w.wa ta with
  | .wait => .wait
  | .trap t => .trap t
  | .val s a =>
    match readSrc s k l w w.b w.wb tb with
    | .wait => .wait
    | .trap t => .trap t
    | .val s b =>
      match readSrc s k l w w.c w.wc tc with
      | .wait => .wait
      | .trap t => .trap t
      | .val s c => f s a b c

end Sys2Proof.Machine
end

