-- ==== Sys2Proof/Machine/Collect.lean ====
section
/-! DEFINITION. Collectives (spec/03 R79 to R82, spec/07 R169, R170, R180): a lane that reaches one parks there, and the collective
performs once every lane of its mask stands at it. -/

namespace Sys2Proof.Machine

/-- What a lane with a true guard, or with a false one, needs before it arrives. -/
abbrev Arrive := LaneId → Lane → State → Gate

/-- One lane reaches a collective (R79, R80): it parks, passes on, waits or traps. -/
def arrive (e : Entry) (w : IWord) (m : Nat) (on off : Arrive) (k : LaneId) (l : Lane) (s : State) : LaneOut :=
  let park := fun (g : Gate) => match g with
    | .go => LaneOut.ok (s.setLane k { l with st := .coll m })
    | .skip => .ok (s.setLane k (({ l with st := .run } : Lane).advance s))
    | .wait => .wait
    | .trap t => .trap t
    | .abort c => .abort s c 0
  match gate e w k l s with
  | .go => park (on k l s)
  | .skip => if (wordTrap e (laneRegs s k) l.inHandler w).isSome then .ok (s.setLane k (l.advance s)) else park (off k l s)
  | g => park g

/-- The guard of a parked lane is true. -/
def guardOn (w : IWord) (s : State) (k : LaneId) : Bool :=
  match s.lane? k with | some l => guardOf w l == some true | none => false

/-- Lanes leave their parking place and run. -/
def unpark (s : State) (ls : List LaneId) : State :=
  ls.foldl (fun s k => match s.lane? k with | some l => s.setLane k { l with st := .run } | none => s) s

/-- The open tries of the participants are not one try: some lane stands outside or in a try of another TRY (spec/07 R180). -/
def mixedTries (s : State) (ls : List LaneId) : Bool :=
  (ls.map (fun k => match s.lane? k with | some l => l.spec.map (fun (t : Try) => t.at_) | none => none)).firsts.length > 1

/-- The lanes of a warp. -/
def lanesOfWarp (v : WarpId) : List LaneId := (List.range 32).map (fun i => ⟨v.gang, v.group, v.warp, i⟩)

/-- The check of a collective of warp `v` at the bundle's PC with mask number `m` (R79, spec/07 R179, R180): parked lanes outside the
mask raise MASK_MISMATCH; when every lane of the mask is parked here, `perform` runs on the participants. One whose access is parked at a Square
is waited for (R81). A participant whose try has met a
conflict aborts instead (spec/08 R206), and the collective does not issue. -/
def collCheck (m : Nat) (perform : WarpId → List LaneId → State → State) (s : State) (v : WarpId) : State :=
  match s.warp? v with
  | none => s
  | some x =>
    let mask := x.masks.getD m 0#32
    let here := (warpLanes s v).filter (fun p => p.2.st == .coll m && p.2.pc == s.cur.pc)
    let bad := here.filter (fun p => !flg mask p.1)
    let s := if bad.isEmpty then s else formTraps s s.cur.pc s.cur.len
      (bad.map (fun p => ((⟨v.gang, v.group, v.warp, p.1⟩ : LaneId), TrapInfo.plain .maskMismatch 0)))
    let parts := (setBits 32 mask).map (fun i => (⟨v.gang, v.group, v.warp, i⟩ : LaneId))
    if !here.isEmpty && !parts.isEmpty && parts.all (fun k => here.any (fun p => p.1 == k.lane && !p.2.stopped) && !sqHeld s k) then
      let hit := parts.filter (fun k => match s.lane? k with | some l => l.inConflict | none => false)
      if !hit.isEmpty then notIssued (abortTries s hit 4 0) hit
      else if mixedTries s parts then
        notIssued (abortTries s ((lanesOfWarp v).filter (fun k => match s.lane? k with | some l => l.spec.isSome | none => false)) 8 0) parts
      else perform v parts s
    else s

/-- A collective: the lanes of the bundle arrive, then the first of their warps is checked; the others are checked each in a bundle of its own,
at a later issue slot (R79). A parked lane that the collective turns away continues past it (R81). -/
def collective (e : Entry) (w : IWord) (m : Nat) (on off : Arrive) (perform : WarpId → List LaneId → State → State) (s : State) : State :=
  let s := runLanes (arrive e w m on off) s
  match warpsOf s.cur.lanes with
  | [] => s
  | v :: _ => collCheck m perform s v

/-- Deliver each active participant its result together, after all were read; those with a false guard go on (R80, spec/07 R169,
R178). -/
def deliverAll (w : IWord) (td : Ty) (parts : List LaneId) (rs : List (LaneId × Nat × Flags)) (s : State) : State :=
  let s := unpark s parts
  let s := advanceOff s
  let r := rs.foldl (fun (a : State × List (LaneId × TrapInfo)) p =>
    match finish a.1 p.1 w td p.2.1 p.2.2 with
    | .ok s => (s, a.2)
    | .trap t => (a.1, a.2 ++ [(p.1, t)])
    | .trapWith s t => (s, a.2 ++ [(p.1, t)])
    | _ => a) (s, [])
  formTraps r.1 s.cur.pc s.cur.len r.2
where
  advanceOff (s : State) : State :=
    (parts.filter (fun k => !rs.any (fun p => p.1 == k))).foldl (fun s k =>
      match s.lane? k with | some l => s.setLane k (l.advance s) | none => s) s

end Sys2Proof.Machine
end

