-- ==== Sys2Proof/Machine/CrossLane.lean ====
section
/-! DEFINITION. The cross-lane group (spec/07 R166 to R182): shuffles, quad exchanges, votes, ELECT, reductions, scans and MATCH. -/

namespace Sys2Proof.Machine

/-! ### Fields (R166 to R168) -/

/-- Classes a, d and idx of R166. -/
def clsXa : List Cls := [.gT, .sr14, .z, .absent]
def clsXd : List Cls := [.gT, .z]
def clsXd32 : List Cls := [.g, .z]
def clsIdx : List Cls := [.g, .imm]

/-- The participation mask (R167, R168). -/
def mskOf (w : IWord) : Nat := if w.b = .imm then 0 else fld w.x 3 0

/-- The cross-lane layout (R167): `opn` for a reduction or scan; RND only in its f32 add. -/
def xCross (opn : Bool) (w : IWord) : Bool :=
  w.b == .imm ||
    (fld w.x 31 15 == 0 && fld w.x 7 4 == 0 && decide (fld w.x 3 0 < 12) &&
      (if opn then decide (fld w.x 11 8 < 6) else fld w.x 11 8 == 0) &&
      (if opn && fld w.x 11 8 == 0 && w.t == .f32 then decide (fld w.x 14 12 < 5) else fld w.x 14 12 == 0))

/-- The types of a reduction's or scan's operation (R175). A reserved OPN, 6 to 15, has no set of types there: it accepts those of `.add`, so that it
raises ILL_MODIFIER with one of them and ILL_TYPE with another, the model's choice (log 44). -/
def redTypes (w : IWord) : Bool :=
  match fld w.x 11 8 with
  | 0 => tIn [.i32, .i64, .n32, .n64, .f32, .b32, .b64] w
  | 1 | 2 => tIn [.i32, .i64, .n32, .n64, .f32] w
  | 3 | 4 | 5 => tIn [.b32, .b64] w
  | _ => tIn [.i32, .i64, .n32, .n64, .f32, .b32, .b64] w

def entryShuffle : Entry := { tOk := tIn [.b32, .b64], d := clsXd, a := clsXa, b := clsIdx, xOk := xCross false }
def entryQuad : Entry := { tOk := tIn [.b32, .b64], d := clsXd, a := clsXa, xOk := xCross false }
def entryVote : Entry := { tOk := tIn [.b32], d := clsXd32, a := clsXa, xOk := xCross false }
def entryReduce : Entry := { tOk := redTypes, d := clsXd, a := clsXa, xOk := xCross true }
def entryMatch : Entry := { tOk := tIn [.b32, .b64, .i32, .i64, .n32, .n64, .f32], d := clsXd32, a := clsXa, xOk := xCross false }
def entryElect : Entry := { d := clsXd32, xOk := xCross false }

/-! ### Arrival and reads (R169, R170, R172) -/

/-- A lane with a true guard has arrived when its sources can be read and its destination has no pending producer (R169). -/
def crossOn (w : IWord) (td : Ty) : Arrive := fun k l s =>
  match readSrc s k l w w.a w.wa w.t with
  | .wait => .wait
  | .trap t => .trap t
  | .val s _ =>
    match readSrc s k l w w.b w.wb .b32 with
    | .wait => .wait
    | .trap t => .trap t
    | .val s _ => if destReady s k l w td then .go else .wait

/-- A lane with a false guard waits for its A and never raises EMPTY_READ (R169). -/
def crossOff (w : IWord) : Arrive := fun k l s =>
  match readSrc s k l w w.a false w.t with
  | .val _ _ => .go
  | _ => .wait

/-- A of a lane as its register stands, full or not (R82, R170). -/
def peekA (s : State) (w : IWord) (k : LaneId) : Nat :=
  match s.lane? k with
  | none => 0
  | some l =>
    match w.a with
    | .g r => ((List.range (tyRegs w.t)).foldr (fun i a => (l.reg (r + i)).val.toNat + 2 ^ 32 * a) 0) % 2 ^ tyWidth w.t
    | .sr n => srRead s k l n % 2 ^ tyWidth w.t
    | .absent => absentOf w.t
    | _ => 0

/-- idx of a lane: 32 bits whatever T is (R166). -/
def idxOf (s : State) (w : IWord) (k : LaneId) : Nat :=
  match s.lane? k, w.b with
  | some l, .g r => (l.reg r).val.toNat
  | some _, .imm => w.x.toNat
  | _, _ => 0

/-- A lane of the same warp. -/
def sibling (k : LaneId) (i : Nat) : LaneId := { k with lane := i }

/-- A cross-lane instruction whose active participants each receive `f` of the state, the participants, the active ones and the
receiver. -/
def crossLane (e : Entry) (w : IWord) (td : Ty) (f : State → List LaneId → List LaneId → LaneId → Res) (s : State) : State :=
  collective e w (mskOf w) (crossOn w td) (crossOff w) (fun _ parts s =>
    let act := parts.filter (guardOn w s)
    deliverAll w td parts (act.map (fun k => (k, f s parts act k))) s) s

/-! ### Shuffles and quads (R171, R172) -/

/-- A shuffle with source lane `src` (R171). -/
def shuffleFrom (w : IWord) (src : State → List LaneId → LaneId → Option Nat) (s : State) (parts act : List LaneId) (k : LaneId) : Res :=
  match src s act k with
  | some n => (if parts.contains (sibling k n) then peekA s w (sibling k n) else peekA s w k, 0)
  | none => (peekA s w k, 0)

/-- Lane `L XOR n` as numbers below 32. -/
def laneXor (a b : Nat) : Nat := Nat.xor (a % 32) (b % 32)

/-- The lowest-index lane of a list of active lanes. -/
def firstActive (act : List LaneId) (k : LaneId) : LaneId := (act.head?).getD k

def srcShfi (w : IWord) (s : State) (_ : List LaneId) (k : LaneId) : Option Nat := some (idxOf s w k % 32)
def srcShfu (w : IWord) (s : State) (_ : List LaneId) (k : LaneId) : Option Nat :=
  if k.lane < idxOf s w k then none else some (k.lane - idxOf s w k)
def srcShfd (w : IWord) (s : State) (_ : List LaneId) (k : LaneId) : Option Nat :=
  if 31 < k.lane + idxOf s w k then none else some (k.lane + idxOf s w k)
def srcShfx (w : IWord) (s : State) (_ : List LaneId) (k : LaneId) : Option Nat := some (laneXor k.lane (idxOf s w k))
def srcBcst (w : IWord) (s : State) (act : List LaneId) (k : LaneId) : Option Nat := some (idxOf s w (firstActive act k) % 32)

/-- A quad exchange with partner `p` (R172): a helper lane lends its register where the partner does not supply. -/
def quadFrom (w : IWord) (p : State → LaneId → Nat) (s : State) (_ _ : List LaneId) (k : LaneId) : Res := (peekA s w (sibling k (p s k)), 0)

/-- SHFI (R171). -/
def execShfi (w : IWord) (s : State) : Host.Outcome State Fault Refusal := .next (crossLane entryShuffle w w.t (shuffleFrom w (srcShfi w)) s)
/-- SHFU (R171). -/
def execShfu (w : IWord) (s : State) : Host.Outcome State Fault Refusal := .next (crossLane entryShuffle w w.t (shuffleFrom w (srcShfu w)) s)
/-- SHFD (R171). -/
def execShfd (w : IWord) (s : State) : Host.Outcome State Fault Refusal := .next (crossLane entryShuffle w w.t (shuffleFrom w (srcShfd w)) s)
/-- SHFX (R171). -/
def execShfx (w : IWord) (s : State) : Host.Outcome State Fault Refusal := .next (crossLane entryShuffle w w.t (shuffleFrom w (srcShfx w)) s)
/-- BCST (R171). -/
def execBcst (w : IWord) (s : State) : Host.Outcome State Fault Refusal := .next (crossLane entryShuffle w w.t (shuffleFrom w (srcBcst w)) s)
/-- QSWH (R172). -/
def execQswh (w : IWord) (s : State) : Host.Outcome State Fault Refusal :=
  .next (crossLane entryQuad w w.t (quadFrom w (fun _ k => laneXor k.lane 1)) s)
/-- QSWV (R172). -/
def execQswv (w : IWord) (s : State) : Host.Outcome State Fault Refusal :=
  .next (crossLane entryQuad w w.t (quadFrom w (fun _ k => laneXor k.lane 2)) s)
/-- QSWD (R172). -/
def execQswd (w : IWord) (s : State) : Host.Outcome State Fault Refusal :=
  .next (crossLane entryQuad w w.t (quadFrom w (fun _ k => laneXor k.lane 3)) s)
/-- QBCST (R172). -/
def execQbcst (w : IWord) (s : State) : Host.Outcome State Fault Refusal :=
  .next (crossLane entryShuffle w w.t (quadFrom w (fun s k => k.lane / 4 * 4 + idxOf s w k % 4)) s)

/-! ### Votes and ELECT (R173, R174) -/

/-- The active lanes with a true predicate. -/
def trueLanes (w : IWord) (s : State) (act : List LaneId) : List LaneId := act.filter (fun k => peekA s w k != 0)

/-- VANY (R173). -/
def execVany (w : IWord) (s : State) : Host.Outcome State Fault Refusal :=
  .next (crossLane entryVote w .b32 (fun s _ act _ => (b2n (!(trueLanes w s act).isEmpty), 0)) s)
/-- VALL (R173). -/
def execVall (w : IWord) (s : State) : Host.Outcome State Fault Refusal :=
  .next (crossLane entryVote w .b32 (fun s _ act _ => (b2n ((trueLanes w s act).length == act.length), 0)) s)
/-- VBAL (R173). -/
def execVbal (w : IWord) (s : State) : Host.Outcome State Fault Refusal :=
  .next (crossLane entryVote w .b32 (fun s _ act _ => ((maskOf ((trueLanes w s act).map (·.lane))).toNat, 0)) s)
/-- ELECT (R174). -/
def execElect (w : IWord) (s : State) : Host.Outcome State Fault Refusal :=
  .next (crossLane entryElect w .b32 (fun _ _ act k => (b2n (firstActive act k == k), 0)) s)

/-! ### Reductions and scans (R175, R176) -/

/-- The least or greatest of float patterns (R153, R176). -/
def floatExtreme (max : Bool) (vs : List Nat) : Res :=
  let fl := flagIf (vs.any (fun v => (fval .f32 v).isSig)) NV
  match vs.filter (fun v => !(fval .f32 v).isNan) with
  | [] => ((ffmt .f32).nanCode, fl)
  | v :: r => (r.foldl (fun a b => (fminPre .f32 max a b).1) v, fl)

/-- The least or greatest of integer patterns (R176). -/
def intExtreme (t : Ty) (max : Bool) (vs : List Nat) : Nat :=
  match vs with
  | [] => 0
  | v :: r => r.foldl (fun a b => if (if max then intVal t a < intVal t b else intVal t b < intVal t a) then b else a) v

/-- Combine of a nonempty list of present inputs (R176). -/
def combine (opn : Nat) (t : Ty) (mode : RMode) (vs : List Nat) : Res :=
  match opn with
  | 0 =>
    if t = .f32 then
      let (x, fl) := sumV mode (vs.map (fval .f32))
      roundRes .f32 mode false x fl
    else intRes t ((vs.map (intVal t)).foldl (· + ·) 0)
  | 1 => if t = .f32 then floatExtreme false vs else (intExtreme t false vs, 0)
  | 2 => if t = .f32 then floatExtreme true vs else (intExtreme t true vs, 0)
  | 3 => (vs.foldl Nat.land (2 ^ tyWidth t - 1), 0)
  | 4 => (vs.foldl Nat.lor 0, 0)
  | _ => (vs.foldl Nat.xor 0, 0)

/-- The identity of an operation (R175, spec/04 R95). -/
def redIdentity (opn : Nat) (t : Ty) : Nat :=
  match opn with
  | 1 => if t = .f32 then fminId .f32 false else maxCodeI t
  | 2 => if t = .f32 then fminId .f32 true else minCodeI t
  | 3 => 2 ^ tyWidth t - 1
  | _ => 0

/-- The mode of a reduction or scan in a receiving lane (R176). -/
def redMode (w : IWord) (s : State) (k : LaneId) : RMode :=
  match s.lane? k with | some l => RMode.ofCode (fld w.x 14 12) l.rm | none => .rne

/-- One receiver of REDW, SCANI or SCANE (R176): `takes` says whether lane J's input goes into lane L's result. -/
def redTo (w : IWord) (takes : Nat → Nat → Bool) (empty : Nat) (s : State) (_ act : List LaneId) (k : LaneId) : Res :=
  let vs := (act.filter (fun j => takes j.lane k.lane && !isAbsent w.t (peekA s w j))).map (peekA s w)
  if vs.isEmpty then (empty, 0) else combine (fld w.x 11 8) w.t (redMode w s k) vs

/-- SCANI (R176). -/
def execScani (w : IWord) (s : State) : Host.Outcome State Fault Refusal :=
  .next (crossLane entryReduce w w.t (redTo w (fun j l => decide (j ≤ l)) (redIdentity (fld w.x 11 8) w.t)) s)
/-- SCANE (R176). -/
def execScane (w : IWord) (s : State) : Host.Outcome State Fault Refusal :=
  .next (crossLane entryReduce w w.t (redTo w (fun j l => decide (j < l)) (redIdentity (fld w.x 11 8) w.t)) s)
/-- REDW (R176). -/
def execRedw (w : IWord) (s : State) : Host.Outcome State Fault Refusal :=
  .next (crossLane entryReduce w w.t (redTo w (fun _ _ => true) (absentOf w.t)) s)

/-- MATCH in one receiver (R177). -/
def matchTo (w : IWord) (s : State) (_ act : List LaneId) (k : LaneId) : Res :=
  let v := peekA s w k
  if isAbsent w.t v then (0, 0) else ((maskOf ((act.filter (fun j => peekA s w j == v)).map (·.lane))).toNat, 0)

/-- MATCH (R177). -/
def execMatchLanes (w : IWord) (s : State) : Host.Outcome State Fault Refusal := .next (crossLane entryMatch w .b32 (matchTo w) s)

end Sys2Proof.Machine
end

