-- ==== Sys2Proof/Machine/Crossing.lean ====
section
/-! DEFINITION. The Crossing before an issue (spec/03 R64 to R75): readiness, paths, keys and bundles, the cycle counters, and the fill
of an instruction's bytes (spec/02 R36, R38, R41, R42). -/

namespace Sys2Proof.Machine

/-! ### Fetch (spec/02 R36, R38, R41) -/

/-- One byte of code, or what failed: cause, walk level, malformed, attempts. -/
inductive CodeByte where
  | ok (b : Byte)
  | bad (u : Cause × Nat × Bool × Nat)
  | waits
  deriving DecidableEq, Repr

/-- Fetch one byte (R38; spec/10 R220). -/
def fetchByte (s : State) (d ctx : Nat) (va : Addr) : State × CodeByte :=
  if !canonical va then (s, .bad (.noncanonical, 0xFF, false, 0))
  else if inPrivate va then (s, .bad (.permission, 0xFF, false, 0))
  else
    match vread s d ctx va 1 .fetch with
    | (s, .bytes (b :: _) _ _) => (s, .ok b)
    | (s, .fault c level m) => (s, .bad (c, level, m, 0))
    | (s, .failed f) => (s, .bad (f.cause, f.level, f.malformed, f.attempts))
    | (s, _) => (s, .waits)

/-- Fetch `n` bytes from `va`: those that could be fetched, and what stopped it. -/
def fetchBytes (s : State) (d ctx : Nat) (va : Addr) : Nat → State × List Byte × CodeByte
  | 0 => (s, [], .ok 0)
  | n + 1 =>
    match fetchByte s d ctx va with
    | (s, .ok b) =>
      let (s, bs, r) := fetchBytes s d ctx (va + 1) n
      (s, b :: bs, r)
    | (s, r) => (s, [], r)

/-- Expand the bytes at an address into a word or a fault word (R38); none while a stack is not ready (spec/22 R410). -/
def fillAt (s : State) (core ctx : Nat) (va : Addr) : State × Option (Filled × Option (Cause × Nat × Bool × Nat)) :=
  let d := dieOf core
  match fetchByte s d ctx va with
  | (s, .waits) => (s, none)
  | (s, .bad u) => (s, some (.fault .fetchFault 0 0, some u))
  | (s, .ok h) =>
    match fetchBytes s d ctx va (lengthOf h) with
    | (s, _, .waits) => (s, none)
    | (s, bs, .bad u) => (s, some (.fault .fetchFault bs.length (lengthOf h), some u))
    | (s, bs, .ok _) => (s, some (fill bs, none))

/-- Fill one line of a core's instruction cache (R38, R41). -/
def fillCache (s : State) (core ctx : Nat) (va : Addr) : State × Option Filled :=
  match mfind (s.core core).icache (ctx, va) with
  | some f => (s, some f)
  | none =>
    match fillAt s core ctx va with
    | (s, none) => (s, none)
    | (s, some (f, u)) =>
      let x := s.core core
      (s.setCore core { x with icache := mset x.icache (ctx, va) f
                               icUnder := match u with | some v => mset x.icUnder (ctx, va) v | none => x.icUnder }, some f)

/-- The instruction and the length of what a fill gives. -/
def filledInstr : Filled → Instr × Nat
  | .word i len => (i, len)
  | .fault c off len => (.faultWord c off len, len)

/-! ### Readiness and paths (R64 to R69). `State.blocked` and `State.shorts` name the lanes that wait, `State.met` those at a collective that would
issue, as `refresh` (Sched) finds them before a step. -/

/-- A ready thread (R64): it runs, is not debug-stopped, and its next instruction does not wait. -/
def ready (s : State) (k : LaneId) (l : Lane) : Bool := l.st == .run && !l.stopped && !s.blocked.contains k

/-- A thread in short wait (R64). -/
def shortWait (s : State) (k : LaneId) (l : Lane) : Bool := l.st == .run && !l.stopped && s.shorts.contains k

/-- What brings a pending warp into the active set: a ready thread, or one at a collective that would issue (R73, R74, R79; log 36). -/
def wantsIn (s : State) (k : LaneId) (l : Lane) : Bool := ready s k l || (s.met.contains k && l.st.atColl && !l.stopped)

/-- The lanes of a warp with their names. -/
def warpThreads (s : State) (w : WarpId) : List (LaneId × Lane) :=
  (warpLanes s w).map (fun p => (⟨w.gang, w.group, w.warp, p.1⟩, p.2))

/-- Whether path `a` is better than `b` by the first row of R69: ready threads, latest issue, lower PC. That the ready threads are counted also
where the path was unset is the model's choice (log 4). -/
def pathBetter (x : Warp) (a b : Addr × Nat) : Bool :=
  let la := match mfind x.issuedAt a.1 with | some v => v + 1 | none => 0
  let lb := match mfind x.issuedAt b.1 with | some v => v + 1 | none => 0
  b.2 < a.2 || (b.2 == a.2 && (lb < la || (lb == la && a.1.toNat < b.1.toNat)))

/-- The best of candidate paths. -/
def bestPath (x : Warp) : List (Addr × Nat) → Option Addr
  | [] => none
  | a :: r => some (r.foldl (fun b c => if pathBetter x c b then c else b) a).1

/-- The PCs of a warp that hold ready threads, with how many. -/
def readyPcs (s : State) (w : WarpId) : List (Addr × Nat) :=
  let rs := (warpThreads s w).filter (fun p => ready s p.1 p.2)
  ((rs.map (fun p => p.2.pc)).firsts).map (fun a => (a, (rs.filter (fun p => p.2.pc == a)).length))

/-- Set a warp's current path; the timer returns to 0 at a change (R69). Two paths that go on alternating by the first row then keep a third from
R72's bound, since each change restarts the timer: the model keeps R69 there (log 4). -/
def setPath (s : State) (w : WarpId) (a : Option Addr) : State :=
  match s.warp? w with
  | some x => if x.path = a then s else s.setWarp w { x with path := a, timer := 0 }
  | none => s

/-- The current path of a warp by the first row of R69: one without ready or short-waiting threads is left. -/
def currentPath (s : State) (w : WarpId) (x : Warp) : Option Addr :=
  let keep := match x.path with
    | some a => (warpThreads s w).any (fun p => p.2.pc == a && (ready s p.1 p.2 || shortWait s p.1 p.2))
    | none => false
  if keep then x.path else bestPath x (readyPcs s w)

/-- Bring a warp's path up to date (R69). -/
def repath (s : State) (w : WarpId) : State :=
  match s.warp? w with
  | some x => setPath s w (currentPath s w x)
  | none => s

/-- The YIELD row of R69: the PCs at which the yielding lanes now stand are excluded while another has a ready thread. -/
def yieldPath (s : State) (w : WarpId) (at_ : List Addr) : State :=
  match s.warp? w with
  | some x =>
    let cs := readyPcs s w
    let others := cs.filter (fun p => !at_.contains p.1)
    setPath s w (bestPath x (if others.isEmpty then cs else others))
  | none => s

/-- The path-timer row of R69: the PC, other than the current path, whose oldest ready thread has been ready longest. A timer that has reached
PATHTMR while no such PC has a ready thread stays expired, and takes effect as soon as one has: the model's choice, since R70 does not say (log 4). -/
def timerPath (s : State) (w : WarpId) : State :=
  match s.warp? w with
  | some x =>
    let rs := (warpThreads s w).filter (fun p => ready s p.1 p.2 && some p.2.pc != x.path)
    match rs with
    | [] => s
    | p :: r =>
      let b := r.foldl (fun b c => if b.2.since < c.2.since || (b.2.since == c.2.since && c.2.pc.toNat < b.2.pc.toNat) then c else b) p
      setPath s w (some b.2.pc)
  | none => s

/-! ### Keys and bundles (R65, R66) -/

/-- The partition of a warp (spec/01 R11). -/
def Warp.part (x : Warp) : Nat := x.slot % 4

/-- Warps on a core's partition, of the gangs whose lanes run (spec/01 R30). -/
def partWarps (s : State) (core part : Nat) : List (WarpId × Warp) :=
  s.warps.filter (fun p =>
    p.2.part == part && (match s.group? (WarpId.grp p.1) with | some g => g.core == core | none => false) && gangRuns s p.1.gang)

/-- A candidate key with its warps. -/
structure Key where
  group : GroupId
  pc : Addr
  warps : List WarpId
  size : Nat
  overdue : Nat                 -- one more than the longest wait of an overdue contributor, 0 without one (log 4)
  last : Nat                    -- one more than the latest issue of the group at the PC, 0 for never
  gslot : Nat
  deriving DecidableEq, Repr

/-- The order of R66.3. -/
def Key.better (a b : Key) : Bool :=
  let va := [a.overdue, a.size, a.last]
  let vb := [b.overdue, b.size, b.last]
  if va ≠ vb then decide (vb < va)
  else if a.gslot ≠ b.gslot then a.gslot < b.gslot
  else a.pc.toNat < b.pc.toNat

/-- The candidate keys of a partition with the warps that contribute (R66.1, R66.2). An overdue warp's wait is the count of R68 as it stands: the
model's choice where that count has restarted (log 4). -/
def keysOf (s : State) (core part : Nat) : List Key :=
  let ws := (partWarps s core part).filter (fun p => p.2.active)
  let cs := ws.filterMap (fun p =>
    match p.2.path with
    | some a => if (warpThreads s p.1).any (fun t => t.2.pc == a && ready s t.1 t.2) then some (WarpId.grp p.1, a) else none
    | none => none)
  cs.firsts.map (fun c =>
    let mine := ws.filter (fun p => WarpId.grp p.1 == c.1 && p.2.path == some c.2 &&
      (warpThreads s p.1).any (fun t => t.2.pc == c.2 && ready s t.1 t.2))
    let lanes := ((mine.flatMap (fun p => (warpThreads s p.1).filter (fun t => t.2.pc == c.2 && ready s t.1 t.2))).map (fun t => t.1.lane)).firsts
    { group := c.1, pc := c.2, warps := mine.map Prod.fst, size := lanes.length
      overdue := mine.foldl (fun m p => if p.2.overdue then max m (p.2.starved + 1) else m) 0
      last := match mfind (s.core core).keyIssues (part, c.1, c.2) with | some v => v + 1 | none => 0
      gslot := match s.group? c.1 with | some g => g.gslot | none => 0 })

/-- The lane that fills slot `n` of a key's bundle (R66.4). -/
def slotLane (s : State) (k : Key) (n : Nat) : Option LaneId :=
  let cs := k.warps.filterMap (fun w =>
    let id : LaneId := ⟨w.gang, w.group, w.warp, n⟩
    match s.lane? id, s.warp? w with
    | some l, some x => if l.pc == k.pc && ready s id l then some (id, x) else none
    | _, _ => none)
  match cs with
  | [] => none
  | c :: r => some (r.foldl (fun b x => if x.2.lastIssue < b.2.lastIssue || (x.2.lastIssue == b.2.lastIssue && x.2.slot < b.2.slot) then x else b) c).1

/-- The bundle a partition forms (R66); none while its core is halted (spec/22 R417). -/
def pickBundle (s : State) (core part : Nat) : Option Bundle :=
  match (if (s.core core).halted then [] else keysOf s core part) with
  | [] => none
  | k :: r =>
    let k := r.foldl (fun b c => if c.better b then c else b) k
    some { core := core, part := part, gang := k.group.gang, group := k.group.group, pc := k.pc, len := 0
           lanes := (List.range 32).filterMap (slotLane s k) }

/-! ### Cycles (R68 to R74; spec/01 R29; spec/16 R326; spec/20 R368, R377) -/

/-- The counters of a warp after a cycle that starts now: an active warp with a ready thread at its path counts toward overdue, until it issues
(R68); its timer counts while a ready thread stands elsewhere (R70); a pending warp with a ready thread ages (R74). -/
def tickWarp (s : State) (w : WarpId) (x : Warp) : Warp :=
  let ts := (warpThreads s w).filter (fun t => ready s t.1 t.2)
  let here := ts.any (fun t => some t.2.pc == x.path)
  let away := ts.any (fun t => some t.2.pc != x.path)
  let wants := (warpThreads s w).any (fun t => wantsIn s t.1 t.2)
  { x with starved := if x.active && here then x.starved + 1 else 0
           timer := if x.active && away && flg (s.mreg ⟨.ctxctl, gangCtx s w.gang, 0⟩) 0 then x.timer + 1 else x.timer
           aging := if !x.active && wants then x.aging + 1 else 0 }

/-- For how long a lane has been ready after a cycle that starts now (R69). -/
def tickLane (s : State) (k : LaneId) (l : Lane) : Lane := { l with since := if wantsIn s k l then l.since + 1 else 0 }

/-- What counts a lane's waits after a cycle that starts now: the rest of its MWAIT (spec/16 R326), and how long its accesses have awaited a reply
from another module (spec/22 R413), but for one held there for a missing page (log 11). -/
def Lane.tickWaits (l : Lane) : Lane :=
  { l with st := (match l.st with | .mwait dst (some n) next => .mwait dst (some (n - 1)) next | st => st)
           pend := l.pend.map (fun (p : Pend) => if p.remote && !p.held then { p with waited := p.waited + 1 } else p) }

/-- The core whose cycles a gang's drain counts: that of its first group (spec/20 R368). -/
def drainCore (s : State) (gang : Nat) : Nat := match gangGroups s gang with | g :: _ => (match s.group? g with | some x => x.core | none => 192) | [] => 192

/-- A cycle of a core starts: what counts cycles counts it: of the warps and lanes of the gangs that run there, and of the waits of the gangs that
stand on the close; the counts of a saved gang stand (R88; spec/20 R377). -/
def tick (s : State) (core : Nat) : State :=
  let d := dieOf core
  let s := s.setDie d { s.die d with admq := (s.die d).admq.map (fun r => if r.core = core then { r with waited := r.waited + 1 } else r) }
  let here := fun (g : GroupId) => match s.group? g with | some y => y.core == core | none => false
  let mine := fun (g : GroupId) => gangRuns s g.gang && here g
  let held := fun (g : GroupId) => (match s.gang? g.gang with | some x => x.onClose | none => false) && here g
  { s with
    groups := s.groups.map (fun p =>
      (p.1, if held p.1 && !(s.lanes.any (fun l => LaneId.grp l.1 == p.1 && l.2.stopped)) then { p.2 with wdog := p.2.wdog + 1 } else p.2))
    warps := s.warps.map (fun p => (p.1, if mine (WarpId.grp p.1) then tickWarp s p.1 p.2 else p.2))
    lanes := s.lanes.map (fun p => (p.1,
      let l := if held (LaneId.grp p.1) then p.2.tickWaits else p.2
      if mine (LaneId.grp p.1) then tickLane s p.1 l else l))
    gangs := s.gangs.map (fun p =>
      (p.1, match p.2.st with
        | .draining (some n) => if drainCore s p.1 = core then { p.2 with st := .draining (some (n - 1)) } else p.2
        | _ => p.2)) }

/-- A cycle of a core ends: `cyc` counts it (spec/02 R46), and so does the clock by which issues are told apart in time, on whichever core they
were (R66, R69, R74). -/
def endCycle (core : Nat) (s : State) : State :=
  { s.setCore core { s.core core with cyc := (s.core core).cyc + 1 } with clock := s.clock + 1 }

/-- Bring the paths of a partition's warps up to date, those of pending warps too: a path that is unset takes the first thread to become ready
(R69). -/
def repathPart (s : State) (core part : Nat) : State := (partWarps s core part).foldl (fun s p => repath s p.1) s

end Sys2Proof.Machine
end

