-- ==== Sys2Proof/Machine/MemOps.lean ====
section
/-! DEFINITION. What memory instructions share (spec/08 R183 to R197, R205 to R209; spec/12 R241, R245): addresses and their faults,
the private window, tracked lines and the store buffer of a try, pending deliveries, and the sc order. -/

namespace Sys2Proof.Machine

/-! ### Fields (R54, R184, R186) -/

/-- The fields of the memory layout; a literal in B sets each to its default (R51). -/
def memX (w : IWord) : Word := if w.b = .imm then 0#32 else w.x
def ordOf (w : IWord) : Nat := fld (memX w) 26 24
def scpOf (w : IWord) : Nat := fld (memX w) 29 27
def ofsOf (w : IWord) : Int := sext 24 (fld (memX w) 23 0)

/-- The size in bytes of an access of type `t` (R185). -/
def tyBytes (t : Ty) : Nat := tyWidth t / 8

/-- A base plus the offset modulo 2^64, and modulo 2^32 (R186, R194). -/
def flatAddr (w : IWord) (a : Nat) : Addr := BitVec.ofNat 64 (wrapInt 64 ((a : Int) + ofsOf w))
def spadOff (w : IWord) (a : Nat) : Nat := wrapInt 32 ((a : Int) + ofsOf w)

/-! ### Order of a lane's accesses (spec/12 R241 item 1, R245) -/

/-- FENCE.sc at a scope: the lane's writes and the writes it can meet are applied at every die of the scope (R245). -/
def fenceSc (s : State) (scp : Nat) : State := if 5 ≤ scp then drainAll s else s

/-! ### Pending deliveries (spec/01 R13; R190) -/

/-- A long-latency producer issues: its registers are emptied and the delivery is pending (R13), as an access of the lane's open try where
it has one (R207). -/
def addPend (s : State) (k : LaneId) (p : Pend) : State :=
  match s.lane? k with
  | some l => ({ s with uid := s.uid + 1 } : State).setLane k { (l.emptyRegs p.dst) with pend := l.pend ++ [{ p with id := s.uid, inTry := l.spec.isSome }] }
  | none => s

/-- A pending delivery of the instruction that issues, with nothing that fails it. -/
def pendOf (s : State) (kind : PKind) (dst : List Nat) (vals : Option (List Word)) : Pend :=
  { id := 0, kind := kind, dst := dst, vals := vals, needs := Vec.zero, pc := s.cur.pc, addr := 0, info := 0, remote := false, fail := none,
    inTry := false, waited := 0, acq := false }

/-- The lane goes on, as the state holds it. -/
def goOn (s : State) (k : LaneId) : LaneOut :=
  match s.lane? k with
  | some l => .ok (s.setLane k (l.advance s))
  | none => .ok s

/-- The values that loaded bytes give the registers of type `t` (R185). -/
def loadVals (t : Ty) (bs : List Byte) : List Word := partsOf (tyRegs t) (extend t (ofBytesLE bs))

/-! ### Faults (R189 to R191, R207) -/

/-- An address fault of an access: inside a try it aborts the try with code 5 (R207). -/
def memFault (l : Lane) (s : State) (t : TrapInfo) : LaneOut := if l.spec.isSome then .abort s 5 0 else .trap t

/-- The effective address of an access: an address of the private window becomes one of the lane's segment (spec/10 R215; spec/20
R358). -/
def privAddr (s : State) (k : LaneId) (l : Lane) (va : Addr) : Addr :=
  if inPrivate va then
    s.mreg ⟨.privroot, laneCtx s k, 0⟩ + s.mreg ⟨.privsz, laneCtx s k, 0⟩ * BitVec.ofNat 64 (l.priv.getD 0) + BitVec.ofNat 64 (va.toNat % 2 ^ 32)
  else va

/-- The space of a flat address. -/
def spaceOf (va : Addr) : Space := if inPrivate va then .priv else .flat

/-- The faults of R189 that no translation decides, in their order. -/
def preFault (s : State) (k : LaneId) (l : Lane) (va : Addr) (n : Nat) : Option Cause :=
  if !canonical va then some .noncanonical
  else if va.toNat % n ≠ 0 then some .misaligned
  else if inPrivate va && (l.priv.isNone || decide ((s.mreg ⟨.privsz, laneCtx s k, 0⟩).toNat < va.toNat % 2 ^ 32 + n)) then some .privateBounds
  else if !inPrivate va && roadFlat s (laneDie s k) (laneCtx s k) va.toNat n then some .roadworks
  else none

/-- A replayable fault of a lane's access, as its entry reports it (R87; spec/10 R224): `access` holds bit 0 for a write, bit 1 for a
Square operation. -/
def laneFb (s : State) (k : LaneId) (va : Addr) (c : Cause) (access level : Nat) : FbInfo :=
  { va := va.toNat, cause := c, access := access, ctx := laneCtx s k, issuer := 0, lanes := 0, pc := s.cur.pc.toNat, level := level }

/-- What a translation that fails comes to for a lane. -/
def transFault (s : State) (k : LaneId) (l : Lane) (va : Addr) (info : Word) (access : Nat) (dst : List Nat) (c : Cause) (level : Nat) (mal : Bool) :
    LaneOut :=
  if replayable c then .park (laneFb s k (privAddr s k l va) c access level) dst
  else memFault l s { accTrap c va info with level := level, malformed := mal }

/-- A failed delivery (R190): the access has left the lane, and the failure arrives later; inside a try it aborts the try. -/
def failLater (s : State) (k : LaneId) (l : Lane) (kind : PKind) (dst : List Nat) (va : Addr) (info : Word) (f : FailInfo) : LaneOut :=
  if l.spec.isSome then .abort s 5 0
  else
    goOn (addPend s k { pendOf s kind dst none with addr := va, info := info ||| 0x10000#32, fail := some f }) k

/-! ### The try's lines and store buffer (R205 to R207) -/

/-- Track a line: none when it would be the 33rd (R205, R207 code 3). -/
def Try.track (t : Try) (x : Line) : Option Try :=
  if t.lines.contains x then some t else if 32 ≤ t.lines.length then none else some { t with lines := t.lines ++ [x] }

/-- Put bytes into the store buffer: none when a 33rd entry would be needed (R205, R207 code 2). -/
def Try.put (t : Try) (sp : Space) (grp at_ va : Nat) (bs : List Byte) : Option Try :=
  let new := bs.zipIdx.map (fun p => (at_ % 16 + p.2, p.1))
  match t.stores.find? (fun e => decide (e.space = sp ∧ e.grp = grp ∧ e.block = at_ / 16)) with
  | some e =>
    let keep := e.bytes.filter (fun p => !new.any (fun q => q.1 == p.1))
    let e' := { e with bytes := keep ++ new, va := va - va % 16 }
    some { t with stores := t.stores.map (fun x => if x = e then e' else x) }
  | none =>
    if 32 ≤ t.stores.length then none
    else some { t with stores := t.stores ++ [{ space := sp, grp := grp, block := at_ / 16, bytes := new, va := va - va % 16 }] }

/-- Bytes read from memory as the store buffer shows them to its lane (R205). -/
def Try.overlay (t : Try) (sp : Space) (grp at_ : Nat) (bs : List Byte) : List Byte :=
  bs.zipIdx.map (fun p =>
    match t.stores.find? (fun e => decide (e.space = sp ∧ e.grp = grp ∧ e.block = (at_ + p.2) / 16)) with
    | some e => ((e.bytes.find? (fun q => q.1 == (at_ + p.2) % 16)).map Prod.snd).getD p.1
    | none => p.1)

/-- A load's bytes seen through an open try, with the line tracked (R205); none when it overflows. The private window is not tracked. -/
def tryLoad (l : Lane) (sp : Space) (grp at_ : Nat) (bs : List Byte) : Option (Lane × List Byte) :=
  match l.spec with
  | none => some (l, bs)
  | some t =>
    let out := t.overlay sp grp at_ bs
    if sp = .priv then some (l, out)
    else (t.track { space := sp, grp := grp, line := at_ / 64 }).map (fun t => ({ l with spec := some t }, out))

/-- The store buffer holds all of `n` bytes (R205). -/
def Try.holds (t : Try) (sp : Space) (grp at_ n : Nat) : Bool :=
  (List.range n).all (fun i => t.stores.any (fun e => decide (e.space = sp ∧ e.grp = grp ∧ e.block = (at_ + i) / 16) &&
    e.bytes.any (fun q => q.1 == (at_ + i) % 16)))

/-- A store into an open try (R205, R207): the abort code when it overflows. One that needs a 33rd line and a 33rd entry at once gets code 3: the
model's choice, since R207 does not say which arises first (log 44). -/
def tryStore (t : Try) (sp : Space) (grp at_ va : Nat) (bs : List Byte) : Except Nat Try :=
  match (if sp = .priv then some t else t.track { space := sp, grp := grp, line := at_ / 64 }) with
  | none => .error 3
  | some t =>
    match t.put sp grp at_ va bs with
    | none => .error 2
    | some t => .ok t

end Sys2Proof.Machine
end

