-- ==== Sys2Proof/Machine/Square.lean ====
section
/-! DEFINITION. The Square group (spec/16 R312 to R329): the atomics, reductions, deques, MARM and MWAIT as lanes issue them, and the
operations as the home Square performs them. -/

namespace Sys2Proof.Machine

/-! ### Fields (R313, R314) -/

def sqInts : List Ty := [.i32, .i64, .n32, .n64]
def sqAll : List Ty := [.i32, .i64, .n32, .n64, .b32, .b64]
def sqBits : List Ty := [.b32, .b64]
/-- Class v of R313, without and with the literal. -/
def clsSv : List Cls := [.gT, .z, .absent, .imm]
/-- The fields of the memory layout with the orders accepted (R314). -/
def xSq (orders : List Nat) : IWord → Bool := xMem orders true true true

def entryAtomic (ts : List Ty) : Entry := { tOk := tIn ts, d := [.gT, .z], a := [.even], b := clsSv, xOk := xSq [0, 1, 2, 3, 4], sync := true }
def entryCas : Entry :=
  { tOk := tIn sqBits, d := [.gT, .z], a := [.even], b := clsSv, c := [.gT], xOk := xSq [0, 1, 2, 3, 4], sync := true }
def entryDecz : Entry := { tOk := tIn sqInts, d := [.gT, .z], a := [.even], xOk := xSq [0, 1, 2, 3, 4], sync := true }
def entryAaddl : Entry := { tOk := tIn sqInts, d := [.even, .z], a := [.even], b := clsSv, xOk := xSq [0, 1, 2, 3, 4], sync := true }
def entryRed (ts : List Ty) : Entry := { tOk := tIn ts, a := [.even], b := clsSv, xOk := xSq [0, 2, 4], sync := true }
def entryDqpush : Entry := { tOk := tIn [.b64], d := [.g, .z], a := [.even], b := [.even], xOk := xSq [0, 1, 2, 3, 4], sync := true }
/-- Class q4 of R313. -/
def moreQ4 (n : Nat) (w : IWord) : Bool := match w.d with | .g r => r % 4 == 0 && decide (r + 4 ≤ n) | _ => false
def entryDqpop : Entry := { tOk := tIn [.b64], d := [.g], a := [.even], more := moreQ4, xOk := xSq [0, 1, 2, 3, 4], sync := true }
def entryMarm : Entry := { tOk := tIn sqBits, d := [.gT, .z], a := [.even], xOk := xSq [0, 1, 4], sync := true }
def entryMwait : Entry := { tOk := tIn [.n32], d := [.g, .z], b := [.g, .z, .absent, .imm], xOk := xZero, sync := true }

/-! ### Issue (R315, R316) -/

/-- A register and those that follow it. -/
def regSpan (o : Operand) (n : Nat) : List Nat := match o with | .g r => (List.range n).map (r + ·) | _ => []

/-- What an operation's request looks like at issue: its OP value, its alignment, its destination registers and whether it writes
memory (R315, R316). -/
structure SqShape where
  op : Nat
  align : Nat
  dst : List Nat
  writes : Bool
  deriving DecidableEq, Repr

/-- The faults of R315 that no translation decides, in their order. -/
def sqFault (s : State) (k : LaneId) (va : Addr) (n : Nat) : Option Cause :=
  if !canonical va then some .noncanonical
  else if va.toNat % n ≠ 0 then some .atomicAlign
  else if inPrivate va then some .permission
  else if roadFlat s (laneDie s k) (laneCtx s k) va.toNat n then some .roadworks
  else none

/-- The operation orders the lane's later scratchpad accesses and queue transfers behind it: `.acq`, `.ar` or `.sc` at a scope beyond the lane
(R314; spec/12 R246). -/
def acquires (w : IWord) : Bool := (ordOf w == 1 || ordOf w == 3 || ordOf w == 4) && scpOf w != 0

/-- A lane sends an operation to the Square of its home, in this module or another (R312, R315, R316; spec/12 R241 item 1, R247; log 11). A form that
writes no memory meets the errors of a read alone (R324). -/
def sendSquare (w : IWord) (h : SqShape) (k : LaneId) (l : Lane) (s : State) : LaneOut :=
  withSrcs s k l w .b64 w.t w.t (fun s a b c =>
    if !(l.quiet && l.regsFull h.dst) then .wait
    else
      let s := if ordOf w = 4 then fenceSc s (scpOf w) else s
      let va := flatAddr w a
      let info := accInfo w.d.code .flat h.writes h.align false
      match sqFault s k va h.align with
      | some x => memFault l s (accTrap x va info)
      | none =>
        match vplaceAs s (laneDie s k) (laneCtx s k) va .square (if h.writes then .square else .load) with
        | (s, .place loc home) =>
          let d := homeSquare s home
          let x := s.die d
          let q : SqReq :=
            { lane := k, pid := s.uid, op := h.op, ty := w.t, loc := loc, va := va.toNat, b := b, c := c, ctx := laneCtx s k, pc := s.cur.pc,
              sc := ordOf w == 4 && decide (5 ≤ scpOf w), needs := (s.die (laneDie s k)).vec, parked := false, stale := false }
          let s := addPend s k { pendOf s .square h.dst none with addr := va, info := info, remote := isRemote s home, acq := acquires w }
          goOn (s.setDie d { x with sqq := x.sqq ++ [q] }) k
        | (s, .fault x level mal) => transFault s k l va info (2 + b2n h.writes) h.dst x level mal
        | (s, .failed f) => failLater s k l .square h.dst va info f
        | (_, _) => .wait)

/-- An atomic that returns the old value in D. -/
def laneAtomic (op : Nat) (w : IWord) : LaneId → Lane → State → LaneOut :=
  sendSquare w { op := op, align := tyBytes w.t, dst := destRegs w.d w.t, writes := true }

/-- AADD (R318). -/
def execAadd (w : IWord) (s : State) : Host.Outcome State Fault Refusal := .next (perLane (entryAtomic sqAll) (laneAtomic 0x1C0) w s)
/-- AMIN (R318). -/
def execAmin (w : IWord) (s : State) : Host.Outcome State Fault Refusal := .next (perLane (entryAtomic sqInts) (laneAtomic 0x1C1) w s)
/-- AMAX (R318). -/
def execAmax (w : IWord) (s : State) : Host.Outcome State Fault Refusal := .next (perLane (entryAtomic sqInts) (laneAtomic 0x1C2) w s)
/-- AAND (R318). -/
def execAand (w : IWord) (s : State) : Host.Outcome State Fault Refusal := .next (perLane (entryAtomic sqBits) (laneAtomic 0x1C3) w s)
/-- AOR (R318). -/
def execAor (w : IWord) (s : State) : Host.Outcome State Fault Refusal := .next (perLane (entryAtomic sqBits) (laneAtomic 0x1C4) w s)
/-- AXOR (R318). -/
def execAxor (w : IWord) (s : State) : Host.Outcome State Fault Refusal := .next (perLane (entryAtomic sqBits) (laneAtomic 0x1C5) w s)
/-- AXCH (R318). -/
def execAxch (w : IWord) (s : State) : Host.Outcome State Fault Refusal := .next (perLane (entryAtomic sqBits) (laneAtomic 0x1C6) w s)
/-- ACAS (R318). -/
def execAcas (w : IWord) (s : State) : Host.Outcome State Fault Refusal := .next (perLane entryCas (laneAtomic 0x1C7) w s)
/-- AINCB (R318). -/
def execAincb (w : IWord) (s : State) : Host.Outcome State Fault Refusal := .next (perLane (entryAtomic sqInts) (laneAtomic 0x1C8) w s)
/-- AINCW (R318). -/
def execAincw (w : IWord) (s : State) : Host.Outcome State Fault Refusal := .next (perLane (entryAtomic sqInts) (laneAtomic 0x1C9) w s)
/-- ADECZ (R318). -/
def execAdecz (w : IWord) (s : State) : Host.Outcome State Fault Refusal := .next (perLane entryDecz (laneAtomic 0x1CA) w s)

/-- AADDL: gD and gD+1, 16-byte aligned (R315, R316, R319). -/
def laneAaddl (w : IWord) : LaneId → Lane → State → LaneOut :=
  sendSquare w { op := 0x1CB, align := 16, dst := regSpan w.d 2, writes := true }

/-- AADDL (R319). -/
def execAaddl (w : IWord) (s : State) : Host.Outcome State Fault Refusal := .next (perLane entryAaddl laneAaddl w s)

/-- A reduction at memory: no result (R316, R318). -/
def laneRed (op : Nat) (w : IWord) : LaneId → Lane → State → LaneOut :=
  sendSquare w { op := op, align := tyBytes w.t, dst := [], writes := true }

/-- RADD (R318). -/
def execRadd (w : IWord) (s : State) : Host.Outcome State Fault Refusal := .next (perLane (entryRed sqAll) (laneRed 0x1CC) w s)
/-- RMIN (R318). -/
def execRmin (w : IWord) (s : State) : Host.Outcome State Fault Refusal := .next (perLane (entryRed sqInts) (laneRed 0x1CD) w s)
/-- RMAX (R318). -/
def execRmax (w : IWord) (s : State) : Host.Outcome State Fault Refusal := .next (perLane (entryRed sqInts) (laneRed 0x1CE) w s)

/-- DQPUSH (R322). -/
def execDqpush (w : IWord) (s : State) : Host.Outcome State Fault Refusal :=
  .next (perLane entryDqpush (fun w => sendSquare w { op := 0x1CF, align := 32, dst := regSpan w.d 1, writes := true }) w s)
/-- DQPOP (R322). -/
def execDqpop (w : IWord) (s : State) : Host.Outcome State Fault Refusal :=
  .next (perLane entryDqpop (fun w => sendSquare w { op := 0x1D0, align := 32, dst := regSpan w.d 4, writes := true }) w s)
/-- DQSTEAL (R322). -/
def execDqsteal (w : IWord) (s : State) : Host.Outcome State Fault Refusal :=
  .next (perLane entryDqpop (fun w => sendSquare w { op := 0x1D1, align := 32, dst := regSpan w.d 4, writes := true }) w s)
/-- MARM (R324). -/
def execMarm (w : IWord) (s : State) : Host.Outcome State Fault Refusal :=
  .next (perLane entryMarm (fun w => sendSquare w { op := 0x1D2, align := tyBytes w.t, dst := destRegs w.d w.t, writes := false }) w s)

/-- MWAIT (R326): it waits for an MARM of the lane that is still on its way, and empties D (R316). -/
def laneMwait (w : IWord) (k : LaneId) (l : Lane) (s : State) : LaneOut :=
  match readSrc s k l w w.b w.wb .n32 with
  | .wait => .wait
  | .trap t => .trap t
  | .val s b =>
    if !(l.quiet && destReady s k l w .b32) then .wait
    else
      let dst := destRegs w.d .b32
      match l.mon with
      | none => goOn (if dst.isEmpty then s else addPend s k (pendOf s .square dst (some [2#32]))) k
      | some m =>
        let l := { (l.emptyRegs dst) with st := .mwait w.d (if b = 0 then none else some b) (nextPc s) }
        if m.triggered then .ok (s.setLane k (l.wake 0 (m.byWrite.getD Vec.zero))) else .ok (s.setLane k l)

/-- MWAIT (R326). -/
def execMwait (w : IWord) (s : State) : Host.Outcome State Fault Refusal := .next (perLane entryMwait laneMwait w s)

/-! ### The operations at the Square (R312, R317 to R325) -/

/-- The value an atomic writes (R317, R318). -/
def atomicNew (op : Nat) (t : Ty) (old b c : Nat) : Nat :=
  let w := tyWidth t
  match op - 0x1C0 with
  | 0 | 0xC => (old + b) % 2 ^ w
  | 1 | 0xD => if intVal t b < intVal t old then b else old
  | 2 | 0xE => if intVal t old < intVal t b then b else old
  | 3 => Nat.land old b
  | 4 => Nat.lor old b
  | 5 => Nat.xor old b
  | 6 => b
  | 7 => if old = b then c else old
  | 8 => if intVal t old + 1 ≤ intVal t b then (old + 1) % 2 ^ w else old
  | 9 => if b ≠ 0 ∧ intVal t b ≤ intVal t old + 1 then 0 else (old + 1) % 2 ^ w
  | _ => if 0 < intVal t old then old - 1 else old

/-- Settle a pending delivery of a lane: its values, or its failure. -/
def settle (s : State) (k : LaneId) (pid : Nat) (vals : Option (List Word)) (needs : Vec) (fail : Option FailInfo) : State :=
  match s.lane? k with
  | some l => s.setLane k { l with pend := l.pend.map (fun (p : Pend) =>
      if p.id = pid then
        { p with vals := vals, needs := needs, fail := fail, info := if fail.isSome then p.info ||| 0x10000#32 else p.info
                 remote := p.remote && p.kind != .set && p.kind != .setArr, far := none }
      else p) }
  | none => s

/-- Settle with a value in the registers that the request's lane waits for, which follows what die `d` has seen. -/
def settleVal (s : State) (d : Nat) (q : SqReq) (vs : List Word) : State := settle s q.lane q.pid (some vs) (s.die d).vec none

/-- One flat write of the Square (R312, R247). -/
def squareWrite (s : State) (d : Nat) (q : SqReq) (cells : List (Nat × Byte)) (vas : List Nat) : State :=
  flatWrite s d cells { ctx := q.ctx, issuer := 3, vas := vas, pc := q.pc, lane := some q.lane }

/-- The cells of a value at a location. -/
def cellsAt (loc n v : Nat) : List (Nat × Byte) := (bytesLE n v).zipIdx.map (fun p => (loc + p.2, p.1))

/-- An atomic or reduction (R318, R319). -/
def doAtomic (s : State) (d : Nat) (q : SqReq) : State :=
  let n := tyBytes q.ty
  let old := ofBytesLE (viewRead s d q.loc n)
  let put := fun (v : Nat) => squareWrite s d q (cellsAt q.loc n v) ((List.range n).map (q.va + ·))
  if q.op = 0x1CB then
    let lim := ofBytesLE (viewRead s d (q.loc + 8) n)
    let sum := intVal q.ty old + intVal q.ty q.b
    let fail := decide (intVal q.ty lim < sum)
    let s := put (if fail then old else intCode q.ty sum)
    settleVal s d q (if n = 4 then [BitVec.ofNat 32 old, BitVec.ofNat 32 (b2n fail)] else partsOf 2 (Nat.lor old (b2n fail * 2 ^ 63)))
  else settleVal (put (atomicNew q.op q.ty old q.b q.c)) d q (partsOf (tyRegs q.ty) old)

/-- A deque's descriptor is bad (R323). -/
def dequeBad (base cap top bottom : Nat) : Bool :=
  cap == 0 || decide (2 ^ 32 < cap) || base % 8 != 0 || !canonical (BitVec.ofNat 64 base) || inPrivate (BitVec.ofNat 64 base) ||
    decide (bottom < top) || decide (cap < bottom - top)

/-- A deque operation at Square `e` (R322, R323). A missing page parks it, and with it its lane (`sqHeld`), with the entry's address; the descriptor then
stands, and the entry goes to the fault buffer of the Square's own die (spec/10 R224). One of a lane that a kill has ended is given up there (spec/03
R87). -/
def doDeque (s : State) (e : Nat) (q : SqReq) : State :=
  let d := squareDie e
  let word := fun (i : Nat) => ofBytesLE (viewRead s d (q.loc + 8 * i) 8)
  let (base, cap, top, bottom) := (word 0, word 1, word 2, word 3)
  let failed := fun (s : State) (f : FailInfo) => settle s q.lane q.pid none Vec.zero (some f)
  if dequeBad base cap top bottom then failed s (.plain .dequeBad)
  else
    let n := bottom - top
    let steal := q.op == 0x1D1
    let desc := fun (t b : Nat) => if steal then cellsAt (q.loc + 16) 8 t else cellsAt (q.loc + 24) 8 b
    let descVas := (List.range 8).map (q.va + (if steal then 16 else 24) + ·)
    let out := fun (v st left : Nat) => partsOf 2 v ++ [BitVec.ofNat 32 st, BitVec.ofNat 32 left]
    if q.op = 0x1CF ∧ n = cap then settleVal (squareWrite s d q (desc top bottom) descVas) d q [1#32]
    else if q.op ≠ 0x1CF ∧ n = 0 then settleVal (squareWrite s d q (desc top bottom) descVas) d q (out 0 1 0)
    else
      let idx := if q.op = 0x1CF then bottom else if q.op = 0x1D0 then bottom - 1 else top
      let va := (base + 8 * (idx % cap)) % 2 ^ 64
      if !canonical (BitVec.ofNat 64 va) then failed s (.plain .noncanonical)
      else if inPrivate (BitVec.ofNat 64 va) then failed s (.plain .permission)
      else match vplace s d q.ctx (BitVec.ofNat 64 va) .square with
      | (s, .place loc _) =>
        if q.op = 0x1CF then
          settleVal (squareWrite s d q (cellsAt loc 8 q.b ++ desc top (bottom + 1)) ((List.range 8).map (va + ·) ++ descVas)) d q [0#32]
        else
          let v := ofBytesLE (viewRead s d loc 8)
          let (t, b) := if q.op = 0x1D0 then (top, bottom - 1) else (top + 1, bottom)
          settleVal (squareWrite s d q (desc t b) descVas) d q (out v 0 (b - t))
      | (s, .fault c level mal) =>
        if c = .notPresent ∧ (s.lane? q.lane).isNone then s
        else if c = .notPresent then
          let s := if e < 4 then
              postFault s d (.square d) { va := va, cause := c, access := 2 + b2n (q.op == 0x1CF), ctx := q.ctx, issuer := 3, lanes := 0,
                                          pc := q.pc.toNat, level := level }
            else s
          s.setDie e { s.die e with sqq := (s.die e).sqq ++ [{ q with parked := true }] }
        else failed s { cause := c, attempts := 0, level := level, malformed := mal }
      | (s, .failed f) => failed s f
      | (s, _) => s.setDie e { s.die e with sqq := (s.die e).sqq ++ [q] }

/-- The monitors armed or dormant at a Square (R324, R328 SQMON), at another module's those of this one's lanes. -/
def armedAt (s : State) (d : Nat) : Nat := (s.lanes.filter (fun p => match p.2.mon with | some m => m.die == d | none => false)).length

/-- MARM at Square `d` (R324). -/
def doMarm (s : State) (d : Nat) (q : SqReq) : State :=
  match s.lane? q.lane with
  | none => s
  | some l =>
    let mine := match l.mon with | some m => m.die == d | none => false
    if l.st = .exited then s
    else if !mine && decide (4096 ≤ armedAt s d) then settle s q.lane q.pid none Vec.zero (some (.plain .monitorLimit))
    else
      let n := tyBytes q.ty
      let v := ofBytesLE (viewRead s (squareDie d) q.loc n)
      let m : Monitor := { die := d, line := q.loc / 64, loc := q.loc, size := n, captured := v, triggered := false, byWrite := none, dormant := false }
      settleVal (s.setLane q.lane { l with mon := some m }) (squareDie d) q (partsOf (tyRegs q.ty) v)

/-- Whether an operation writes its own address, by its OP: all but MARM (R324). -/
def SqReq.writes (q : SqReq) : Bool := q.op != 0x1D2

/-- What an operation does to its own address: MARM only reads it (R324). -/
def SqReq.kind (q : SqReq) : Access := if q.writes then .square else .load

/-- Perform one request of Square `e`, the writes it follows applied first in the view that it acts on; an error of its memory fails it (R312,
R315). -/
def performSquare (s : State) (e : Nat) (q : SqReq) : State :=
  let d := squareDie e
  let s := if Vec.le q.needs (s.die d).vec then s else drainTo s d
  let s := match placeError s q.loc 1 q.kind with
    | some c => settle s q.lane q.pid none Vec.zero (some (.plain c))
    | none => if 0x1CF ≤ q.op ∧ q.op ≤ 0x1D1 then doDeque s e q else if q.op = 0x1D2 then doMarm s e q else doAtomic s d q
  if q.sc then drainAll s else s

/-- Perform one request, translated again where an invalidation has overtaken its translation (spec/10 R222): it goes to its home of then, or
fails, or parks with a new entry at the lane's own die where the fault is replayable (spec/03 R87; spec/10 R225). -/
def doSquare (s : State) (d : Nat) (q : SqReq) : State :=
  if !q.stale then performSquare s d q
  else
    let own := match s.gang? q.lane.gang with | some g => g.die | none => d
    match vplaceAs s own q.ctx (BitVec.ofNat 64 q.va) .square q.kind with
    | (s, .place loc home) =>
      let q := { q with loc := loc, stale := false }
      let e := homeSquare s home
      if e = d then performSquare s d q else s.setDie e { s.die e with sqq := (s.die e).sqq ++ [q] }
    | (s, .fault c level m) =>
      if replayable c then
        if (s.lane? q.lane).isNone then s
        else
          let s := postFault s own (.lane (laneCore s q.lane)) { va := q.va, cause := c, access := 2 + b2n q.writes, ctx := q.ctx, issuer := 0,
                                                                   lanes := maskOf [q.lane.lane], pc := q.pc.toNat, level := level }
          s.setDie own { s.die own with sqq := (s.die own).sqq ++ [{ q with parked := true }] }
      else settle s q.lane q.pid none Vec.zero (some { cause := c, attempts := 0, level := level, malformed := m })
    | (s, .failed f) => settle s q.lane q.pid none Vec.zero (some f)
    | (s, _) => s.setDie d { s.die d with sqq := (s.die d).sqq ++ [q] }

end Sys2Proof.Machine
end

