-- ==== Sys2Proof/Machine/Sets.lean ====
section
/-! DEFINITION. Parrix sets (spec/17 R330 to R356): the forms of blocks and their costs, the set instructions as lanes issue them, and
the operations as the home Square performs them. -/

namespace Sys2Proof.Machine

/-! ### Blocks and costs (R338 to R340) -/

/-- The offsets of block `j` of a set's elements. -/
def blockOffs (es : List Nat) (j : Nat) : List Nat := (es.filter (fun e => e / 4096 == j)).map (· % 4096)
/-- The blocks that hold an element, ascending. -/
def blocksOf (es : List Nat) : List Nat := (es.map (· / 4096)).firsts
/-- The span of block `j` (R338). -/
def spanOf (u j : Nat) : Nat := min 4096 (u - 4096 * j)

/-- Maximal runs of ascending offsets as (first, last). -/
def runsIn : List Nat → List (Nat × Nat)
  | [] => []
  | a :: r =>
    match runsIn r with
    | (b, c) :: t => if a + 1 = b then (a, c) :: t else (a, a) :: (b, c) :: t
    | [] => [(a, a)]

/-- The cost of a block in a form (R338). -/
def formCost (span : Nat) (offs : List Nat) : Form → Nat
  | .list => offs.length
  | .bitmap => ceilDiv span 16
  | .runs => 2 * (runsIn offs).length

/-- The cheapest form: ties go to RUNS, then LIST, then BITMAP (R339). -/
def cheapest (span : Nat) (offs : List Nat) : Form :=
  let r := formCost span offs .runs
  let l := formCost span offs .list
  let b := formCost span offs .bitmap
  if r ≤ l ∧ r ≤ b then .runs else if l ≤ b then .list else .bitmap

/-- The form of an existing block. -/
def PSet.form (x : PSet) (j : Nat) : Form := (mfind x.forms j).getD .list
/-- The cost of block `j`: 0 where there is none. -/
def PSet.blockCost (x : PSet) (j : Nat) : Nat :=
  let offs := blockOffs x.elems j
  if offs.isEmpty then 0 else formCost (spanOf x.u j) offs (x.form j)
/-- The cost of a set (R338, R340). -/
def PSet.cost (x : PSet) : Nat :=
  match x.hash with
  | some cap => 2 * cap
  | none => ((blocksOf x.elems).map x.blockCost).foldl (· + ·) 0

/-- Count `n` on counter `i` (R350). -/
def PSet.count (x : PSet) (i n : Nat) : PSet := { x with ctrs := x.ctrs.set i ((x.ctrs.getD i 0 + n) % 2 ^ 64) }

/-- The counter of a conversion (R350). -/
def convCtr : Form → Form → Nat
  | .list, .bitmap => 0
  | .list, _ => 1
  | .bitmap, .list => 2
  | .bitmap, _ => 3
  | .runs, .list => 4
  | .runs, _ => 5

/-- A table's capacity for `n` elements (R340). -/
def hashCap (n : Nat) : Nat := max 64 (2 ^ clog2 (2 * n))

/-- Every block in its cheapest form. -/
def cheapForms (u : Nat) (es : List Nat) : List (Nat × Form) := (blocksOf es).map (fun j => (j, cheapest (spanOf u j) (blockOffs es j)))

/-- The rule of R339 on block `j`, and the words it moves. -/
def PSet.convert (x : PSet) (j : Nat) : PSet × Nat :=
  let offs := blockOffs x.elems j
  if offs.isEmpty then ({ x with forms := mdel x.forms j }, 0)
  else
    let f := x.form j
    let c := cheapest (spanOf x.u j) offs
    let cf := formCost (spanOf x.u j) offs f
    let cc := formCost (spanOf x.u j) offs c
    if cc + 1 < cf then (({ x with forms := mset x.forms j c } : PSet).count (convCtr f c) 1, cf + cc)
    else ({ x with forms := mset x.forms j f }, 0)

/-- The mode of R340 after a change, and the words a lane-level change moves by it. -/
def PSet.remode (x : PSet) : PSet × Nat :=
  let n := x.elems.length
  let nb := (blocksOf x.elems).length
  match x.hash with
  | none =>
    if 2 ^ 20 < x.u ∧ 64 ≤ n ∧ 2 * n < 3 * nb then
      (({ x with hash := some (hashCap n), forms := [] } : PSet).count 6 1, x.cost + 2 * hashCap n)
    else (x, 0)
  | some cap =>
    if n = 0 ∨ 3 * nb ≤ n then
      let y : PSet := { x with hash := none, forms := cheapForms x.u x.elems }
      (y.count 7 1, 2 * cap + y.cost)
    else if cap < 2 * n ∨ (8 * n < cap ∧ hashCap n < cap) then ({ x with hash := some (hashCap n) }, 2 * cap + 2 * hashCap n)
    else (x, 0)

/-- Insert into, or remove from, an ascending list. -/
def insertAsc (e : Nat) : List Nat → List Nat
  | [] => [e]
  | a :: r => if e < a then e :: a :: r else if e = a then a :: r else a :: insertAsc e r

/-- Merge two ascending lists. -/
def unionAsc (a b : List Nat) : List Nat := b.foldl (fun l e => insertAsc e l) a

/-- A lane-level change of one element, with its work units (R339, R340, R348, R356). -/
def PSet.change (x : PSet) (ins : Bool) (e : Nat) : PSet × Nat :=
  let has := x.elems.contains e
  let j := e / 4096
  if x.hash.isSome then
    if has == ins then (x, 2)
    else
      let y : PSet := { x with elems := if ins then insertAsc e x.elems else x.elems.filter (· != e) }
      let (z, w) := y.remode
      (z, 4 + w)
  else
    let before := x.blockCost j
    if has == ins then (x, before)
    else
      let y : PSet := { x with elems := if ins then insertAsc e x.elems else x.elems.filter (· != e) }
      let y : PSet := if (mfind y.forms j).isNone then { y with forms := mset y.forms j .list } else y
      let after := y.blockCost j
      let (z, w) := y.convert j
      let (z, v) := z.remode
      (z, before + after + w + v)

/-- Write a set-level result: blocks in their cheapest form, or the table of hash mode; and the cost of what is written (R339, R340,
R348). -/
def PSet.assign (x : PSet) (es : List Nat) : PSet × Nat :=
  let y : PSet := { x with elems := es, forms := if x.hash.isSome then [] else cheapForms x.u es }
  let (z, _) := y.remode
  let z : PSet := match z.hash with | some _ => { z with hash := some (hashCap es.length) } | none => z
  (z, z.cost)

/-! ### Combining (R347) -/

/-- ⌈log2 (n + 1)⌉. -/
def lg1 (n : Nat) : Nat := clog2 (n + 1)

/-- The work of one operand pair: the algorithm's counter, the words read from B and from C, and whether B or C is the probed side. -/
structure PairWork where
  alg : Nat
  b : Nat
  c : Nat
  probedB : Bool
  probedC : Bool
  deriving DecidableEq, Repr

/-- The pair of blocks with offsets `xb` and `xc`, in their forms and over their spans (R347): a span mask reads those words of the BITMAP, of its
own span, that a run touches. -/
def pairWork (fb fc : Form) (xb xc : List Nat) (sb sc : Nat) : PairWork :=
  let r := fun (o : List Nat) => (runsIn o).length
  let mask := fun (runs : List (Nat × Nat)) (span : Nat) =>
    ((List.range (ceilDiv span 16)).filter (fun i => runs.any (fun p => decide (p.1 / 16 ≤ i ∧ i ≤ p.2 / 16)))).length
  match fb, fc with
  | .list, .list => ⟨9, xb.length, xc.length, false, false⟩
  | .list, .bitmap => ⟨10, xb.length, xb.length, false, true⟩
  | .bitmap, .list => ⟨10, xc.length, xc.length, true, false⟩
  | .bitmap, .bitmap => ⟨11, ceilDiv sb 16, ceilDiv sc 16, false, false⟩
  | .runs, .runs => ⟨12, 2 * r xb, 2 * r xc, false, false⟩
  | .runs, .bitmap => ⟨13, 2 * r xb, mask (runsIn xb) sc, false, true⟩
  | .bitmap, .runs => ⟨13, mask (runsIn xc) sb, 2 * r xc, true, false⟩
  | .list, .runs => ⟨14, xb.length, 2 * xb.length * lg1 (r xc), false, true⟩
  | .runs, .list => ⟨14, 2 * xc.length * lg1 (r xb), xc.length, true, false⟩

/-- The cost of probing a set for one element (R347). -/
def probeCost (x : PSet) (e : Nat) : Nat :=
  if x.hash.isSome then 2
  else
    let offs := blockOffs x.elems (e / 4096)
    if offs.isEmpty then 0
    else match x.form (e / 4096) with
      | .list => lg1 offs.length
      | .bitmap => 1
      | .runs => 2 * lg1 (runsIn offs).length

/-- The words read from B and C by a combining form (op 6 SUNI, 7 SINT, 8 SDIF), and the algorithm counters it gains. -/
def combineWork (op : Nat) (b c : PSet) : Nat × Nat × List Nat :=
  if b.hash.isSome ∨ c.hash.isSome then
    let bIter := decide (b.elems.length ≤ c.elems.length)
    let it := if bIter then b else c
    let pr := if bIter then c else b
    let probes := (it.elems.map (probeCost pr)).foldl (· + ·) 0
    let full := if op = 6 ∨ (op = 8 ∧ !bIter) then pr.cost else 0
    if bIter then (it.cost, probes + full, [15]) else (probes + full, it.cost, [15])
  else
    (((blocksOf b.elems) ++ (blocksOf c.elems)).firsts).foldl (fun (a : Nat × Nat × List Nat) j =>
      let xb := blockOffs b.elems j
      let xc := blockOffs c.elems j
      if !xb.isEmpty && !xc.isEmpty then
        let p := pairWork (b.form j) (c.form j) xb xc (spanOf b.u j) (spanOf c.u j)
        let fb := if p.probedB && (op == 6 || op == 8) then b.blockCost j else 0
        let fc := if p.probedC && op == 6 then c.blockCost j else 0
        (a.1 + p.b + fb, a.2.1 + p.c + fc, a.2.2 ++ [p.alg])
      else if xc.isEmpty then (if op = 7 then a else (a.1 + b.blockCost j, a.2))
      else (if op = 6 then (a.1, a.2.1 + c.blockCost j, a.2.2) else a)) (0, 0, [])

/-- The members of a combining form's result. -/
def combineSets (op : Nat) (b c : List Nat) : List Nat :=
  if op = 6 then unionAsc b c else if op = 7 then b.filter (fun e => c.contains e) else b.filter (fun e => !c.contains e)

/-! ### Handles and storage (R330, R331, R343, R351) -/

/-- The die, slot and set of a valid handle of a context (R330). -/
def setOf (s : State) (ctx h : Nat) : Option (Nat × Nat × PSet) :=
  let home := h / 2 ^ 27
  let slot := h / 2 ^ 8 % 2 ^ 19
  if isRemote s home then none
  else
    let d := home % 4
    match mfind (s.die d).sets slot with
    | some x => if x.ctx = ctx ∧ mget (s.die d).gens slot 1 = h % 256 then some (d, slot, x) else none
    | none => none

/-- A handle may name a set of another module of the domain: its home lies there, and its generation is one that a set has (R330, R352; spec/22
R413). -/
def farSet (s : State) (h : Nat) : Bool :=
  isRemote s (h / 2 ^ 27) && decide (h / 2 ^ 29 ≤ fld (s.mreg ⟨.modid, 0, 0⟩) 6 4) && h % 256 != 0

/-! Storage (R351): a set's blocks, or its hash table, are the items that the object store or the overflow area holds. An item is named by
slot and block; how many bytes it takes is the model's choice (log 20). -/

/-- The block number under which a hash table is stored: beyond every block. -/
def tableItem : Nat := 2 ^ 20
/-- The bytes of a set's header (log 20). -/
def setHeader : Nat := 256
/-- The bytes of the object store (spec/16 R328). -/
def storeBytes : Nat := 2 ^ 26
/-- The bytes of a die's overflow area (spec/16 R328). -/
def overBytes (s : State) (d : Nat) : Nat := fld (s.mreg ⟨.sqovsize, d, 0⟩) 23 0 * 2 ^ 20

/-- The items of a set. -/
def itemsOf (slot : Nat) (x : PSet) : List (Nat × Nat) :=
  match x.hash with | some _ => [(slot, tableItem)] | none => (blocksOf x.elems).map (fun j => (slot, j))

/-- The bytes of an item: twice its cost in 16-bit words (R338, R340); 0 for one that is no more. -/
def Die.itemBytes (y : Die) (i : Nat × Nat) : Nat :=
  match mfind y.sets i.1 with
  | none => 0
  | some x =>
    match x.hash with
    | some cap => if i.2 = tableItem then 4 * cap else 0
    | none => 2 * x.blockCost i.2

/-- The bytes of several items. -/
def Die.bytesOf (y : Die) (is : List (Nat × Nat)) : Nat := (is.map y.itemBytes).foldl (· + ·) 0

/-- The bytes held in the object store: headers and items. -/
def Die.stored (y : Die) : Nat := setHeader * y.sets.length + y.bytesOf y.lru

/-- Count one on a counter of an item's set. -/
def Die.countOn (y : Die) (ctr : Nat) (i : Nat × Nat) : Die :=
  match mfind y.sets i.1 with | some x => { y with sets := mset y.sets i.1 (x.count ctr 1) } | none => y

/-- The least recently used items spill until the store holds the rest (R351, R350). -/
def Die.spill : Nat → Die → Die
  | 0, y => y
  | n + 1, y =>
    if y.stored ≤ storeBytes then y
    else match y.lru with
      | [] => y
      | i :: r => Die.spill n { y.countOn 16 i with lru := r, spilt := y.spilt ++ [i] }

/-- The items that an operation needs are filled back where they had spilled, and are the most recently used (R351, R350). -/
def Die.touch (y : Die) (used : List (Nat × Nat)) : Die :=
  let z := (y.spilt.filter used.contains).foldl (fun y i => y.countOn 17 i) y
  { z with spilt := y.spilt.filter (fun i => !used.contains i),
           spiltAt := y.spiltAt.filter (fun p => !used.contains p.1), lru := y.lru.filter (fun i => !used.contains i) ++ used }

/-- The storage of a die after an operation on the set in `slot` that needed the items `used`; none when the store and the overflow area
cannot give the room (R351). -/
def Die.restock (y : Die) (slot : Nat) (used : List (Nat × Nat)) (room : Nat) : Option Die :=
  let y := y.touch used
  let live := fun i => y.itemBytes i != 0
  let kept := y.lru.filter live
  let out := y.spilt.filter live
  let items := match mfind y.sets slot with | some x => itemsOf slot x | none => []
  let new := items.filter (fun i => !kept.contains i && !out.contains i)
  let z := Die.spill (kept.length + new.length) { y with lru := kept ++ new, spilt := out, badBlk := y.badBlk.filter live,
                                                          spiltAt := y.spiltAt.filter (fun p => live p.1) }
  if z.stored ≤ storeBytes ∧ z.bytesOf z.spilt ≤ room then some z else none

/-- The items of a set leave the storage: the set is freed, or written anew (R343, R348). -/
def Die.dropItems (y : Die) (slot : Nat) : Die :=
  let keep := fun (i : Nat × Nat) => i.1 != slot
  { y with lru := y.lru.filter keep, spilt := y.spilt.filter keep, spiltAt := y.spiltAt.filter (fun p => keep p.1), badBlk := y.badBlk.filter keep }

/-- A set leaves its slot, whose generation advances (R331, R343). -/
def Die.dropSet (y : Die) (slot : Nat) : Die :=
  { y.dropItems slot with sets := mdel y.sets slot, gens := mset y.gens slot (mget y.gens slot 1 % 255 + 1) }

/-- The MiB of a die's overflow area in use (spec/16 R328). -/
def sqovUsed (s : State) (d : Nat) : Nat := ceilDiv ((s.die d).bytesOf (s.die d).spilt) (2 ^ 20)

/-- The least free slot of a die. -/
def freeSlot (s : State) (d : Nat) : Option Nat :=
  let used := (s.die d).sets.map Prod.fst
  let n := ((List.range (used.length + 1)).find? (fun i => !used.contains i)).getD 0
  if n < 524288 then some n else none

/-- The items that an operation reads, by die. -/
abbrev Uses := List (Nat × (Nat × Nat))

/-- A die's part of the items used. -/
def usesOf (us : Uses) (d : Nat) : List (Nat × Nat) := ((us.filter (fun u => u.1 == d)).map Prod.snd).firsts

/-- The bytes of an item that spills, in a layout of the device's own; those of a sealed context's set stand under its key (R351; log 20). -/
def spillImage (s : State) (d : Nat) (i : Nat × Nat) : List Byte :=
  let n := (s.die d).itemBytes i
  match mfind (s.die d).sets i.1 with
  | none => []
  | some x =>
    let plain := (Config.layout 2 (i.2 :: (match x.hash with | some _ => x.elems | none => blockOffs x.elems i.2)) ++ List.replicate n 0#8).take n
    if ctxKeyId s x.ctx = 0 then plain
    else (Config.gcmText (ctxKey s x.ctx) (i.1 * 2 ^ 21 + i.2) [] plain ++ List.replicate n 0#8).take n

/-- The lowest place of the overflow area that has room for `n` bytes between the items that stand there (R351; log 20). -/
def Die.gapFor (y : Die) (room n : Nat) : Option Nat :=
  let ends := y.spiltAt.map (fun p => (p.2, p.2 + y.itemBytes p.1))
  let fits := fun (a : Nat) => decide (a + n ≤ room) && ends.all (fun e => decide (a + n ≤ e.1 ∨ e.2 ≤ a))
  ((0 :: ends.map Prod.snd).filter fits).foldl (fun o a => match o with | some b => some (min a b) | none => some a) none

/-- An item is written to the overflow area where it now stands. -/
def writeSpill (d : Nat) (s : State) (p : (Nat × Nat) × Nat) : State :=
  match locate s (fld (s.mreg ⟨.sqovbase, d, 0⟩) 47 12 * 4096 + p.2) with
  | some (loc, _) => privWrite s ((spillImage s d p.1).zipIdx.map (fun b => (loc + b.2, b.1)))
  | none => s

/-- Every spilt item of a die is moved, so that they stand one after another. -/
def packSpills (s : State) (d : Nat) : State :=
  let is := (s.die d).spilt
  let ps := is.zipIdx.map (fun p => (p.1, (s.die d).bytesOf (is.take p.2)))
  ps.foldl (writeSpill d) (s.setDie d { s.die d with spiltAt := ps })

/-- The items of a die that have spilled are written to its overflow area: those that stand there stay, and a new one takes the lowest place that
has room for it; where the room is in pieces too small, all are moved together first (R351; spec/16 R328; log 20). -/
def writeSpills (s : State) (d : Nat) : State :=
  (s.die d).spilt.foldl (fun s i =>
    if (s.die d).spiltAt.any (fun p => p.1 == i) then s
    else match (s.die d).gapFor (overBytes s d) ((s.die d).itemBytes i) with
      | some a => writeSpill d (s.setDie d { s.die d with spiltAt := (s.die d).spiltAt ++ [(i, a)] }) (i, a)
      | none => packSpills s d) s

/-- The storage of a die is as an operation leaves it. -/
def setStock (s : State) (d : Nat) (z : Die) : State := writeSpills (s.setDie d z) d

/-- The items of the module's other dies are filled back where they had spilled; none where there is no room (R351). -/
def touchFar (s : State) (d : Nat) (us : Uses) : Option State :=
  ((List.range 4).filter (fun e => e != d && us.any (fun u => u.1 == e))).foldl (fun o e =>
    o.bind (fun s => ((s.die e).restock 524288 (usesOf us e) (overBytes s e)).map (setStock s e))) (some s)

/-- Store a set after an operation that used some items, which are filled back first; `anew` when all of it is written anew. None where there is
no room (R351). -/
def putSet (s : State) (d slot : Nat) (x : PSet) (anew : Bool) (us : Uses) : Option State :=
  let y := s.die d
  let y : Die := ({ y with sets := mset y.sets slot x } : Die).touch (usesOf us d)
  let y : Die := if anew then y.dropItems slot else y
  ((y.restock slot (usesOf us d) (overBytes s d)).map (setStock s d)).bind (fun s => touchFar s d us)

/-- Whether an item's bytes of a die's overflow area can be accessed (spec/22 R410). -/
def spillAvail (s : State) (d : Nat) (p : (Nat × Nat) × Nat) : Avail :=
  let pa := fld (s.mreg ⟨.sqovbase, d, 0⟩) 47 12 * 4096 + p.2
  if (locate s pa).isNone then .bad else availSpan s pa ((s.die d).itemBytes p.1)

/-- The items that an operation which takes the module from `s` to `t`, and needs the items `us`, reads from a die's overflow area: those filled back,
and those that are moved in it (R351). -/
def spillReads (s t : State) (us : Uses) (d : Nat) : List ((Nat × Nat) × Nat) :=
  (s.die d).spiltAt.filter (fun p => !(t.die d).spiltAt.contains p && (us.contains (d, p.1) || (t.die d).spilt.contains p.1))

/-- The items that it writes there. -/
def spillWrites (s t : State) (d : Nat) : List ((Nat × Nat) × Nat) := (t.die d).spiltAt.filter (fun p => !(s.die d).spiltAt.contains p)

/-- Whether the overflow areas let an operation go ahead: it waits for a stack that is not ready, and fails at one that has failed (R351; spec/22
R410). -/
def spillsAvail (s t : State) (us : Uses) : Avail :=
  let as := (List.range 4).flatMap (fun d => (spillReads s t us d).map (spillAvail s d) ++ (spillWrites s t d).map (spillAvail t d))
  if as.any (· == .waits) then .waits else if as.any (· == .bad) then .bad else .ready

/-- A block that the operation reads is bad (R352). -/
def badUse (s : State) (us : Uses) : Bool := us.any (fun u => (s.die u.1).badBlk.contains u.2)

/-- The items that an operation reads, with the handle of the set that they belong to; A's come first, then B's, then C's (R345). -/
abbrev HUses := List (Nat × Uses)

/-- The first handle of whose set the operation reads a bad block (R336, R352). -/
def badHandle (s : State) (hs : HUses) : Option Nat := (hs.find? (fun p => badUse s p.2)).map Prod.fst

/-- The `n`-th operand set read from another module: its elements, its universe, its mode, the capacity of its table and the forms of its blocks are
free within what R338 to R340 let a set hold, where a block's form costs at most one word more than the cheapest (R339) and hash mode stands from its
entry until it is left (R340; log 11). -/
def farPSet (ctx n : Nat) : PSet :=
  let es := unionAsc [] ((Config.farElems n).filter (fun e => decide (e < 2 ^ 32)))
  let free := Config.farShape n
  let u := 2 ^ 32 - free 0 % (2 ^ 32 - es.getLastD 0)
  let count := es.length
  let blocks := (blocksOf es).length
  let must := 2 ^ 20 < u ∧ 64 ≤ count ∧ 2 * count < 3 * blocks
  let may := 2 ^ 20 < u ∧ count < 3 * blocks
  let cap := if hashCap count * 2 ^ (free 2 % 3) ≤ 8 * count then hashCap count * 2 ^ (free 2 % 3) else hashCap count
  let form := fun (j : Nat) =>
    let offs := blockOffs es j
    let best := cheapest (spanOf u j) offs
    let f := ([Form.list, .bitmap, .runs][free (3 + j) % 3]?).getD best
    if formCost (spanOf u j) offs f ≤ formCost (spanOf u j) offs best + 1 then f else best
  if must ∨ (may ∧ free 1 % 2 = 1) then { ctx := ctx, u := u, elems := es, forms := [], hash := some cap, ctrs := [] }
  else { ctx := ctx, u := u, elems := es, forms := (blocksOf es).map (fun j => (j, form j)), hash := none, ctrs := [] }

/-- An operand set as an operation reads it: its die (4 for another module), its slot and its contents. What another module's set holds is a
free value (log 11). -/
def operandSet (s : State) (ctx h : Nat) : Option (State × Nat × Nat × PSet) :=
  if farSet s h then some ({ s with freeCtr := s.freeCtr + 1 }, 4, 0, farPSet ctx s.freeCtr)
  else (setOf s ctx h).map (fun p => (s, p.1, p.2.1, p.2.2))

/-- The items of an operand set that a combining form reads: all of them, or those of the blocks that `p` names (R347). -/
def operandUses (d slot : Nat) (x : PSet) (p : Nat → Bool) : Uses :=
  ((itemsOf slot x).filter (fun i => x.hash.isSome || p i.2)).map (fun i => (d, i))

/-! ### The operations at the Square (R342 to R352) -/

/-- What an operation comes to. -/
inductive SetOut where
  | done (s : State) (r units : Nat)
  | fail (s : State) (f : FailInfo) (addr : Nat)
  | park (s : State) (va level : Nat) (c : Cause)
  | later (s : State)
  deriving DecidableEq, Repr

/-- xaddr of a cause without an address (R336): the lane's element and the first failing handle. -/
def setAddr (elem h : Nat) : Nat := elem * 2 ^ 32 + h

/-- The element an operation names: operand `e` of SINS, SDEL, SHAS, SNEXT, SRANK and SREP; 0 where it names none (R333, R336). -/
def setElem (op b : Nat) : Nat := if (0x202 ≤ op ∧ op ≤ 0x204) ∨ op = 0x20B ∨ op = 0x20C ∨ op = 0x210 then b else 0

/-- The least `k` members at pair(B) as bytes. -/
def entryBytes (es : List Nat) : List Byte := es.flatMap (bytesLE 4)

/-- The 32-bit entries of bytes. -/
def entriesOf : Nat → List Byte → List Nat
  | 0, _ => []
  | n + 1, bs => ofBytesLE (bs.take 4) :: entriesOf n (bs.drop 4)

/-- The handles of operands B and C that name sets of another module, B's first. -/
def farOperands (s : State) (op b c : Nat) : List Nat :=
  if 0x206 ≤ op ∧ op ≤ 0x209 then (if op = 0x209 then [b] else [b, c]).filter (farSet s) else []

/-- The causes that come last (R354): no port reaches another module's set, or a block that the operation reads is bad, with the first handle
that fails (R336, R352). -/
def lastCause (s : State) (q : SetReq) (hs : HUses) : Option (Cause × Nat) :=
  match (if portsUp s then [] else farOperands s q.op q.b q.c) with
  | h :: _ => some (.remoteTimeout, h)
  | [] => (badHandle s hs).map (fun h => (.uncorrectable, h))

/-- The first handle of whose set the operation fills back an item from a stack that has failed; A's where none of them does (R336; spec/22 R410). -/
def spillHandle (s t : State) (a : Nat) (hs : HUses) : Nat :=
  let bad := fun (us : Uses) => (List.range 4).any (fun d => (spillReads s t us d).any (fun p => us.contains (d, p.1) && spillAvail s d p == .bad))
  ((hs.find? (fun p => bad p.2)).map Prod.fst).getD a

/-- Store the set an operation leaves: its outcome, with the causes of R354 that come last. `hs` are the items it read, to which those of a set
that changes mode are added. What spills and fills back meets the stacks of the overflow areas (spec/22 R410). -/
def finishSet (s : State) (d slot : Nat) (x y : PSet) (q : SetReq) (anew : Bool) (hs : HUses) (r units : Nat) : SetOut :=
  let mode : Uses := if !anew && x.hash.isSome != y.hash.isSome then (itemsOf slot x).map (fun i => (d, i)) else []
  let hs := (q.a, mode) :: hs
  match putSet s d slot y anew (hs.flatMap Prod.snd) with
  | none => .fail s (.plain .setStoreFull) (setAddr (setElem q.op q.b) q.a)
  | some s' =>
    match lastCause s q hs with
    | some (c, h) => .fail s (.plain c) (setAddr (setElem q.op q.b) h)
    | none =>
      match spillsAvail s s' (hs.flatMap Prod.snd) with
      | .ready => .done s' r units
      | .waits => .later s
      | .bad => .fail s (.plain .uncorrectable) (setAddr (setElem q.op q.b) (spillHandle s s' q.a hs))

/-- Perform an operation on set `x` at `slot` of die `d`: the state with the set stored, the result and the work units. -/
def onSet (s : State) (d slot : Nat) (x : PSet) (q : SetReq) : SetOut :=
  let some_ := fun (p : Nat → Bool) => operandUses d slot x p
  let fin := fun (y : PSet) (us : Uses) (r units : Nat) => finishSet s d slot x y q false [(q.a, us)] r units
  let here := some_ (· == q.b / 4096)
  match q.op - 0x200 with
  | 1 => .done (s.setDie d ((s.die d).dropSet slot)) 0 0
  | 2 =>
    if x.u ≤ q.b then .fail s (.plain .setUniverse) (setAddr q.b q.a)
    else
      let (y, w) := x.change true q.b
      fin y here (b2n (!x.elems.contains q.b)) w
  | 3 =>
    if x.u ≤ q.b then .fail s (.plain .setUniverse) (setAddr q.b q.a)
    else
      let (y, w) := x.change false q.b
      fin y here (b2n (x.elems.contains q.b)) w
  | 4 =>
    if x.u ≤ q.b then .fail s (.plain .setUniverse) (setAddr q.b q.a)
    else fin x here (b2n (x.elems.contains q.b)) (if x.hash.isSome then 2 else x.blockCost (q.b / 4096))
  | 5 => fin x [] x.elems.length 2
  | 9 =>
    match operandSet s q.ctx q.b with
    | none => .fail s (.plain .setBadHandle) (setAddr 0 q.b)
    | some (s, db, sb, b) =>
      if b.elems.any (fun e => decide (x.u ≤ e)) then .fail s (.plain .setUniverse) (setAddr 0 q.a)
      else
        let (y, w) := x.assign b.elems
        finishSet s d slot x (if db ≠ d then y.count 18 b.cost else y) q true [(q.b, operandUses db sb b (fun _ => true))] b.elems.length
          (b.cost + w)
  | 10 =>
    let n := if x.hash.isSome then 1 else (blocksOf x.elems).length
    let (y, _) := x.assign []
    finishSet s d slot x y q true [] x.elems.length n
  | 11 =>
    let hit := x.elems.find? (fun e => decide (q.b ≤ e))
    let seen := fun (j : Nat) => decide (q.b / 4096 ≤ j) && (match hit with | some e => decide (j ≤ e / 4096) | none => true)
    fin x (some_ seen) (hit.getD (2 ^ 32 - 1))
      (match x.hash with | some cap => 2 * cap | none => (((blocksOf x.elems).filter seen).map x.blockCost).foldl (· + ·) 0)
  | 12 =>
    let lower := (blocksOf x.elems).filter (fun j => decide (j < q.b / 4096))
    fin x here (x.elems.filter (fun e => decide (e < q.b))).length
      (match x.hash with | some cap => 2 * cap | none => x.blockCost (q.b / 4096) + lower.length)
  | 13 =>
    match bulkRead s d q.ctx (BitVec.ofNat 64 q.b) (4 * q.c) .load with
    | (s, .bytes bs _ _, _) =>
      let n := if q.c = 0 then 0 else q.c
      let es := ((entriesOf n bs).filter (· != 2 ^ 32 - 1)).firsts
      if es.any (fun e => decide (x.u ≤ e)) then .fail s (.plain .setUniverse) (setAddr 0 q.a)
      else
        let new := es.filter (fun e => !x.elems.contains e)
        let after := unionAsc x.elems new
        let touched := (es.map (· / 4096)).firsts
        let changed := (new.map (· / 4096)).firsts
        let keep := x.forms.filter (fun p => !changed.contains p.1)
        let y : PSet := if x.hash.isSome then { x with elems := after }
          else { x with elems := after, forms := keep ++ changed.map (fun j => (j, cheapest (spanOf x.u j) (blockOffs after j))) }
        let read := if x.hash.isSome then (if es.isEmpty then 0 else x.cost) else (touched.map x.blockCost).foldl (· + ·) 0
        let (z, _) := if new.isEmpty then (y, 0) else y.remode
        let written := if new.isEmpty then 0
          else if x.hash.isSome ∨ z.hash.isSome then z.cost
          else (changed.map z.blockCost).foldl (· + ·) 0
        finishSet s d slot x z q false [(q.a, if es.isEmpty then [] else some_ touched.contains)] new.length (2 * q.c + read + written)
    | (s, .fault c level mal, va) =>
      if replayable c then .park s va.toNat level c else .fail s { cause := c, attempts := 0, level := level, malformed := mal } va.toNat
    | (s, .failed f, va) => .fail s f va.toNat
    | (s, _, _) => .later s
  | 14 =>
    let out := x.elems.take q.c
    let seen := (out.map (· / 4096)).firsts
    let units := (match x.hash with | some cap => (if out.isEmpty then 0 else 2 * cap) | none => (seen.map x.blockCost).foldl (· + ·) 0) + 2 * out.length
    let end_ := fun (s : State) => finishSet s d slot x x q false [(q.a, if out.isEmpty then [] else some_ seen.contains)] x.elems.length units
    match bulkPlace s d q.ctx (BitVec.ofNat 64 q.b) (4 * out.length) .store with
    | (s, ps, .place _ _, _) =>
      let (cells, vas) := placeCells (BitVec.ofNat 64 q.b) ps (entryBytes out)
      (match end_ s with
       | .done s r u => .done (flatWrite s d cells { ctx := q.ctx, issuer := 3, vas := vas, pc := q.pc, lane := some q.lane }) r u
       | o => o)
    | (s, _, .fault c level mal, va) =>
      if replayable c then .park s va.toNat level c else .fail s { cause := c, attempts := 0, level := level, malformed := mal } va.toNat
    | (s, _, .failed f, va) =>
      (match end_ s with
       | .fail s g a => if g.cause = .setStoreFull then .fail s g a else .fail s f va.toNat
       | _ => .fail s f va.toNat)
    | (s, _, _, _) => .later s
  | 15 =>
    let i := fld q.x 4 0
    fin (if flg q.x 5 then { x with ctrs := x.ctrs.set i 0 } else x) [] (x.ctrs.getD i 0) 0
  | 16 =>
    let j := q.b / 4096
    let offs := blockOffs x.elems j
    let word :=
      if x.u ≤ q.b then 0
      else if x.hash.isSome then 2 ^ 31
      else if offs.isEmpty then 0
      else (match x.form j with | .list => 1 | .bitmap => 2 | .runs => 3) * 2 ^ 29 + offs.length * 2 ^ 16 + x.blockCost j
    fin x [] word 0
  | k =>
    match operandSet s q.ctx q.b with
    | none => .fail s (.plain .setBadHandle) (setAddr 0 q.b)
    | some (s, db, sb, b) =>
      match operandSet s q.ctx q.c with
      | none => .fail s (.plain .setBadHandle) (setAddr 0 q.c)
      | some (s, dc, sc, c) =>
        let es := combineSets k b.elems c.elems
        if es.any (fun e => decide (x.u ≤ e)) then .fail s (.plain .setUniverse) (setAddr 0 q.a)
        else
          let (rb, rc, algs) := combineWork k b c
          let y := algs.foldl (fun (y : PSet) a => y.count a 1) x
          let (z, w) := y.assign es
          let far := (if db ≠ d then rb else 0) + (if dc ≠ d then rc else 0)
          let hash := b.hash.isSome || c.hash.isSome
          let inB := fun j => hash || k == 6 || k == 8 || (blocksOf c.elems).contains j
          let inC := fun j => hash || k == 6 || (blocksOf b.elems).contains j
          finishSet s d slot x (z.count 18 far) q true [(q.b, operandUses db sb b inB), (q.c, operandUses dc sc c inC)] es.length (rb + rc + w)

/-- Count an operation on the set it named as A (R348, R350). -/
def countSetOp (s : State) (d slot op units : Nat) : State :=
  let y := s.die d
  match mfind y.sets slot with
  | some x => s.setDie d { y with sets := mset y.sets slot ((x.count 8 units).count (if 0x202 ≤ op ∧ op ≤ 0x204 then 19 else 20) 1) }
  | none => s

/-- A count or cost delivered at n32 (R337). -/
def capN32 (n : Nat) : Nat := min n (2 ^ 32 - 2)

/-- The registers' values of a result (R333, R337, R344). -/
def setVals (q : SetReq) (r units : Nat) : List Word :=
  let isCount := [0x205, 0x206, 0x207, 0x208, 0x209, 0x20A, 0x20C, 0x20D, 0x20E].contains q.op
  if q.ty = .n64 then partsOf 2 r
  else [BitVec.ofNat 32 (if isCount then capN32 r else r)] ++ (if flg q.x 8 then [BitVec.ofNat 32 (capN32 units)] else [])

/-- A set operation fails: a failed delivery with its address (R336). -/
def failSet (s : State) (q : SetReq) (f : FailInfo) (addr : Nat) : State :=
  let s := settle s q.lane q.pid none Vec.zero (some f)
  match s.lane? q.lane with
  | some l => s.setLane q.lane { l with pend := l.pend.map (fun (p : Pend) => if p.id = q.pid then { p with addr := BitVec.ofNat 64 addr } else p) }
  | none => s

/-- The dies whose sets an operation reads beside its home (R352). -/
def operandDies (s : State) (q : SetReq) : List Nat :=
  if 0x206 ≤ q.op ∧ q.op ≤ 0x209 then
    ((setOf s q.ctx q.b).map (·.1)).toList ++ (if q.op = 0x209 then [] else ((setOf s q.ctx q.c).map (·.1)).toList)
  else []

/-- What the lane must see before its delivery: the writes known at the home, which an operation without a register result does not pass on,
but for the entries that SSTOR writes (R355). -/
def setNeeds (s : State) (d : Nat) (q : SetReq) : Vec :=
  let none_ := match s.lane? q.lane with | some l => l.pend.any (fun p => p.id == q.pid && p.dst.isEmpty) | none => false
  if none_ && q.op != 0x20E then Vec.zero else (s.die d).vec

/-- Perform one set operation at die `d` (R335, R342 to R352). -/
def doSet (s : State) (d : Nat) (q : SetReq) : State :=
  let others := operandDies s q
  let s := if Vec.le q.needs (s.die d).vec && others.all (fun k => Vec.le (s.die k).vec (s.die d).vec) then s else drainTo s d
  if q.op = 0x200 then
    match freeSlot s d with
    | none => failSet s q (.plain .setStoreFull) 0
    | some slot =>
      let x : PSet := { ctx := q.ctx, u := q.b + 1, elems := [], forms := [], hash := none, ctrs := List.replicate 21 0 }
      match putSet s d slot x true [] with
      | none => failSet s q (.plain .setStoreFull) 0
      | some t =>
        let h := domId t d * 2 ^ 27 + slot * 2 ^ 8 + mget (t.die d).gens slot 1
        match spillsAvail s t [] with
        | .ready => settle t q.lane q.pid (some [BitVec.ofNat 32 h]) (t.die d).vec none
        | .waits => s.setDie d { s.die d with setq := (s.die d).setq ++ [q] }
        | .bad => failSet s q (.plain .uncorrectable) 0
  else
    match setOf s q.ctx q.a with
    | none => failSet s q (.plain .setBadHandle) (setAddr (setElem q.op q.b) q.a)
    | some (_, slot, x) =>
      match onSet s d slot x q with
      | .done s r units =>
        let s := if q.op = 0x201 then s else countSetOp s d slot q.op units
        settle s q.lane q.pid (some (if q.op = 0x201 then [] else setVals q r units)) (setNeeds s d q) none
      | .fail s f addr => failSet s q f addr
      | .park s va level c =>
        if (s.lane? q.lane).isNone then s else
        let s := postFault s d (.square d) { va := va, cause := c, access := b2n (q.op == 0x20E), ctx := q.ctx, issuer := 3, lanes := 0,
                                             pc := q.pc.toNat, level := level }
        s.setDie d { s.die d with setq := (s.die d).setq ++ [{ q with parked := true }] }
      | .later s => s.setDie d { s.die d with setq := (s.die d).setq ++ [q] }

/-! ### Issue (R333 to R336, R354) -/

/-- The set layout (R334). -/
def xSet (cost scost : Bool) (w : IWord) : Bool :=
  w.b == .imm ||
    (fld w.x 31 9 == 0 && fld w.x 7 6 == 0 && (cost || !flg w.x 8) && !(flg w.x 8 && w.t == .n64) &&
      (if scost then decide (fld w.x 4 0 ≤ 20) else fld w.x 5 0 == 0))

/-- D names a pair under COST or n64 (R333). -/
def setPair (w : IWord) : Bool := w.t == .n64 || flg (memX w) 8
/-- D of a form that accepts COST or not: with COST an even general register, with n64 an even one or `z` (R333). -/
def moreSet (cost : Bool) (_ : Nat) (w : IWord) : Bool :=
  let c := cost && flg (memX w) 8
  match w.d with
  | .g r => !(w.t == .n64 || c) || r % 2 == 0
  | _ => !c

def clsE : List Cls := [.g, .z, .imm]
def entrySet (ts : List Ty) (d a b c : List Cls) (cost scost : Bool) : Entry :=
  { tOk := tIn ts, d := d, a := a, b := b, c := c, more := moreSet cost, xOk := xSet cost scost, sync := true }
def entrySnew : Entry := entrySet [.n32] [.g] [.none] clsE [.none] false false
def entrySfree : Entry := entrySet [.none] [.none] [.g] [.none] [.none] false false
def entryElem : Entry := entrySet [.n32] [.g, .z] [.g] clsE [.none] false false
def entrySet1 : Entry := entrySet [.n32, .n64] [.g, .z] [.g] [.none] [.none] true false
def entrySet3 : Entry := entrySet [.n32, .n64] [.g, .z] [.g] [.g] [.g] true false
def entryScpy : Entry := entrySet [.n32, .n64] [.g, .z] [.g] [.g] [.none] true false
def entryNext : Entry := entrySet [.n32] [.g, .z] [.g] clsE [.none] true false
def entryArr : Entry := entrySet [.n32] [.g, .z] [.g] [.even] [.g] true false
def entryScost : Entry := entrySet [.n64] [.even] [.g] [.none] [.none] false true

/-- The faults of SLOAD and SSTOR at issue, in order (R354). -/
def arrayFault (s : State) (k : LaneId) (base n : Nat) : Option Cause :=
  let last := base + (n - 1)
  if !canonical (BitVec.ofNat 64 base) || !canonical (BitVec.ofNat 64 last) then some .noncanonical
  else if base % 4 ≠ 0 then some .misaligned
  else if inPrivate (BitVec.ofNat 64 base) || inPrivate (BitVec.ofNat 64 last) then some .permission
  else if n ≠ 0 ∧ roadFlat s (laneDie s k) (laneCtx s k) base n then some .roadworks
  else none

/-- A set instruction in one lane: its request goes to the home of A, or to the lane's own die (R335, R336). What a Square of another module
answers is a free value (log 11); where no port is ready, an operation on such a set fails with REMOTE_TIMEOUT (R352; spec/22 R413), and one that
only reads such a set fails so at the home of A (R354). -/
def laneSet (op : Nat) (w : IWord) (k : LaneId) (l : Lane) (s : State) : LaneOut :=
  let arr := op == 0x20D || op == 0x20E
  withSrcs s k l w .b32 (if arr then .b64 else .b32) .b32 (fun s a b c =>
    let x := memX w
    let dst := regSpan w.d (if setPair w then 2 else 1)
    let writes := !([0x204, 0x205, 0x20B, 0x20C, 0x210].contains op || (op == 0x20F && !flg x 5))
    let info := accInfo w.d.code .flat writes 4 false
    if !(l.quiet && l.regsFull dst) then .wait
    else
      match (if arr then arrayFault s k b (4 * c) else none) with
      | some cause => .trap (accTrap cause (BitVec.ofNat 64 b) info)
      | none =>
        let own := laneDie s k
        let far := op != 0x200 && farSet s a
        let d := if op = 0x200 ∨ isRemote s (a / 2 ^ 27) then own else a / 2 ^ 27 % 4
        let q : SetReq := { lane := k, pid := s.uid, op := op, ty := w.t, a := a, b := b, c := c, x := x, ctx := laneCtx s k, pc := s.cur.pc,
                            needs := (s.die own).vec, parked := false }
        let free := (List.range dst.length).map (fun i => Config.freeValue (s.freeCtr + i))
        let afar := if far then [] else farOperands s op b c
        let h := if op = 0x200 then 0 else afar.headD a
        let p := { pendOf s (if arr then .setArr else .set) dst (if far then some free else none) with
                   addr := BitVec.ofNat 64 (setAddr (setElem op b) h), info := info, remote := far || !afar.isEmpty,
                   fail := if far && !portsUp s then some (.plain .remoteTimeout) else none,
                   far := if far || !afar.isEmpty then some { op := op, own := far, a := a, b := b, c := c, held := false } else none }
        let s := addPend s k p
        if far then goOn { s with freeCtr := s.freeCtr + dst.length } k
        else goOn (s.setDie d { s.die d with setq := (s.die d).setq ++ [q] }) k)

/-- SNEW (R343). -/
def execSnew (w : IWord) (s : State) : Host.Outcome State Fault Refusal := .next (perLane entrySnew (laneSet 0x200) w s)
/-- SFREE (R343). -/
def execSfree (w : IWord) (s : State) : Host.Outcome State Fault Refusal := .next (perLane entrySfree (laneSet 0x201) w s)
/-- SINS (R342). -/
def execSins (w : IWord) (s : State) : Host.Outcome State Fault Refusal := .next (perLane entryElem (laneSet 0x202) w s)
/-- SDEL (R342). -/
def execSdel (w : IWord) (s : State) : Host.Outcome State Fault Refusal := .next (perLane entryElem (laneSet 0x203) w s)
/-- SHAS (R342). -/
def execShas (w : IWord) (s : State) : Host.Outcome State Fault Refusal := .next (perLane entryElem (laneSet 0x204) w s)
/-- SCARD (R344). -/
def execScard (w : IWord) (s : State) : Host.Outcome State Fault Refusal := .next (perLane entrySet1 (laneSet 0x205) w s)
/-- SUNI (R344). -/
def execSuni (w : IWord) (s : State) : Host.Outcome State Fault Refusal := .next (perLane entrySet3 (laneSet 0x206) w s)
/-- SINT (R344). -/
def execSint (w : IWord) (s : State) : Host.Outcome State Fault Refusal := .next (perLane entrySet3 (laneSet 0x207) w s)
/-- SDIF (R344). -/
def execSdif (w : IWord) (s : State) : Host.Outcome State Fault Refusal := .next (perLane entrySet3 (laneSet 0x208) w s)
/-- SCPY (R344). -/
def execScpy (w : IWord) (s : State) : Host.Outcome State Fault Refusal := .next (perLane entryScpy (laneSet 0x209) w s)
/-- SCLR (R344). -/
def execSclr (w : IWord) (s : State) : Host.Outcome State Fault Refusal := .next (perLane entrySet1 (laneSet 0x20A) w s)
/-- SNEXT (R344). -/
def execSnext (w : IWord) (s : State) : Host.Outcome State Fault Refusal := .next (perLane entryNext (laneSet 0x20B) w s)
/-- SRANK (R344). -/
def execSrank (w : IWord) (s : State) : Host.Outcome State Fault Refusal := .next (perLane entryNext (laneSet 0x20C) w s)
/-- SLOAD (R344). -/
def execSload (w : IWord) (s : State) : Host.Outcome State Fault Refusal := .next (perLane entryArr (laneSet 0x20D) w s)
/-- SSTOR (R344). -/
def execSstor (w : IWord) (s : State) : Host.Outcome State Fault Refusal := .next (perLane entryArr (laneSet 0x20E) w s)
/-- SCOST (R350). -/
def execScost (w : IWord) (s : State) : Host.Outcome State Fault Refusal := .next (perLane entryScost (laneSet 0x20F) w s)
/-- SREP (R349). -/
def execSrep (w : IWord) (s : State) : Host.Outcome State Fault Refusal := .next (perLane entryElem (laneSet 0x210) w s)

end Sys2Proof.Machine
end

