-- ==== Sys2Proof/Machine/Stops.lean ====
section
/-! DEFINITION. Debug stops with their records (spec/21 R384 to R387) and the counters of the lane-cycle banks (R399). -/

namespace Sys2Proof.Machine

/-! ### Debug stops (spec/21 R384 to R388) -/

/-- Debug-stop lanes where they stand, with one record per warp and PC (R384, R387). `which` and `code` as the record gives them;
`bpc` is the BKPT's own PC where there is one. -/
def stopLanes (s : State) (ls : List LaneId) (cause : Cause) (which code : Nat) (bpc : Option Addr) : State :=
  let live := ls.filter (fun k => match s.lane? k with | some l => !l.stopped && l.st != .exited | none => false)
  let s := live.foldl (fun s k => match s.lane? k with
    | some l => s.setLane k { l with stopped := true, stepping := false }
    | none => s) s
  (warpsOf live).foldl (fun s w =>
    let here := live.filter (fun k => LaneId.wid k == w)
    let pcs := (here.filterMap (fun k => (s.lane? k).map (fun l => l.pc))).firsts
    pcs.foldl (fun s pc =>
      let at_ := here.filter (fun k => match s.lane? k with | some l => l.pc == pc | none => false)
      let core := match s.group? (WarpId.grp w) with | some g => g.core | none => 0
      let ctx := gangCtx s w.gang
      let gi := match s.gang? w.gang with | some g => g.index | none => 0
      let gr := match s.grid? (gangGrid s w.gang) with | some g => g.seq % 2 ^ 32 | none => 0
      emitRing s (dieOf core) (.trace (dieOf core)) 0x50 ctx
        [(0x90, 8, pc.toNat), (0x98, 4, (maskOf (at_.map (·.lane))).toNat), (0x9C, 1, cause.code), (0x9D, 1, which), (0x9E, 1, ctx),
          (0x9F, 1, code), (0xA0, 4, gi), (0xA4, 1, w.group), (0xA5, 1, w.warp), (0xA8, 4, gr), (0xAC, 8, (bpc.getD pc).toNat)]
        [(0x90, 12), (0xAC, 8)] 0xB4) s) s

/-- The rest of a group stops with DEBUG_HALT in all-stop mode (R385). -/
def stopRest (s : State) (g : GroupId) : State :=
  let ctx := gangCtx s g.gang
  if flg (s.mreg ⟨.dbgctl, ctx, 0⟩) 1 then s
  else stopLanes s ((s.lanes.map Prod.fst).filter (fun k => LaneId.grp k == g)) .debugHalt 0 0 none

/-! ### The lane-cycle banks (R399) -/

/-- Add to a counter of a bank. -/
def lcbAdd (x : Core) (ctx bin cnt n : Nat) : Core :=
  if n = 0 then x else { x with lcb := mset x.lcb (ctx, bin, cnt) ((mget x.lcb (ctx, bin, cnt) 0 + n) % 2 ^ 64) }

end Sys2Proof.Machine
end

