-- ==== Sys2Proof/Machine/Stream.lean ====
section
/-! DEFINITION. The stream group as lanes issue it (spec/13 R254 to R279): copies, channels, waits, indirect streams, iterator records,
sweeps and storage reads. -/

namespace Sys2Proof.Machine

/-! ### Fields (R254, R255) -/

/-- A flat address in an even register, or a scratchpad offset in any register when the bit of X is set. -/
def dirHas (n : Nat) (spad : Bool) (o : Operand) : Bool :=
  match o with | .g r => decide (r < n) && (spad || r % 2 == 0) | _ => false

/-- A general register. -/
def isG (o : Operand) : Bool := match o with | .g _ => true | _ => false

def tktD : List Cls := [.g, .z]
def evenD : List Cls := [.even, .z]

def entryCpy : Entry :=
  { d := tktD, a := [.g], b := [.g], c := [.g], more := fun n w => dirHas n (flg w.x 13) w.a && dirHas n (flg w.x 14) w.b
    xOk := fun w => streamXOk 0x280 w.x, sync := true }
def entryCpyw : Entry :=
  { d := evenD, a := [.g], b := [.g], c := [.g], more := fun n w => dirHas n (flg w.x 13) w.a && dirHas n (flg w.x 14) w.b
    xOk := fun w => streamXOk 0x281 w.x, sync := true }
/-- CPYW with CLR: A, B and C are none; another of their codes is refused by STREAM_BAD_CMD (R254, R268). -/
def entryCpywClr : Entry :=
  { d := evenD, a := [.g, .none], b := [.g, .none], c := [.g, .none]
    more := fun n w => (w.a == .none || dirHas n (flg w.x 13) w.a) && (w.b == .none || dirHas n (flg w.x 14) w.b)
    xOk := fun w => streamXOk 0x281 w.x, sync := true }
def entryCpyt : Entry := { d := tktD, xOk := fun w => streamXOk 0x282 w.x, sync := true }
def entryChwp : Entry := { d := evenD, xOk := fun w => streamXOk 0x283 w.x, sync := true }
def entrySwait : Entry := { d := tktD, a := [.g], xOk := fun w => streamXOk 0x284 w.x, sync := true }
def entrySwaitAll : Entry := { d := tktD, xOk := fun w => streamXOk 0x284 w.x, sync := true }
def entryIscfg : Entry := { a := [.g], xOk := fun w => streamXOk 0x285 w.x, sync := true }
def entryIsgo : Entry := { d := tktD, xOk := fun w => streamXOk 0x286 w.x, sync := true }
def entryIsstp : Entry := { xOk := fun w => streamXOk 0x287 w.x, sync := true }
def entryItdef : Entry := { a := [.g], xOk := fun w => streamXOk 0x288 w.x, sync := true }
/-- SWEEP: the parameter is there exactly for CVT, QNT and DQNT (R272). -/
def entrySweep : Entry :=
  { tOk := fun w => if sopOk (sSop w.x) then sweepType (sSop w.x) w.t else w.t.code < 25 && w.t != .q4
    d := tktD, b := [.g, .none]
    more := fun _ w => if sopOk (sSop w.x) then isG w.b == (5 ≤ sSop w.x && sSop w.x ≤ 7) else true
    xOk := fun w => streamXOk 0x289 w.x, sync := true }
def entrySrd : Entry :=
  { d := tktD, a := [.g], b := evenD, c := [.g], more := fun n w => dirHas n (flg w.x 13) w.a
    xOk := fun w => streamXOk 0x28A w.x, sync := true }

/-! ### Commands (R256, R257, R262, R265) -/

/-- What the acceptance of a command comes to for its lane: D receives the ticket or the issue end, full at once (R256). -/
def cmdDone (k : LaneId) (w : IWord) (t : Ty) : CmdOut → LaneOut
  | .issued s v => finish s k w t v 0
  | .trap t => .trap t
  | .trapWith s t => .trapWith s t
  | .wait => .wait
  | .adm s => .adm s

/-- The type of an end of a copy: an address or an offset. -/
def dirTy (spad : Bool) : Ty := if spad then .b32 else .b64

/-- A lane issues a command whose operands have types `ta`, `tb`, `tc` and whose D has type `td`. -/
def laneCmd (op : Nat) (td ta tb tc : Ty) (w : IWord) (k : LaneId) (l : Lane) (s : State) : LaneOut :=
  withSrcs s k l w ta tb tc (fun s a b c =>
    if !(l.quiet && destReady s k l w td) then .wait
    else cmdDone k w td (cmdIssue s k { op := op, ty := w.t, x := w.x, av := a, bv := b, cv := c, note := flg w.x 12, cpl := 0, port := false }))

/-- CPY (R262 to R264). -/
def laneCpy (w : IWord) : LaneId → Lane → State → LaneOut := laneCmd 0x280 .b32 (dirTy (flg w.x 13)) (dirTy (flg w.x 14)) .b32 w

/-- CPYW (R262 to R265). -/
def laneCpyw (w : IWord) : LaneId → Lane → State → LaneOut := laneCmd 0x281 .b64 (dirTy (flg w.x 13)) (dirTy (flg w.x 14)) .b32 w

/-- CPYW with CLR (R268). -/
def laneCpywClr (w : IWord) (k : LaneId) (l : Lane) (s : State) : LaneOut :=
  if w.a ≠ .none ∨ w.b ≠ .none ∨ w.c ≠ .none then .trap (TrapInfo.plain .streamBadCmd 0)
  else laneCmd 0x281 .b64 .none .none .none w k l s

/-- SRD (R276). -/
def laneSrd (w : IWord) : LaneId → Lane → State → LaneOut := laneCmd 0x28A .b32 (dirTy (flg w.x 13)) .b64 .b32 w

/-- A channel's write pointer (R265). -/
def Chan.wp (c : Chan) : Nat := c.count % 2 ^ 63 + b2n c.err * 2 ^ 63

/-- CHWP: a long-latency read of a channel's write pointer, whose value is taken at its delivery (R267); the pending delivery carries
the channel's number in its xinfo field, which nothing else uses. -/
def laneChwp (w : IWord) (k : LaneId) (l : Lane) (s : State) : LaneOut :=
  if !(l.quiet && destReady s k l w .b64) then .wait
  else
    let dst := destRegs w.d .b64
    if dst.isEmpty then .ok (s.setLane k (l.advance s))
    else goOn (addPend s k { pendOf s .chwp dst none with info := BitVec.ofNat 32 (sN0 w.x) }) k

/-- The status SWAIT gives of a ticket that is not outstanding (R260). -/
def ticketStatus (s : State) (g : GroupId) (t : Nat) : Nat :=
  match s.group? g with
  | some x => (match x.hist.reverse.find? (fun p => p.1.toNat == t) with | some p => p.2.toNat | none => 0x80060000)
  | none => 0x80060000

/-- A command of a group is outstanding under a ticket (R260). -/
def ticketOut (s : State) (k : LaneId) (t : Nat) : Bool :=
  (s.core (laneCore s k)).cmds.any (fun c => c.ticket.toNat == t && LaneId.grp c.lane == LaneId.grp k)

/-- SWAIT on a ticket (R260). -/
def laneSwait (w : IWord) (k : LaneId) (l : Lane) (s : State) : LaneOut :=
  withSrcs s k l w .b32 .none .none (fun s t _ _ =>
    if !(l.quiet && destReady s k l w .b32) || ticketOut s k t then .wait
    else finish s k w .b32 (ticketStatus s (LaneId.grp k) t) 0)

/-- SWAIT.all (R260). -/
def laneSwaitAll (w : IWord) (k : LaneId) (l : Lane) (s : State) : LaneOut :=
  if !(l.quiet && destReady s k l w .b32) || !l.owed.isEmpty then .wait
  else finish (s.setLane k { l with owedBad := false }) k w .b32 (if l.owedBad then 0x80010000 else 0x80000000) 0

/-- The block of a stream or iterator definition in the group's own allocation (R271, R274): its bytes, or the trap. -/
def defBlock (s : State) (k : LaneId) (off n : Nat) : List Byte ⊕ TrapInfo :=
  let info := accInfo 0 .spad false 1 false
  if off % n ≠ 0 then .inr (accTrap .misaligned (BitVec.ofNat 64 off) info)
  else
    match spadResolve s (LaneId.grp k) off n with
    | some (g, o) => .inl (spadRead s g o n)
    | none => .inr (accTrap .spadBounds (BitVec.ofNat 64 off) info)

/-- Parse a configuration block (R274): none when a field lies outside its range. -/
def parseIs (bs : List Byte) : Option IsCfg :=
  let n := fun (o k : Nat) => ofBytesLE ((bs.drop o).take k)
  if 3 < n 0x18 1 ∨ n 0x19 1 / 4 ≠ 0 ∨ 11 < n 0x1A 1 ∨ n 0x1B 5 ≠ 0 then none
  else some { abase := n 0 8, ibase := n 8 8, count := n 0x10 4, limit := n 0x14 4, esz := n 0x18 1, i64 := natBit (n 0x19 1) 0
              ispad := natBit (n 0x19 1) 1, qn := n 0x1A 1 }

/-- A stream is running. -/
def IStream.isRunning : IStream → Bool
  | .running _ _ _ => true
  | _ => false

/-- ISCFG (R274). -/
def laneIscfg (w : IWord) (k : LaneId) (l : Lane) (s : State) : LaneOut :=
  withSrcs s k l w .b32 .none .none (fun s a _ _ =>
    if !l.quiet then .wait
    else
      match defBlock s k a 32 with
      | .inr t => .trap t
      | .inl bs =>
        match parseIs bs with
        | none => .trap (TrapInfo.plain .streamBadCmd 0)
        | some c =>
          if (istreamOf s (LaneId.grp k) (sN0 w.x)).isRunning then .trap (TrapInfo.plain .streamBadCmd 0)
          else goOn (setIstream s (LaneId.grp k) (sN0 w.x) (.configured c)) k)

/-- ITDEF (R271). -/
def laneItdef (w : IWord) (k : LaneId) (l : Lane) (s : State) : LaneOut :=
  withSrcs s k l w .b32 .none .none (fun s a _ _ =>
    if !l.quiet then .wait
    else
      match defBlock s k a 64, s.group? (LaneId.grp k) with
      | .inr t, _ => .trap t
      | .inl bs, some g =>
        (match parseIter bs g.scratch with
         | .inr off => .trap (TrapInfo.plain .iterRecordBad (BitVec.ofNat 32 off))
         | .inl r => goOn (s.setGroup (LaneId.grp k) { g with iters := g.iters.set (sN0 w.x) (some r) }) k)
      | .inl _, none => .wait)

/-- CPY (R262). -/
def execCpy (w : IWord) (s : State) : Host.Outcome State Fault Refusal := .next (perLane entryCpy laneCpy w s)
/-- CPYW (R262, R265). -/
def execCpyw (w : IWord) (s : State) : Host.Outcome State Fault Refusal := .next (perLane entryCpyw laneCpyw w s)
/-- CPYW with CLR (R268). -/
def execCpywClr (w : IWord) (s : State) : Host.Outcome State Fault Refusal := .next (perLane entryCpywClr laneCpywClr w s)
/-- CPYT (R262). -/
def execCpyt (w : IWord) (s : State) : Host.Outcome State Fault Refusal :=
  .next (perLane entryCpyt (laneCmd 0x282 .b32 .none .none .none) w s)
/-- CHWP (R267). -/
def execChwp (w : IWord) (s : State) : Host.Outcome State Fault Refusal := .next (perLane entryChwp laneChwp w s)
/-- SWAIT (R260). -/
def execSwait (w : IWord) (s : State) : Host.Outcome State Fault Refusal := .next (perLane entrySwait laneSwait w s)
/-- SWAIT.all (R260). -/
def execSwaitAll (w : IWord) (s : State) : Host.Outcome State Fault Refusal := .next (perLane entrySwaitAll laneSwaitAll w s)
/-- ISCFG (R274). -/
def execIscfg (w : IWord) (s : State) : Host.Outcome State Fault Refusal := .next (perLane entryIscfg laneIscfg w s)
/-- ISGO (R274, R275). -/
def execIsgo (w : IWord) (s : State) : Host.Outcome State Fault Refusal :=
  .next (perLane entryIsgo (laneCmd 0x286 .b32 .none .none .none) w s)
/-- ISSTP (R275). -/
def execIsstp (w : IWord) (s : State) : Host.Outcome State Fault Refusal :=
  .next (perLane entryIsstp (laneCmd 0x287 .none .none .none .none) w s)
/-- ITDEF (R271). -/
def execItdef (w : IWord) (s : State) : Host.Outcome State Fault Refusal := .next (perLane entryItdef laneItdef w s)
/-- SWEEP (R272, R273). -/
def execSweep (w : IWord) (s : State) : Host.Outcome State Fault Refusal :=
  .next (perLane entrySweep (laneCmd 0x289 .b32 .none .b32 .none) w s)
/-- SRD (R276). -/
def execSrd (w : IWord) (s : State) : Host.Outcome State Fault Refusal :=
  .next (perLane entrySrd laneSrd w s)

end Sys2Proof.Machine
end

