-- ==== Sys2Proof/Machine/Deliver.lean ====
section
/-! DEFINITION. Events that reach lanes: deliveries (spec/01 R13, R17; spec/08 R190), traps and replays (spec/03 R85 to R87), the watchdog
(spec/09 R213; spec/20 R377), admission (spec/01 R29; spec/22 R416), wakes (spec/16 R325, R326), writes that reach a die (spec/12 R244) and
the operations of a Square (spec/16 R312, R320; spec/17 R335). An event that is not due leaves the state (log 3). -/

namespace Sys2Proof.Machine

/-- An event has taken place: what was found waiting is looked at again. -/
def woke (s : State) : State := { s with blocked := [], shorts := [], met := [] }

/-! ### Deliveries (spec/01 R13, R17) -/

/-- A lane without its `i`-th pending delivery. -/
def Lane.dropPend (l : Lane) (i : Nat) : Lane := { l with pend := l.pend.eraseIdx i }

/-- Deliver values to registers and set them full, in one step (R13). -/
def Lane.receive (l : Lane) (rs : List Nat) (vs : List Word) : Lane := (rs.zip vs).foldl (fun l p => l.setReg p.1 p.2) l

/-- The value of TSTAT: the conflicts applied until now abort the try first (spec/08 R206, R211), those of a lane in a handler too. -/
def deliverTstat (s : State) (k : LaneId) (pid : Nat) : State :=
  let s := drainTo s (laneDie s k)
  let due := match s.lane? k with | some l => l.inConflict | none => false
  let s := if due then abortTries s [k] 4 0 else s
  match s.lane? k with
  | some l =>
    match l.pend.find? (fun p => p.id == pid) with
    | some p => s.setLane k (({ l with pend := l.pend.filter (fun q => q.id != pid) } : Lane).receive p.dst [l.tstat])
    | none => s
  | none => s

/-- The reply of an access from another module is overdue: no ready port reaches it, or FTMO × 65,536 cycles have passed (spec/22 R413). -/
def replyLate (s : State) (p : Pend) : Bool := !portsUp s || decide ((s.mreg ⟨.ftmo, 0, 0⟩).toNat * 65536 ≤ p.waited)

/-- The answer of another module's Square has come: waits for its operation may be met (spec/17 R355). -/
def answersAway (p : Pend) (s : State) (k : LaneId) : State := if p.awayOpen then recheckGang s k.gang else s

/-- The `i`-th pending delivery of a lane arrives (R13, R17): the writes it follows are applied at the lane's die first (spec/12
R241). A reply from another module that is overdue fails its access instead (spec/22 R413). -/
def deliver (s : State) (k : LaneId) (i : Nat) : State :=
  match s.lane? k with
  | none => s
  | some l =>
    match l.pend[i]? with
    | none => s
    | some p =>
      if p.fail.isSome || (p.remote && replyLate s p) then s
      else if l.st = .exited then (if p.vals.isSome then answersAway p (s.setLane k (l.dropPend i)) k else s)
      else if p.kind = .tstat then deliverTstat s k p.id
      else
        let vals := if p.kind = .chwp then some (partsOf 2 (chanOf s (LaneId.grp k) p.info.toNat).wp) else p.vals
        match vals with
        | none => s
        | some vs =>
          let d := laneDie s k
          let s := if Vec.le p.needs (s.die d).vec then s else drainTo s d
          match s.lane? k with
          | some l => answersAway p (s.setLane k ((l.dropPend i).receive p.dst vs)) k
          | none => s

/-- DELIVERY (R13, R17). -/
def execDelivery (l : LaneId) (k : Nat) (s : State) : Host.Outcome State Fault Refusal := .next (woke (deliver s l k))

/-- A failed delivery traps a lane only where it runs or is parked; in another wait it arrives later (log 30). -/
def TState.takesFailure : TState → Bool
  | .run | .waitm _ _ | .coll _ | .barg _ _ | .barn _ _ => true
  | _ => false

/-- The Square no longer holds the request behind a delivery. -/
def dropRequest (s : State) (pid : Nat) : State :=
  { s with dies := s.dies.map (fun p => (p.1, { p.2 with sqq := p.2.sqq.filter (fun r => r.pid != pid), setq := p.2.setq.filter (fun r => r.pid != pid) })) }

/-- The `i`-th pending delivery of a lane fails (spec/08 R190, R433): its registers stay empty, and the lane forms a sub-warp of its own, or
its record says that it has exited. The failure of an access of the open try aborts the try (R207 code 5). The record of a live lane has the sub-warp's
xpc in its pc field, as R433's table says, though R191 says that it holds the PC of the access: DEDUCED (log 30). -/
def failPend (s : State) (k : LaneId) (i : Nat) (f : FailInfo) : State :=
  match s.lane? k with
  | none => s
  | some l =>
    match l.pend[i]? with
    | none => s
    | some p =>
      let t : TrapInfo := { cause := f.cause, xaddr := p.addr, xinfo := p.info ||| 0x10000#32, perLane := some p.addr, level := f.level,
                            malformed := f.malformed, attempts := f.attempts, under := f.cause }
      let w := LaneId.wid k
      if l.st = .exited then
        let s := dropRequest (s.setLane k (l.dropPend i)) p.id
        recheckGang (faultRecord s w p.pc (maskOf [k.lane]) true t [(k.lane, p.addr)]).1 k.gang
      else if l.st.takesFailure then
        let s := dropRequest (s.setLane k (l.dropPend i)) p.id
        recheckGang (if p.inTry && l.spec.isSome then abortTries s [k] 5 0 else parkSub s w l.pc (lenAt s w l.pc) [(k.lane, t)]) k.gang
      else s

/-- The causes an access may meet at memory at any time (spec/08 R190). -/
def memCause (c : Cause) : Bool := c == .uncorrectable || c == .poison || c == .capacityTierError

/-- A cause that the array of an SLOAD or SSTOR of another module's set may meet there: those of memory and of the fabric behind it, and of the
array's translation, of which a missing page, and a transformed one for SSTOR, park the operation (spec/17 R345, R354; spec/10 R220). -/
def FarOp.arrayCause (f : FarOp) (c : Cause) : Bool :=
  f.own && f.c != 0 && (f.op == 0x20D || f.op == 0x20E) &&
    (memCause c || c == .permission || c == .sealedViolation || c == .notPresent || c == .remoteTimeout || c == .fabricError ||
      (if f.op = 0x20D then c == .transformFailed else c == .compressedWrite))

/-- The handles that a cause may stand against (R336, R354): where the set itself lies in the other module, its Square judges every handle, U(A) and
the storage, and reads blocks; where only B or C do, it answers for those. `held` says of a handle that it is known to name a set. SFREE frees a set
of bad blocks, and SCARD, SCLR, SCOST and SREP read no block and need no space for one (R351, R352). -/
def FarOp.against (f : FarOp) (held : Nat → Bool) (far : List Nat) (c : Cause) : List Nat :=
  let srcs := if f.op = 0x209 then [f.b] else if 0x206 ≤ f.op ∧ f.op ≤ 0x208 then [f.b, f.c] else []
  if f.own then
    match c with
    | .setBadHandle => (f.a :: srcs).filter (fun h => !held h)
    | .setUniverse => if [0x202, 0x203, 0x204, 0x206, 0x207, 0x208, 0x209, 0x20D].contains f.op then [f.a] else []
    | .setStoreFull => if [0x201, 0x205, 0x20A, 0x20F, 0x210].contains f.op then [] else [f.a]
    | .uncorrectable => if [0x201, 0x205, 0x20A, 0x20F, 0x210].contains f.op then [] else if srcs.isEmpty then [f.a] else srcs
    | .engineReset => [f.a]
    | .remoteTimeout | .fabricError => f.a :: srcs.filter (fun h => h / 2 ^ 29 != f.a / 2 ^ 29)
    | _ => []
  else
    match c with
    | .setBadHandle | .uncorrectable | .remoteTimeout | .fabricError => far
    | _ => []

/-- A delivery is of an access to memory, which may meet an error there (spec/08 R190, R197). -/
def Pend.toMemory (p : Pend) : Bool :=
  match p.kind with
  | .load | .ldc | .store => true
  | _ => false

/-- What stands against a set operation that another module takes part in: candidates for xaddr among handles, and how many entries of its array
(R336). -/
def farAims (s : State) (ctx : Nat) (f : FarOp) (c : Cause) : List Nat × Nat :=
  (f.against (fun h => !farSet s h && (setOf s ctx h).isSome) (farOperands s f.op f.b f.c) c, if f.arrayCause c then f.c else 0)

/-- A request for a Square of another module, not yet performed there, may end by that Square's reset, and an MARM, whose xinfo shows that it writes no
memory, by the monitors that others have armed there (spec/16 R315, R324, R329; log 11). -/
def Pend.squareCause (p : Pend) (c : Cause) : Bool :=
  p.kind == .square && p.remote && p.vals.isNone && (c == .engineReset || (c == .monitorLimit && !flg p.info 5))

/-- A pending delivery may meet a cause where it goes: at memory, or at the Square of another module (spec/08 R190; spec/16 R329; spec/17 R336, R352,
R354). -/
def mayFail (s : State) (k : LaneId) (p : Pend) (c : Cause) : Bool :=
  match p.far with
  | some f => (match farAims s (laneCtx s k) f c with | (hs, n) => !hs.isEmpty || n != 0)
  | none => (p.toMemory && memCause c) || p.squareCause c

/-- A pending delivery fails with a cause that it meets where it goes. Of a set operation of another module, which of its handles failed or which
entry of its array, the walk level, and what the reads of a transformed page met, are free values (R336, R433; log 11). -/
def failAway (s : State) (k : LaneId) (i : Nat) (p : Pend) (c : Cause) : State :=
  match p.far, s.lane? k with
  | some f, some l =>
    if l.st != .exited && !l.st.takesFailure then s
    else
      let free := fun i => (Config.freeValue (s.freeCtr + i)).toNat
      let (hs, n) := farAims s (laneCtx s k) f c
      let i0 := free 0 % (hs.length + n)
      let at_ := match hs[i0]? with
        | some h => setAddr (setElem f.op f.b) h
        | none => f.b + 4 * (i0 - hs.length)
      let walked := c == .permission || c == .sealedViolation
      let why : FailInfo := { cause := c, attempts := if c == .transformFailed then free 1 % 128 else 0,
                              level := if walked && free 2 % 6 < 5 then free 2 % 6 else 0xFF, malformed := c == .permission && free 3 % 2 == 1 }
      let s := { s with freeCtr := s.freeCtr + 4 }
      failPend (s.setLane k { l with pend := l.pend.set i { p with addr := BitVec.ofNat 64 at_ } }) k i why
  | _, _ => failPend s k i (.plain c)

/-- The Square of another module parks a set operation for its array (spec/17 R345): the lane waits until that operation is answered. -/
def holdAway (s : State) (k : LaneId) (i : Nat) : State :=
  match s.lane? k with
  | some l => s.setLane k { l with pend := l.pend.modify i (fun (p : Pend) => { p with far := p.far.map (fun (f : FarOp) => { f with held := true }) }) }
  | none => s

/-- The set operation behind a delivery has not failed already by its own handles, which are judged before the fabric (spec/17 R354). -/
def handlesStand (s : State) (pid : Nat) : Bool :=
  s.dies.all (fun d => d.2.setq.all (fun r => r.pid != pid || (!r.parked && (setOf s r.ctx r.a).isSome &&
    (if 0x206 ≤ r.op ∧ r.op ≤ 0x209 then (if r.op = 0x209 then [r.b] else [r.b, r.c]) else []).all (fun h => farSet s h || (setOf s r.ctx h).isSome))))

/-- The causes of the fabric, which have events of their own (spec/22 R413). -/
def fabricCause (c : Cause) : Bool := c == .remoteTimeout || c == .fabricError

/-- A pending delivery fails with a cause: the one it is marked with, or an error that it meets where it goes, which for a set operation of another
module may park it there. -/
def failWith (s : State) (k : LaneId) (i : Nat) (c : Cause) : State :=
  match s.lane? k with
  | some l =>
    match l.pend[i]? with
    | some p =>
      (match p.fail with
       | some f => if f.cause = c then failPend s k i f else s
       | none =>
         if !(mayFail s k p c && handlesStand s p.id && !(p.far.isSome && fabricCause c)) then s
         else if replayable c then holdAway s k i
         else failAway s k i p c)
    | none => s
  | none => s

/-- FAILED_DELIVERY (spec/08 R190). -/
def execFailedDelivery (l : LaneId) (k : Nat) (cause : Cause) (s : State) : Host.Outcome State Fault Refusal := .next (woke (failWith s l k cause))

/-- An access that travels to another module fails on its way (spec/22 R413). -/
def failRemote (s : State) (k : LaneId) (i : Nat) (c : Cause) : State :=
  match s.lane? k with
  | some l =>
    (match l.pend[i]? with
     | some p => if p.remote && p.fail.isNone && (c != .remoteTimeout || replyLate s p) && handlesStand s p.id then failAway s k i p c else s
     | none => s)
  | none => s

/-- REMOTE_TIMEOUT (spec/22 R413). -/
def execRemoteTimeout (l : LaneId) (k : Nat) (s : State) : Host.Outcome State Fault Refusal := .next (woke (failRemote s l k .remoteTimeout))
/-- FABRIC_ERROR (spec/22 R413). -/
def execFabricError (l : LaneId) (k : Nat) (s : State) : Host.Outcome State Fault Refusal := .next (woke (failRemote s l k .fabricError))

/-! ### Traps (spec/03 R85) -/

/-- The warps of a group, ascending. -/
def groupWarps (s : State) (g : GroupId) : List WarpId := ((List.range 32).map (fun i => (⟨g.gang, g.group, i⟩ : WarpId))).filter (fun w => (s.warp? w).isSome)

/-- The sub-warps of a group with their warps. -/
def groupSubs (s : State) (g : GroupId) : List (WarpId × SubWarp) :=
  (groupWarps s g).flatMap (fun w => match s.warp? w with | some x => x.subs.map (fun u => (w, u)) | none => [])

/-- The sub-warp of the lowest sequence number. -/
def firstSub : List (WarpId × SubWarp) → Option (WarpId × SubWarp)
  | [] => none
  | u :: r => some (r.foldl (fun b c => if c.2.seq < b.2.seq then c else b) u)

/-- A lane of the group waits at a point that cannot complete without a lane of the sub-warp (R85 condition 1). -/
def holdsUp (s : State) (g : GroupId) (w : WarpId) (u : SubWarp) : Bool :=
  (liveLanes s g.gang).any (fun p => LaneId.grp p.1 == g &&
    (match p.2.st with
     | .waitm m _ => LaneId.wid p.1 == w && (match s.warp? w with | some x => x.masks.getD m 0#32 &&& u.mask != 0#32 | none => false)
     | .coll m => LaneId.wid p.1 == w && (match s.warp? w with | some x => x.masks.getD m 0#32 &&& u.mask != 0#32 | none => false)
     | .barg _ _ => true
     | .barn _ _ => true
     | _ => false))

/-- A lane is parked, trap-parked or in long wait (spec/03 R64). -/
def idleLane (s : State) (k : LaneId) (l : Lane) : Bool :=
  !l.stopped && (l.st != .run || (s.blocked.contains k && !shortWait s k l))

/-- Every unexited lane of the warp is idle (R85 condition 2). -/
def warpIdle (s : State) (w : WarpId) : Bool := (warpThreads s w).all (fun p => p.2.st == .exited || idleLane s p.1 p.2)

/-- An awaiting sub-warp meets a condition of R85; one that the watchdog formed meets the third. -/
def subDue (s : State) (g : GroupId) (p : WarpId × SubWarp) : Bool := holdsUp s g p.1 p.2 || warpIdle s p.1 || p.2.cause == .watchdog

/-- The sub-warp of a group whose trap is delivered next (R85), none while a handler runs. -/
def nextTrap (s : State) (g : GroupId) : Option (WarpId × SubWarp) :=
  let us := groupSubs s g
  let await := us.filter (fun p => !p.2.delivered)
  if !gangRuns s g.gang || us.any (fun p => p.2.delivered) || !await.any (subDue s g) then none else firstSub await

/-- Restart the watchdog count of a group (spec/20 R377). -/
def clearWdog (s : State) (g : GroupId) : State := match s.group? g with | some x => s.setGroup g { x with wdog := 0 } | none => s

/-- Deliver a sub-warp's trap; a delivery of WATCHDOG restarts the count (R85; spec/20 R377). -/
def deliverSub (s : State) (g : GroupId) (p : WarpId × SubWarp) (watch : Bool) : State :=
  let s := deliverTrap s p.1 p.2 (watch && p.2.cause != .watchdog)
  if watch || p.2.cause == .watchdog then clearWdog s g else s

/-- TRAP_DELIVERY (R85; spec/20 R374). -/
def execTrapDelivery (g : GroupId) (s : State) : Host.Outcome State Fault Refusal :=
  match nextTrap s g with
  | some p => .next (woke (deliverSub s g p false))
  | none => .next s

/-! ### The watchdog (spec/09 R213; spec/20 R377) -/

/-- The watchdog of a group has expired (R377). -/
def wdogDue (s : State) (g : GroupId) : Bool :=
  let limit := (s.mreg ⟨.wdog, gangCtx s g.gang, 0⟩).toNat
  gangRuns s g.gang && limit != 0 && (match s.group? g with | some x => decide (limit * 65536 ≤ x.wdog) | none => false)

/-- The lanes of a warp that join WATCHDOG sub-warps (R213). -/
def watchLanes (s : State) (w : WarpId) : List (LaneId × Lane) :=
  match s.warp? w with
  | none => []
  | some x =>
    let ts := (warpThreads s w).filter (fun p => p.2.st != .exited && !p.2.stopped && !sqHeld s p.1)
    let here := ts.filter (fun p => some p.2.pc == currentPath s w x && (ready s p.1 p.2 || shortWait s p.1 p.2))
    if !here.isEmpty then here
    else ts.filter (fun p => idleLane s p.1 p.2 && (match p.2.st with | .replay _ _ => false | .trapped => false | _ => true))

/-- Form the WATCHDOG sub-warps of a warp, one for each PC, by ascending lowest lane (R213). -/
def watchWarp (s : State) (w : WarpId) : State :=
  let ls := watchLanes s w
  let s := ls.foldl (fun s p => leaveWait s p.1) s
  ((ls.map (fun p => p.2.pc)).firsts).foldl (fun s pc =>
    parkSub s w pc (lenAt s w pc) ((ls.filter (fun p => p.2.pc == pc)).map (fun p => (p.1.lane, TrapInfo.plain .watchdog 0)))) s

/-- A group's watchdog expires: the first awaiting sub-warp is delivered with WATCHDOG; where none awaits, R213 forms some. An expiry waits
for a handler that runs while others await it (log 33). -/
def watchdogFires (s : State) (g : GroupId) : State :=
  let us := groupSubs s g
  match firstSub (us.filter (fun p => !p.2.delivered)) with
  | some p => if us.any (fun p => p.2.delivered) then s else deliverSub s g p true
  | none =>
    let s := (groupWarps s g).foldl watchWarp s
    let vs := groupSubs s g
    match firstSub (vs.filter (fun p => !p.2.delivered)) with
    | some p => if vs.any (fun p => p.2.delivered) then s else deliverSub s g p true
    | none => s

/-- WATCHDOG (R213, R377). -/
def execWatchdog (g : GroupId) (s : State) : Host.Outcome State Fault Refusal := .next (if wdogDue s g then woke (watchdogFires s g) else s)

/-! ### Replays (spec/03 R87) -/

/-- The lanes of a warp whose parked access XREPLAY or a restore has released. -/
def replayLanes (s : State) (w : WarpId) : List (LaneId × Lane) :=
  (warpThreads s w).filter (fun p => !p.2.stopped && (match p.2.st with | .replay true _ => true | _ => false))

/-- A lane reissues: its destinations are full again, as before the instruction. -/
def Lane.reissue (l : Lane) : Lane :=
  match l.st with
  | .replay _ dst => { dst.foldl (fun (l : Lane) r => l.setReg r (l.reg r).val) l with st := .run }
  | _ => l

/-- The released lanes are ready again at the instruction that they have not moved past: their next issue, under R65, is its reissue (R87). -/
def replayWarp (s : State) (w : WarpId) : State := (replayLanes s w).foldl (fun s q => s.setLane q.1 q.2.reissue) s

/-- REPLAY (R87). -/
def execReplay (w : WarpId) (s : State) : Host.Outcome State Fault Refusal :=
  .next (if gangRuns s w.gang then woke (replayWarp s w) else s)

/-! ### Admission (spec/01 R28, R29; spec/22 R416) -/

/-- The request at the head of a die's admission queue may be granted (R416, R417). -/
def grantDue (s : State) (d : Nat) : Bool :=
  match (s.die d).admq with
  | [] => false
  | r :: _ =>
    let budget := (s.mreg ⟨.admbudget, d, 0⟩).toNat - (s.mreg ⟨.admres, d, 0⟩).toNat
    !(s.die d).hot && decide ((s.die d).held + r.units ≤ budget ∨ (s.die d).held = 0)

/-- Recheck what waits for the operations of lanes (spec/05 R126, R135). -/
def recheckFor (s : State) (ls : List LaneId) : State := ((ls.map (·.gang)).firsts).foldl recheckGang s

/-- The commands and the engine of a gang hold their tokens again; an engine whose own request still waits, as one that a warp in MACQ has been given
since, does not (R30; spec/14 R284). -/
def Core.granted (x : Core) (gang : Nat) (asks : Bool) : Core :=
  { x with cmds := x.cmds.map (fun (c : Cmd) => if c.lane.gang = gang then { c with units := c.units + c.back, back := 0 } else c)
           mx := if x.mx.owner.any (fun w => w.gang == gang) && !asks then { x.mx with token := true } else x.mx }

/-- A lane of a restored gang holds the token that it held at the save; one that no longer waits to issue with it gives it back (R28, R30). -/
def regrant (s : State) (p : LaneId × Nat) : State :=
  match s.lane? p.1 with
  | some l =>
    if l.st = .run then s.setLane p.1 { l with token := p.2 }
    else releaseUnits (dropRoads s (laneCore s p.1) false (laneOwner p.1)) (laneCore s p.1) p.2
  | none => s

/-- A restored gang has its tokens: its engine work goes on, and its lanes issue unless it is being saved again (spec/01 R30). -/
def grantGang (s : State) (gang : Nat) : State :=
  let asks := fun (c : Nat) => (s.die (dieOf c)).admq.any (fun r => r.who == .engine && r.core == c)
  let s := { s with cores := s.cores.map (fun (p : Nat × Core) => (p.1, p.2.granted gang (asks p.1))) }
  match s.gang? gang with
  | some x =>
    let s := x.tokSaved.foldl regrant (s.setGang gang { x with waitTok := false, tokSaved := [] })
    if gangRuns s gang then recheckGang s gang else s
  | none => s

/-- Grant it: the lane, the warp in MACQ, or the restored gang goes on (R29, R30; spec/14 R284). -/
def grant (s : State) (d : Nat) : State :=
  match (s.die d).admq with
  | [] => s
  | r :: rest =>
    let s := s.setDie d { s.die d with admq := rest, held := (s.die d).held + r.units }
    match r.who with
    | .gang => grantGang s r.lane.gang
    | .engine =>
      let x := s.core r.core
      let s := s.setCore r.core { x with mx := { x.mx with token := true } }
      release s ((warpThreads s (LaneId.wid r.lane)).filterMap (fun p => match p.2.st with | .macq next _ => some (p.1, next) | _ => none))
    | .lane =>
      match s.lane? r.lane with
      | some l => s.setLane r.lane { l with st := .run, token := r.units }
      | none => s

/-- ADMISSION_GRANT (R29; spec/22 R416). -/
def execAdmissionGrant (die : Nat) (s : State) : Host.Outcome State Fault Refusal := .next (if grantDue s die then woke (grant s die) else s)

/-- A request has waited as long as its context's watchdog allows (R29; spec/22 R415). -/
def admLate (s : State) (r : AdmReq) : Bool :=
  let limit := (s.mreg ⟨.admwd, laneCtx s r.lane, 0⟩).toNat
  r.who != .gang && limit != 0 && decide (limit * 65536 ≤ r.waited)

/-- A wait for a token times out: the lane raises ADMISSION_TIMEOUT at the waiting instruction and does not hold the token (R29). -/
def admTimeout (s : State) (d k : Nat) : State :=
  match (s.die d).admq[k]? with
  | none => s
  | some r =>
    if !admLate s r then s
    else
      let w := LaneId.wid r.lane
      let t := TrapInfo.plain .admissionTimeout 0
      if r.who = .engine then
        let ls := (warpThreads s w).filterMap (fun p => match p.2.st with | .macq next on => some (p.1, p.2.pc, next, on) | _ => none)
        let s := leaveWait s r.lane
        let s := release s ((ls.filter (fun p => !p.2.2.2)).map (fun p => (p.1, p.2.2.1)))
        let on := ls.filter (fun p => p.2.2.2)
        (match on with
         | [] => s
         | p :: _ => parkSub s w p.2.1 (lenAt s w p.2.1) (on.map (fun p => (p.1.lane, t))))
      else
        match s.lane? r.lane with
        | some l => parkSub (leaveWait s r.lane) w l.pc (lenAt s w l.pc) [(r.lane.lane, t)]
        | none => s

/-- ADMISSION_TIMEOUT (R29). -/
def execAdmissionTimeout (die k : Nat) (s : State) : Host.Outcome State Fault Refusal := .next (woke (admTimeout s die k))

/-! ### Wakes (spec/16 R325, R326) -/

/-- The timeout of an MWAIT passes first (R326). -/
def mwaitTimeout (s : State) (k : LaneId) : State :=
  match s.lane? k with
  | some l => (match l.st with | .mwait _ (some 0) _ => s.setLane k (l.wake 1 Vec.zero) | _ => s)
  | none => s

/-- MWAIT_TIMEOUT (R326). -/
def execMwaitTimeout (l : LaneId) (s : State) : Host.Outcome State Fault Refusal := .next (woke (mwaitTimeout s l))

/-- A monitor triggers without a write (R325). -/
def spuriousTrigger (s : State) (k : LaneId) : State :=
  match s.lane? k with
  | some l =>
    (match l.mon with
     | some m =>
       let l := { l with mon := some { m with triggered := true } }
       s.setLane k (if m.dormant then l else l.wake 0 Vec.zero)
     | none => s)
  | none => s

/-- SPURIOUS_WAKE (R325). -/
def execSpuriousWake (l : LaneId) (s : State) : Host.Outcome State Fault Refusal := .next (woke (spuriousTrigger s l))

/-! ### Writes and Squares (spec/12 R244; spec/16 R312, R320; spec/17 R335) -/

/-- The positions in flight of the writes on their way to a die. -/
def flightsTo (s : State) (d : Nat) : List (Nat × FlatWrite) := (s.inflight.zipIdx.map (fun p => (p.2, p.1))).filter (fun p => p.2.dst == d)

/-- Apply the `k`-th write on its way to a die, once the writes its vector counts have been (R244). -/
def applyFlight (s : State) (d k : Nat) : State :=
  match (flightsTo s d)[k]? with
  | some (i, w) => if causallyReady s d w then applyWrite { s with inflight := s.inflight.eraseIdx i } d w else s
  | none => s

/-- WRITE_APPLY (R244). -/
def execWriteApply (die k : Nat) (s : State) : Host.Outcome State Fault Refusal := .next (woke (applyFlight s die k))

/-- The Square performs request `q` with those of the same bundle for the same address, in their order and with nothing between them. None where one
of them must wait, for a stack that is not ready, or follows an earlier request of its lane or for its address: then they all wait, together (R312,
R320; spec/22 R410). -/
def squareTry (s : State) (d : Nat) (q : SqReq) : Option State :=
  let qs := (s.die d).sqq
  let same := fun (r : SqReq) => !r.parked && r.loc == q.loc && r.pc == q.pc && LaneId.grp r.lane == LaneId.grp q.lane
  let mine := qs.filter same
  let behind := fun (r : SqReq) => (qs.takeWhile (· != r)).any (fun e => !e.parked && !same e && (e.loc == r.loc || e.lane == r.lane))
  let t := mine.foldl (fun s r => doSquare s d r) (s.setDie d { s.die d with sqq := qs.filter (fun r => !same r) })
  if mine.any behind || (t.die d).sqq.any (fun r => !r.parked && mine.any (fun m => m.pid == r.pid)) then none
  else some (recheckFor t (mine.map (·.lane)))

/-- The Square performs the next of its requests that can be performed (R312, R320). -/
def squareStep (s : State) (d : Nat) : State := (((s.die d).sqq.filter (fun r => !r.parked)).findSome? (squareTry s d)).getD s

/-- SQUARE_OPERATION (R312). -/
def execSquareOperation (die : Nat) (s : State) : Host.Outcome State Fault Refusal := .next (if squareUp s die then woke (squareStep s die) else s)

/-- The Square performs set operation `q` with those of the same bundle on the same set, in their order and with nothing between them. None where one of
them must wait, for a stack that is not ready, or follows an earlier operation of its lane or on its set: then they all wait, together (spec/17 R335;
spec/22 R410). -/
def setTry (s : State) (d : Nat) (q : SetReq) : Option State :=
  let qs := (s.die d).setq
  let same := fun (r : SetReq) => !r.parked && r.a == q.a && r.pc == q.pc && LaneId.grp r.lane == LaneId.grp q.lane
  let mine := qs.filter same
  let behind := fun (r : SetReq) => (qs.takeWhile (· != r)).any (fun e => !e.parked && !same e && (e.a == r.a || e.lane == r.lane))
  let t := mine.foldl (fun s r => doSet s d r) (s.setDie d { s.die d with setq := qs.filter (fun r => !same r) })
  if mine.any behind || (t.die d).setq.any (fun r => !r.parked && mine.any (fun m => m.pid == r.pid)) then none
  else some (recheckFor t (mine.map (·.lane)))

/-- The Square performs the next of its set operations that can be performed (spec/17 R335). -/
def setStep (s : State) (d : Nat) : State := (((s.die d).setq.filter (fun r => !r.parked)).findSome? (setTry s d)).getD s

/-- SET_OPERATION (spec/17 R335). -/
def execSetOperation (die : Nat) (s : State) : Host.Outcome State Fault Refusal := .next (if squareUp s die then woke (setStep s die) else s)

/-! ### A complete command record (spec/13 R261) -/

/-- A lane whose record holds its twelve entries: the engine checks it and issues the command, or STREAM_BAD_CMD is raised (R261). A push
completes and issues a record in one step, so that a run meets the record here only while its command waits. -/
def cqRecord (s : State) (k : LaneId) : State :=
  match s.lane? k with
  | none => s
  | some l =>
    if l.cq.length < 12 || !l.quiet then s
    else
      let s0 := s.setLane k { l with cq := [] }
      let w := LaneId.wid k
      match cqParse l.cq with
      | none => parkSub s0 w l.pc (lenAt s w l.pc) [(k.lane, TrapInfo.plain .streamBadCmd 0)]
      | some a =>
        match cmdIssue s k a with
        | .issued s _ => (match s.lane? k with | some l => s.setLane k { l with cq := [] } | none => s)
        | .trap t => parkSub s0 w l.pc (lenAt s w l.pc) [(k.lane, t)]
        | .trapWith s t => parkSub s w l.pc (lenAt s w l.pc) [(k.lane, t)]
        | .wait => s
        | .adm _ => s

/-- CQ_COMMAND (R261). -/
def execCqCommand (l : LaneId) (s : State) : Host.Outcome State Fault Refusal := .next (woke (cqRecord s l))

end Sys2Proof.Machine
end

