-- ==== Sys2Proof/Machine/CrossingEvents.lean ====
section
/-! DEFINITION. The Crossing's own events: fills (spec/02 R38, R41), overdue warps (spec/03 R68), the path timer (R70) and the active set
(R73 to R75). -/

namespace Sys2Proof.Machine

/-- INSTRUCTION_FILL (spec/02 R38, R41): the fill unit may decode any address ahead of execution. -/
def execInstructionFill (core ctx : Nat) (va : BitVec 64) (s : State) : Host.Outcome State Fault Refusal := .next (woke (fillCache s core ctx va).1)

/-- A warp of a gang that runs, by name. -/
def runWarp (s : State) (w : WarpId) : Option Warp := if gangRuns s w.gang then s.warp? w else none

/-- A warp has counted 64 cycles toward overdue (R68). -/
def overdueDue (x : Warp) : Bool := x.active && decide (64 ≤ x.starved)

/-- OVERDUE (R68). -/
def execOverdue (w : WarpId) (s : State) : Host.Outcome State Fault Refusal :=
  match runWarp s w with
  | some x => .next (if overdueDue x then woke (s.setWarp w { x with overdue := true }) else s)
  | none => .next s

/-- The path timer of a warp has reached PATHTMR (R70, R71). -/
def timerDue (s : State) (w : WarpId) (x : Warp) : Bool :=
  let c := s.mreg ⟨.ctxctl, gangCtx s w.gang, 0⟩
  x.active && flg c 0 && decide (fld c 31 16 ≤ x.timer)

/-- PATH_TIMER_EXPIRY (R69, R70). -/
def execPathTimerExpiry (w : WarpId) (s : State) : Host.Outcome State Fault Refusal :=
  match runWarp s w with
  | some x => .next (if timerDue s w x then woke (timerPath s w) else s)
  | none => .next s

/-- The core of a warp. -/
def warpCore (s : State) (w : WarpId) : Nat := match s.group? (WarpId.grp w) with | some g => g.core | none => 0

/-- For how long a warp's oldest ready thread has been ready: one more than its cycles, 0 without one. -/
def readySince (s : State) (w : WarpId) : Nat :=
  (warpThreads s w).foldl (fun m p => if wantsIn s p.1 p.2 then max m (p.2.since + 1) else m) 0

/-- The pending warp of a partition whose thread has been ready longest; ties to the lower slot (R73). -/
def nextPending (s : State) (core part : Nat) : Option WarpId :=
  let ps := (partWarps s core part).filter (fun p => !p.2.active && readySince s p.1 != 0)
  match ps with
  | [] => none
  | p :: r => some (r.foldl (fun b c =>
      let rb := readySince s b.1
      let rc := readySince s c.1
      if rb < rc || (rb == rc && c.2.slot < b.2.slot) then c else b) p).1

/-- Count an active-set swap in a context's bank while LCEN is 1 (spec/21 R399). -/
def countSwap (s : State) (x : Core) (ctx : Nat) : Core := if flg (s.mreg ⟨.dbgctl, ctx, 0⟩) 4 then lcbAdd x ctx 64 6 1 else x

/-- A swap, counted once in the bank of the outgoing warp's context, and in that of the incoming one when it is another (R75; spec/21
R399). -/
def swapWarps (s : State) (out into : WarpId) : State :=
  match s.warp? out, s.warp? into with
  | some x, some y =>
    let s := (s.setWarp out { x with active := false, aging := 0, starved := 0 }).setWarp into { y with active := true, aging := 0, starved := 0 }
    let core := warpCore s out
    let co := gangCtx s out.gang
    let ci := gangCtx s into.gang
    let c := countSwap s (s.core core) co
    s.setCore core (if ci = co then c else countSwap s c ci)
  | _, _ => s

/-- WARP_SWAP_OUT (R73): an active warp all of whose unexited threads wait makes room for a pending warp with a ready thread. -/
def execWarpSwapOut (out : WarpId) (s : State) : Host.Outcome State Fault Refusal :=
  match runWarp s out with
  | some x =>
    match nextPending s (warpCore s out) (x.slot % 4) with
    | some w => .next (if x.active && warpIdle s out then woke (swapWarps s out w) else s)
    | none => .next s
  | none => .next s

/-- The active warps of a partition. -/
def activeWarps (s : State) (core part : Nat) : List (WarpId × Warp) := (partWarps s core part).filter (fun p => p.2.active)

/-- Of some warps, the one whose last issue lies furthest back (R74). Which of several goes that issued last in one cycle is the model's choice:
the one of the lower slot (log 18). -/
def oldestOf : List (WarpId × Warp) → Option WarpId
  | [] => none
  | p :: r => some (r.foldl (fun b c =>
      if c.2.lastIssue < b.2.lastIssue || (c.2.lastIssue == b.2.lastIssue && c.2.slot < b.2.slot) then c else b) p).1

/-- The active warp of a partition whose last issue lies furthest back (R74). -/
def oldestActive (s : State) (core part : Nat) : Option WarpId := oldestOf (activeWarps s core part)

/-- ACTIVE_SET_AGING (R74). -/
def execActiveSetAging (w : WarpId) (s : State) : Host.Outcome State Fault Refusal :=
  match runWarp s w with
  | some x =>
    match oldestActive s (warpCore s w) (x.slot % 4) with
    | some o => .next (if !x.active && decide (256 ≤ x.aging) then woke (swapWarps s o w) else s)
    | none => .next s
  | none => .next s

/-- The active warps of a partition, those of gangs that are being saved included (R73). -/
def activeCount (s : State) (core part : Nat) : Nat :=
  (s.warps.filter (fun p => p.2.active && p.2.part == part &&
    (match s.group? (WarpId.grp p.1) with | some g => g.core == core | none => false) &&
    (match s.gang? p.1.gang with | some x => x.onClose | none => false))).length

/-- What is due of a warp when a cycle starts, at once: overdue, and its path timer's expiry (R68, R70). The bound of R72 rests on it. -/
def punctualWarp (s : State) (w : WarpId) : State :=
  match runWarp s w with
  | none => s
  | some x =>
    let s := if overdueDue x then s.setWarp w { x with overdue := true } else s
    if timerDue s w x then timerPath s w else s

/-- The pending warps of a partition that have aged (R74). -/
def agedWarps (s : State) (core part : Nat) : List WarpId :=
  ((partWarps s core part).filter (fun p => !p.2.active && decide (256 ≤ p.2.aging))).map Prod.fst

/-- The warps `ws` take places in a partition's active set: each displaces the one whose last issue lies furthest back of those that were active
before, `olds`, and none displaces one that has just come in, so that each of them has its place (R72, R74). Which comes first where several are
due in one cycle, in the order in which the state lists them, and that one just swapped in is not displaced in the same cycle, are the model's
choice (log 4). -/
def displaceAll (ws : List WarpId) (olds : List (WarpId × Warp)) (s : State) : State :=
  match ws with
  | [] => s
  | w :: ws =>
    match oldestOf olds with
    | some o => displaceAll ws (olds.filter (fun p => p.1 != o)) (swapWarps s o w)
    | none => s

/-- What is due of the warps of a core when a cycle of it starts: overdue, timers, and then the places of the pending warps that have aged
(R68, R70, R72, R74). -/
def punctual (s : State) (core : Nat) : State :=
  let s := (s.warps.map Prod.fst).foldl (fun s w => if warpCore s w = core then punctualWarp s w else s) s
  (List.range 4).foldl (fun s p => displaceAll (agedWarps s core p) (activeWarps s core p) s) s

/-- Pending warps of a partition become active while it has fewer than eight (R73). Which of them is the model's choice: ready ones first, by
the order that R73 gives a swap, then the lowest slot (log 18). -/
def fillActive (s : State) (core part : Nat) : Nat → State
  | 0 => s
  | n + 1 =>
    let ps := partWarps s core part
    if 8 ≤ activeCount s core part then s
    else
      let low := match ps.filter (fun p => !p.2.active) with
        | [] => none
        | p :: r => some (r.foldl (fun b c => if c.2.slot < b.2.slot then c else b) p).1
      match nextPending s core part <|> low with
      | some w => (match s.warp? w with | some x => fillActive (s.setWarp w { x with active := true, aging := 0 }) core part n | none => s)
      | none => s

end Sys2Proof.Machine
end

