-- ==== Sys2Proof/Machine/Alu.lean ====
section
/-! DEFINITION. The arithmetic groups of the lane engine (spec/06 R139 to R165): entries and meanings of the integer, float, conversion,
scaling, special-function and pixel instructions over the value functions of AluOps. -/

namespace Sys2Proof.Machine

/-- Classes d, s and s/i of R139, at T's width and at 32 bits (R140). -/
def clsD : List Cls := [.gT, .push, .z]
def clsS : List Cls := [.gT, .pop, .lc, .sr, .z, .absent]
def clsSI : List Cls := [.gT, .pop, .lc, .sr, .z, .absent, .imm]
def clsD32 : List Cls := [.g, .push, .z]
def clsS32 : List Cls := [.g, .pop, .lc, .sr, .z, .absent]
def clsSI32 : List Cls := [.g, .pop, .lc, .sr, .z, .absent, .imm]

/-- The modifier word: a literal replaces every modifier with its default (R51). -/
def modsOf (w : IWord) : Word := if w.b = .imm then 0#32 else w.x
def aiOf (w : IWord) : Bool := flg (modsOf w) 4
def satOf (w : IWord) : Bool := flg (modsOf w) 3
def cndOf (w : IWord) : Nat := fld (modsOf w) 7 5
def modeOf (w : IWord) (l : Lane) : RMode := RMode.ofCode (fld (modsOf w) 2 0) l.rm

/-- The types of A, B, C and D. -/
structure Tys where
  a : Ty
  b : Ty
  c : Ty
  d : Ty
  deriving DecidableEq, Repr

/-- All operands at T. -/
def tysT (w : IWord) : Tys := ⟨w.t, w.t, w.t, w.t⟩
/-- D is a 32-bit value. -/
def tysD32 (w : IWord) : Tys := ⟨w.t, w.t, w.t, .b32⟩
/-- B is a 32-bit value. -/
def tysB32 (w : IWord) : Tys := ⟨w.t, .b32, w.t, w.t⟩
/-- C is a 32-bit value. -/
def tysC32 (w : IWord) : Tys := ⟨w.t, w.t, .b32, w.t⟩

/-- One lane of an instruction that computes a value from its sources and delivers it at issue (R142, R143, R165). -/
def laneAlu (ty : IWord → Tys) (f : IWord → Lane → Nat → Nat → Nat → Res) (w : IWord) (k : LaneId) (l : Lane) (s : State) : LaneOut :=
  match queueTrap s k w with
  | some t => .trap t
  | none => withSrcs s k l w (ty w).a (ty w).b (ty w).c (fun s a b c =>
      let r := f w l a b c
      finish s k w (ty w).d r.1 r.2)

/-! ### Integer and address group (R144 to R151) -/

/-- The layout of a form with `.ai`, which a bN type does not take (R143). -/
def xAi (w : IWord) : Bool := xArith false true false false w && !(aiOf w && tyKind w.t == .raw)
/-- The layout of ISET: CND 6 and 7 are illegal (R146). -/
def xIset (w : IWord) : Bool := xArith true false false false w && decide (cndOf w < 6)
/-- The layout of LEA (R150). -/
def xLea (w : IWord) : Bool := w.b == .imm || (fld w.x 31 4 == 0 && decide (fld w.x 2 0 ≤ 4))
/-- The types of IMADW (R144). -/
def tysImadw (w : IWord) : Tys := ⟨w.t, w.t, wideTy w.t, wideTy w.t⟩

/-- One lane of IDIV or IREM: absent operands first, then INT_DIV_ZERO (R145, R165). The lane that traps has popped its queue sources, and it does not wait
for its destination first: the model's choice (log 40). -/
def laneDiv (f : Ty → Nat → Nat → Res) (w : IWord) (k : LaneId) (l : Lane) (s : State) : LaneOut :=
  match queueTrap s k w with
  | some t => .trap t
  | none => withSrcs s k l w w.t w.t w.t (fun s a b _ =>
      let x := isAbsent w.t a
      let y := isAbsent w.t b
      if x && y then finish s k w w.t (absentOf w.t) 0
      else if x || y then finish s k w w.t (absentOf w.t) AP
      else if b = 0 then .trapWith s (TrapInfo.plain .intDivZero 0)
      else
        let r := f w.t a b
        finish s k w w.t r.1 r.2)

/-- The entry of MOV (R144, R151). -/
def entryMov : Entry := { tOk := tIn [.b32, .b64], d := [.gT, .push, .z, .sr], a := clsS, xOk := xZero }
/-- MOV (R144, R151). -/
def execMov (w : IWord) (s : State) : Host.Outcome State Fault Refusal :=
  .next (perLane entryMov (laneAlu tysT (fun _ _ a _ _ => (a, 0))) w s)

/-- The entry of MOVI (R144). -/
def entryMovi : Entry := { tOk := tIn [.b32, .b64, .i64], d := clsD, b := [.imm], xOk := xZero }
/-- MOVI (R144). -/
def execMovi (w : IWord) (s : State) : Host.Outcome State Fault Refusal :=
  .next (perLane entryMovi (laneAlu tysT (fun _ _ _ b _ => (b, 0))) w s)

/-- The entry of IADD (R144). -/
def entryIadd : Entry := { tOk := tIn [.i32, .i64, .n32, .n64, .b32, .b64], d := clsD, a := clsS, b := clsSI, xOk := xAi }
/-- IADD (R144). -/
def execIadd (w : IWord) (s : State) : Host.Outcome State Fault Refusal :=
  .next (perLane entryIadd (laneAlu tysT (fun w _ a b _ => intBin w.t (aiOf w) [0, 0] (fun x y => x + y) a b)) w s)

/-- The entry of ISUB (R144). -/
def entryIsub : Entry := { tOk := tIn [.i32, .i64, .n32, .n64, .b32, .b64], d := clsD, a := clsS, b := clsSI, xOk := xAi }
/-- ISUB (R144). -/
def execIsub (w : IWord) (s : State) : Host.Outcome State Fault Refusal :=
  .next (perLane entryIsub (laneAlu tysT (fun w _ a b _ => intBin w.t (aiOf w) [0, 0] (fun x y => x - y) a b)) w s)

/-- The entry of INEG (R144). -/
def entryIneg : Entry := { tOk := tIn [.i32, .i64, .b32, .b64], d := clsD, a := clsS, xOk := xZero }
/-- INEG (R144). -/
def execIneg (w : IWord) (s : State) : Host.Outcome State Fault Refusal :=
  .next (perLane entryIneg (laneAlu tysT (fun w _ a _ _ => intUn w.t (fun x => -x) a)) w s)

/-- The entry of IABS (R144). -/
def entryIabs : Entry := { tOk := tIn [.i32, .i64], d := clsD, a := clsS, xOk := xZero }
/-- IABS (R144). -/
def execIabs (w : IWord) (s : State) : Host.Outcome State Fault Refusal :=
  .next (perLane entryIabs (laneAlu tysT (fun w _ a _ _ => intUn w.t (fun x => (x.natAbs : Int)) a)) w s)

/-- The entry of IMUL (R144). -/
def entryImul : Entry := { tOk := tIn [.i32, .i64, .n32, .n64, .b32, .b64], d := clsD, a := clsS, b := clsSI, xOk := xAi }
/-- IMUL (R144). -/
def execImul (w : IWord) (s : State) : Host.Outcome State Fault Refusal :=
  .next (perLane entryImul (laneAlu tysT (fun w _ a b _ => intBin w.t (aiOf w) [1, 1] (fun x y => x * y) a b)) w s)

/-- The entry of IMULH (R144). -/
def entryImulh : Entry := { tOk := tIn [.i32, .i64, .n32, .n64], d := clsD, a := clsS, b := clsSI, xOk := xArith false false false false }
/-- IMULH (R144). -/
def execImulh (w : IWord) (s : State) : Host.Outcome State Fault Refusal :=
  .next (perLane entryImulh (laneAlu tysT (fun w _ a b _ => imulhVal w.t a b)) w s)

/-- The entry of IMAD (R144). -/
def entryImad : Entry := { tOk := tIn [.i32, .i64, .n32, .n64, .b32, .b64], d := clsD, a := clsS, b := clsSI, c := clsS, xOk := xAi }
/-- IMAD (R144). -/
def execImad (w : IWord) (s : State) : Host.Outcome State Fault Refusal :=
  .next (perLane entryImad (laneAlu tysT (fun w _ a b c => imadVal w.t (aiOf w) a b c)) w s)

/-- The entry of IMADW (R144). -/
def entryImadw : Entry := { tOk := tIn [.i32, .n32], d := [.even], a := clsS, b := clsSI, c := [.even, .pop, .lc, .sr, .z, .absent], xOk := xArith false false false false }
/-- IMADW (R144). -/
def execImadw (w : IWord) (s : State) : Host.Outcome State Fault Refusal :=
  .next (perLane entryImadw (laneAlu tysImadw (fun w _ a b c => imadwVal w.t a b c)) w s)

/-- The entry of IDIV (R144, R145). -/
def entryIdiv : Entry := { tOk := tIn [.i32, .i64, .n32, .n64], d := clsD, a := clsS, b := clsSI, xOk := xArith false false false false }
/-- IDIV (R144, R145). -/
def execIdiv (w : IWord) (s : State) : Host.Outcome State Fault Refusal :=
  .next (perLane entryIdiv (laneDiv idivVal) w s)

/-- The entry of IREM (R144, R145). -/
def entryIrem : Entry := { tOk := tIn [.i32, .i64, .n32, .n64], d := clsD, a := clsS, b := clsSI, xOk := xArith false false false false }
/-- IREM (R144, R145). -/
def execIrem (w : IWord) (s : State) : Host.Outcome State Fault Refusal :=
  .next (perLane entryIrem (laneDiv iremVal) w s)

/-- The entry of IMIN (R144). -/
def entryImin : Entry := { tOk := tIn [.i32, .i64, .n32, .n64], d := clsD, a := clsS, b := clsSI, xOk := xAi }
/-- IMIN (R144). -/
def execImin (w : IWord) (s : State) : Host.Outcome State Fault Refusal :=
  .next (perLane entryImin (laneAlu tysT (fun w _ a b _ => intBin w.t (aiOf w) [maxCodeI w.t, maxCodeI w.t] min a b)) w s)

/-- The entry of IMAX (R144). -/
def entryImax : Entry := { tOk := tIn [.i32, .i64, .n32, .n64], d := clsD, a := clsS, b := clsSI, xOk := xAi }
/-- IMAX (R144). -/
def execImax (w : IWord) (s : State) : Host.Outcome State Fault Refusal :=
  .next (perLane entryImax (laneAlu tysT (fun w _ a b _ => intBin w.t (aiOf w) [minCodeI w.t, minCodeI w.t] max a b)) w s)

/-- The entry of ISET (R146). -/
def entryIset : Entry := { tOk := tIn [.i32, .i64, .n32, .n64, .b32, .b64], d := clsD32, a := clsS, b := clsSI, xOk := xIset }
/-- ISET (R146). -/
def execIset (w : IWord) (s : State) : Host.Outcome State Fault Refusal :=
  .next (perLane entryIset (laneAlu tysD32 (fun w _ a b _ => isetVal w.t (cndOf w) a b)) w s)

/-- The entry of SEL (R144). -/
def entrySel : Entry := { tOk := tIn [.b32, .b64], d := clsD, a := clsS, b := clsSI, c := clsS32, xOk := xArith false false false false }
/-- SEL (R144). -/
def execSel (w : IWord) (s : State) : Host.Outcome State Fault Refusal :=
  .next (perLane entrySel (laneAlu tysC32 (fun _ _ a b c => (if c % 2 = 1 then a else b, 0))) w s)

/-- The entry of AND (R144). -/
def entryAnd : Entry := { tOk := tIn [.b32, .b64], d := clsD, a := clsS, b := clsSI, xOk := xArith false false false false }
/-- AND (R144). -/
def execAnd (w : IWord) (s : State) : Host.Outcome State Fault Refusal :=
  .next (perLane entryAnd (laneAlu tysT (fun _ _ a b _ => (Nat.land a b, 0))) w s)

/-- The entry of OR (R144). -/
def entryOr : Entry := { tOk := tIn [.b32, .b64], d := clsD, a := clsS, b := clsSI, xOk := xArith false false false false }
/-- OR (R144). -/
def execOr (w : IWord) (s : State) : Host.Outcome State Fault Refusal :=
  .next (perLane entryOr (laneAlu tysT (fun _ _ a b _ => (Nat.lor a b, 0))) w s)

/-- The entry of XOR (R144). -/
def entryXor : Entry := { tOk := tIn [.b32, .b64], d := clsD, a := clsS, b := clsSI, xOk := xArith false false false false }
/-- XOR (R144). -/
def execXor (w : IWord) (s : State) : Host.Outcome State Fault Refusal :=
  .next (perLane entryXor (laneAlu tysT (fun _ _ a b _ => (Nat.xor a b, 0))) w s)

/-- The entry of NOT (R144). -/
def entryNot : Entry := { tOk := tIn [.b32, .b64], d := clsD, a := clsS, xOk := xZero }
/-- NOT (R144). -/
def execNot (w : IWord) (s : State) : Host.Outcome State Fault Refusal :=
  .next (perLane entryNot (laneAlu tysT (fun w _ a _ _ => (2 ^ tyWidth w.t - 1 - a, 0))) w s)

/-- The entry of SHL (R147). -/
def entryShl : Entry := { tOk := tIn [.b32, .b64], d := clsD, a := clsS, b := clsSI32, xOk := xArith false false false false }
/-- SHL (R147). -/
def execShl (w : IWord) (s : State) : Host.Outcome State Fault Refusal :=
  .next (perLane entryShl (laneAlu tysB32 (fun w _ a b _ => (shlVal (tyWidth w.t) a b, 0))) w s)

/-- The entry of SHR (R147). -/
def entryShr : Entry := { tOk := tIn [.b32, .b64], d := clsD, a := clsS, b := clsSI32, xOk := xArith false false false false }
/-- SHR (R147). -/
def execShr (w : IWord) (s : State) : Host.Outcome State Fault Refusal :=
  .next (perLane entryShr (laneAlu tysB32 (fun w _ a b _ => (shrVal (tyWidth w.t) a b, 0))) w s)

/-- The entry of SAR (R147). -/
def entrySar : Entry := { tOk := tIn [.b32, .b64], d := clsD, a := clsS, b := clsSI32, xOk := xArith false false false false }
/-- SAR (R147). -/
def execSar (w : IWord) (s : State) : Host.Outcome State Fault Refusal :=
  .next (perLane entrySar (laneAlu tysB32 (fun w _ a b _ => (sarVal (tyWidth w.t) a b, 0))) w s)

/-- The entry of ROT (R147). -/
def entryRot : Entry := { tOk := tIn [.b32, .b64], d := clsD, a := clsS, b := clsSI32, xOk := xArith false false false false }
/-- ROT (R147). -/
def execRot (w : IWord) (s : State) : Host.Outcome State Fault Refusal :=
  .next (perLane entryRot (laneAlu tysB32 (fun w _ a b _ => (rotVal (tyWidth w.t) a b, 0))) w s)

/-- The entry of BFX (R148). -/
def entryBfx : Entry := { tOk := tIn [.b32, .b64, .i32, .i64], d := clsD, a := clsS, b := clsSI32, xOk := xArith false false false false }
/-- BFX (R148). -/
def execBfx (w : IWord) (s : State) : Host.Outcome State Fault Refusal :=
  .next (perLane entryBfx (laneAlu tysB32 (fun w _ a b _ => (bfxVal w.t a b, 0))) w s)

/-- The entry of BFI (R148). -/
def entryBfi : Entry := { tOk := tIn [.b32, .b64], d := clsD, a := clsS, b := clsSI, c := clsS32, xOk := xArith false false false false }
/-- BFI (R148). -/
def execBfi (w : IWord) (s : State) : Host.Outcome State Fault Refusal :=
  .next (perLane entryBfi (laneAlu tysC32 (fun w _ a b c => (bfiVal (tyWidth w.t) a b c, 0))) w s)

/-- The entry of POPC (R144). -/
def entryPopc : Entry := { tOk := tIn [.b32, .b64], d := clsD32, a := clsS, xOk := xZero }
/-- POPC (R144). -/
def execPopc (w : IWord) (s : State) : Host.Outcome State Fault Refusal :=
  .next (perLane entryPopc (laneAlu tysD32 (fun w _ a _ _ => (popcount (tyWidth w.t) a, 0))) w s)

/-- The entry of CLZ (R144). -/
def entryClz : Entry := { tOk := tIn [.b32, .b64], d := clsD32, a := clsS, xOk := xZero }
/-- CLZ (R144). -/
def execClz (w : IWord) (s : State) : Host.Outcome State Fault Refusal :=
  .next (perLane entryClz (laneAlu tysD32 (fun w _ a _ _ => (clzVal (tyWidth w.t) a, 0))) w s)

/-- The entry of CTZ (R144). -/
def entryCtz : Entry := { tOk := tIn [.b32, .b64], d := clsD32, a := clsS, xOk := xZero }
/-- CTZ (R144). -/
def execCtz (w : IWord) (s : State) : Host.Outcome State Fault Refusal :=
  .next (perLane entryCtz (laneAlu tysD32 (fun w _ a _ _ => (ctzVal (tyWidth w.t) a, 0))) w s)

/-- The entry of BREV (R144). -/
def entryBrev : Entry := { tOk := tIn [.b32, .b64], d := clsD, a := clsS, xOk := xZero }
/-- BREV (R144). -/
def execBrev (w : IWord) (s : State) : Host.Outcome State Fault Refusal :=
  .next (perLane entryBrev (laneAlu tysT (fun w _ a _ _ => (brevVal (tyWidth w.t) a, 0))) w s)

/-- The entry of PRMB (R149). -/
def entryPrmb : Entry := { tOk := tIn [.b32], d := clsD, a := clsS, b := clsSI, c := clsS, xOk := xArith false false false false }
/-- PRMB (R149). -/
def execPrmb (w : IWord) (s : State) : Host.Outcome State Fault Refusal :=
  .next (perLane entryPrmb (laneAlu tysT (fun _ _ a b c => (prmbVal a b c, 0))) w s)

/-- The entry of LEA (R150). -/
def entryLea : Entry := { tOk := tIn [.b64], d := clsD, a := clsS, b := clsSI32, xOk := xLea }
/-- LEA (R150). -/
def execLea (w : IWord) (s : State) : Host.Outcome State Fault Refusal :=
  .next (perLane entryLea (laneAlu tysB32 (fun w _ a b _ => (leaVal (w.b == .imm) (flg (modsOf w) 3) (fld (modsOf w) 2 0) a b, 0))) w s)

/-! ### Float group (R152 to R156) -/

/-- The entry of FADD (R152). -/
def entryFadd : Entry := { tOk := tIn [.f32], d := clsD, a := clsS, b := clsSI, xOk := xArith false true true true }
/-- FADD (R152). -/
def execFadd (w : IWord) (s : State) : Host.Outcome State Fault Refusal :=
  .next (perLane entryFadd (laneAlu tysT (fun w l a b _ => faddVal .f32 (modeOf w l) (satOf w) (aiOf w) a b)) w s)

/-- The entry of FSUB (R152). -/
def entryFsub : Entry := { tOk := tIn [.f32], d := clsD, a := clsS, b := clsSI, xOk := xArith false true true true }
/-- FSUB (R152). -/
def execFsub (w : IWord) (s : State) : Host.Outcome State Fault Refusal :=
  .next (perLane entryFsub (laneAlu tysT (fun w l a b _ => fsubVal .f32 (modeOf w l) (satOf w) (aiOf w) a b)) w s)

/-- The entry of FMUL (R152). -/
def entryFmul : Entry := { tOk := tIn [.f32], d := clsD, a := clsS, b := clsSI, xOk := xArith false true true true }
/-- FMUL (R152). -/
def execFmul (w : IWord) (s : State) : Host.Outcome State Fault Refusal :=
  .next (perLane entryFmul (laneAlu tysT (fun w l a b _ => fmulVal .f32 (modeOf w l) (satOf w) (aiOf w) a b)) w s)

/-- The entry of FFMA (R152). -/
def entryFfma : Entry := { tOk := tIn [.f32], d := clsD, a := clsS, b := clsSI, c := clsS, xOk := xArith false true true true }
/-- FFMA (R152). -/
def execFfma (w : IWord) (s : State) : Host.Outcome State Fault Refusal :=
  .next (perLane entryFfma (laneAlu tysT (fun w l a b c => ffmaVal .f32 (modeOf w l) (satOf w) (aiOf w) a b c)) w s)

/-- The entry of FMIN (R153). -/
def entryFmin : Entry := { tOk := tIn [.f32], d := clsD, a := clsS, b := clsSI, xOk := xArith false true false false }
/-- FMIN (R153). -/
def execFmin (w : IWord) (s : State) : Host.Outcome State Fault Refusal :=
  .next (perLane entryFmin (laneAlu tysT (fun w _ a b _ => fminVal .f32 false (aiOf w) a b)) w s)

/-- The entry of FMAX (R153). -/
def entryFmax : Entry := { tOk := tIn [.f32], d := clsD, a := clsS, b := clsSI, xOk := xArith false true false false }
/-- FMAX (R153). -/
def execFmax (w : IWord) (s : State) : Host.Outcome State Fault Refusal :=
  .next (perLane entryFmax (laneAlu tysT (fun w _ a b _ => fminVal .f32 true (aiOf w) a b)) w s)

/-- The entry of FABS (R152). -/
def entryFabs : Entry := { tOk := tIn [.f32], d := clsD, a := clsS, xOk := xZero }
/-- FABS (R152). -/
def execFabs (w : IWord) (s : State) : Host.Outcome State Fault Refusal :=
  .next (perLane entryFabs (laneAlu tysT (fun _ _ a _ _ => fsignVal .f32 false a)) w s)

/-- The entry of FNEG (R152). -/
def entryFneg : Entry := { tOk := tIn [.f32], d := clsD, a := clsS, xOk := xZero }
/-- FNEG (R152). -/
def execFneg (w : IWord) (s : State) : Host.Outcome State Fault Refusal :=
  .next (perLane entryFneg (laneAlu tysT (fun _ _ a _ _ => fsignVal .f32 true a)) w s)

/-- The entry of FSET (R154). -/
def entryFset : Entry := { tOk := tIn [.f32], d := clsD32, a := clsS, b := clsSI, xOk := xArith true false false false }
/-- FSET (R154). -/
def execFset (w : IWord) (s : State) : Host.Outcome State Fault Refusal :=
  .next (perLane entryFset (laneAlu tysD32 (fun w _ a b _ => fsetVal .f32 (cndOf w) a b)) w s)

/-- The entry of FCLASS (R155). -/
def entryFclass : Entry := { tOk := tIn [.f32, .f16, .bf16, .e4m3, .e5m2], d := clsD32, a := clsS, xOk := xZero }
/-- FCLASS (R155). -/
def execFclass (w : IWord) (s : State) : Host.Outcome State Fault Refusal :=
  .next (perLane entryFclass (laneAlu tysD32 (fun w _ a _ _ => (fclassVal w.t a, 0))) w s)

/-- The types of FDOT2 (R152). -/
def tysFdot2 (w : IWord) : Tys := ⟨w.t, w.t, .f32, .f32⟩

/-- The entry of FDOT2 (R156). -/
def entryFdot2 : Entry := { tOk := tIn [.h2, .bh2], d := clsD, a := clsS, b := clsSI, c := clsS, xOk := xArith false false true true }
/-- FDOT2 (R156). -/
def execFdot2 (w : IWord) (s : State) : Host.Outcome State Fault Refusal :=
  .next (perLane entryFdot2 (laneAlu tysFdot2 (fun w l a b c => fdot2Val w.t (modeOf w l) (satOf w) a b c)) w s)

/-- The entry of HADD2 (R152). -/
def entryHadd2 : Entry := { tOk := tIn [.h2, .bh2], d := clsD, a := clsS, b := clsSI, xOk := xArith false true true true }
/-- HADD2 (R152). -/
def execHadd2 (w : IWord) (s : State) : Host.Outcome State Fault Refusal :=
  .next (perLane entryHadd2 (laneAlu tysT (fun w l a b _ =>
    packed w.t (fun i => faddVal (tyElem w.t) (modeOf w l) (satOf w) (aiOf w) (elemOf w.t i a) (elemOf w.t i b)))) w s)

/-- The entry of HMUL2 (R152). -/
def entryHmul2 : Entry := { tOk := tIn [.h2, .bh2], d := clsD, a := clsS, b := clsSI, xOk := xArith false true true true }
/-- HMUL2 (R152). -/
def execHmul2 (w : IWord) (s : State) : Host.Outcome State Fault Refusal :=
  .next (perLane entryHmul2 (laneAlu tysT (fun w l a b _ =>
    packed w.t (fun i => fmulVal (tyElem w.t) (modeOf w l) (satOf w) (aiOf w) (elemOf w.t i a) (elemOf w.t i b)))) w s)

/-- The entry of HFMA2 (R152). -/
def entryHfma2 : Entry := { tOk := tIn [.h2, .bh2], d := clsD, a := clsS, b := clsSI, c := clsS, xOk := xArith false true true true }
/-- HFMA2 (R152). -/
def execHfma2 (w : IWord) (s : State) : Host.Outcome State Fault Refusal :=
  .next (perLane entryHfma2 (laneAlu tysT (fun w l a b c =>
    packed w.t (fun i => ffmaVal (tyElem w.t) (modeOf w l) (satOf w) (aiOf w) (elemOf w.t i a) (elemOf w.t i b) (elemOf w.t i c)))) w s)

/-! ### Conversion and scaling (R157 to R161) -/

/-- The source type of CVT (R157). -/
def cvtSrc (w : IWord) : Ty := Ty.ofCode (fld w.x 12 8)
/-- The types of CVT: A at the source type, B a register that holds a block exponent. -/
def tysCvt (w : IWord) : Tys := ⟨cvtSrc w, .b32, .none, w.t⟩
/-- CVT's fields: A is aligned for the source type, B stands only behind a float source (R140, R157). -/
def moreCvt (n : Nat) (w : IWord) : Bool := clsS.any (fun c => c.has (cvtSrc w) n w.a) && (w.b == .none || tyKind (cvtSrc w) == .flt)
/-- The block exponent of CVT: no register, or bits 7:0 of B. -/
def cvtScale (w : IWord) (b : Nat) : Option Nat := if w.b = .none then none else some (b % 256)
/-- The layout of CVT (R157). -/
def xCvt (w : IWord) : Bool := fld w.x 31 13 == 0 && fld w.x 7 4 == 0 && decide (fld w.x 2 0 < 5)

/-- The entry of CVT (R157). The block exponent, "a register e" of no class of R139, is a general register: the model's choice (log 43). -/
def entryCvt : Entry := { tOk := fun w => cvtType w.t && cvtType (cvtSrc w), d := clsD, a := clsS32, b := [.g, .none], xOk := xCvt, more := moreCvt }
/-- CVT (R157). -/
def execCvt (w : IWord) (s : State) : Host.Outcome State Fault Refusal :=
  .next (perLane entryCvt (laneAlu tysCvt (fun w l a b _ =>
    convert (cvtSrc w) w.t (RMode.ofCode (fld w.x 2 0) l.rm) (flg w.x 3) a (cvtScale w b))) w s)

/-- The type of the parameter word of QGRP and DQGRP (R158): a register's 32 bits, and of a literal the bits of the instruction's type (R51). -/
def tyParams (w : IWord) : Ty := if w.b = .imm then w.t else .b32

/-- The types of QGRP (R158). -/
def tysQgrp (w : IWord) : Tys := ⟨.f32, tyParams w, .none, w.t⟩
/-- The types of DQGRP (R158). -/
def tysDqgrp (w : IWord) : Tys := ⟨w.t, tyParams w, .none, .f32⟩
/-- The zero point of a parameter word (R158). -/
def groupZp (t : Ty) (b : Nat) : Nat := if t = .q4 then b / 2 ^ 16 % 16 else b / 2 ^ 16 % 256
/-- DQGRP's result (R104, R158). -/
def dqgrpVal (t : Ty) (a b : Nat) : Res :=
  match dequant t (b % 2 ^ 16) (groupZp t b) a with
  | none => (absentOf .f32, 0)
  | some (v, fl) => roundRes .f32 .rne false v.toEx fl

/-- The entry of QGRP (R158). -/
def entryQgrp : Entry := { tOk := tIn [.q4, .q8], d := clsD, a := clsS, b := clsSI32, xOk := xArith false false false true }
/-- QGRP (R158). -/
def execQgrp (w : IWord) (s : State) : Host.Outcome State Fault Refusal :=
  .next (perLane entryQgrp (laneAlu tysQgrp (fun w l a b _ =>
    quantise w.t (modeOf w l) a (b % 2 ^ 16) (groupZp w.t b))) w s)

/-- The entry of DQGRP (R158). -/
def entryDqgrp : Entry := { tOk := tIn [.q4, .q8], d := clsD, a := clsS, b := clsSI32, xOk := xArith false false false false }
/-- DQGRP (R158). -/
def execDqgrp (w : IWord) (s : State) : Host.Outcome State Fault Refusal :=
  .next (perLane entryDqgrp (laneAlu tysDqgrp (fun w _ a b _ => dqgrpVal w.t a b)) w s)

/-- An amax recorded in a scale record (R111). -/
def ScaleRec.record (r : ScaleRec) (x : Nat) : ScaleRec :=
  if isAbsent .f32 x || (fval .f32 x).isNan then r
  else { ent := r.ent.set r.wi (BitVec.ofNat 32 (x % 2 ^ 31)), wi := (r.wi + 1) % 16, v := min 16 (r.v + 1) }

/-- The scale record of an index (R159). -/
def scaleRec (x : Matrix) (k : Nat) : ScaleRec := x.recs.getD (k % 32) .clear

/-- AMXREC (R111, R159, R165). -/
def laneAmxrec (w : IWord) (k : LaneId) (l : Lane) (s : State) : LaneOut :=
  match queueTrap s k w with
  | some t => .trap t
  | none => withSrcs s k l w .f32 .b32 .none (fun s a b _ =>
      if !ownsMatrix s k then .trapWith s (TrapInfo.plain .matrixNotOwner 0)
      else
        let c := laneCore s k
        let x := s.core c
        let r := scaleRec x.mx b
        let s' := s.setCore c { x with mx := { x.mx with recs := lset x.mx.recs (b % 32) (r.record a) } }
        finish s' k w .none 0 (flagIf (!isAbsent .f32 a && (fval .f32 a).isNan) NV))

/-- AMXGET (R112, R159, R165). MATRIX_NOT_OWNER does not wait for the destination: the model's choice (log 40). -/
def laneAmxget (w : IWord) (k : LaneId) (l : Lane) (s : State) : LaneOut :=
  match queueTrap s k w with
  | some t => .trap t
  | none => withSrcs s k l w .none .b32 .none (fun s _ b _ =>
      if !ownsMatrix s k then .trapWith s (TrapInfo.plain .matrixNotOwner 0)
      else finish s k w .f32 (pow2F32 (amxScale (scaleRec (s.core (laneCore s k)).mx b) w.t)) 0)

/-- The entry of AMXREC (R111, R159). The record index, "a register or a literal" of no class of R139, takes the codes of class s/i: the model's
choice (log 43). -/
def entryAmxrec : Entry := { tOk := tIn [.f32], a := clsS32, b := clsSI32, xOk := xZero, sync := true }
/-- AMXREC (R111, R159). -/
def execAmxrec (w : IWord) (s : State) : Host.Outcome State Fault Refusal :=
  .next (perLane entryAmxrec laneAmxrec w s)

/-- The entry of AMXGET (R112, R159). Its record index takes the codes of class s/i, as AMXREC's does: the model's choice (log 43). -/
def entryAmxget : Entry := { tOk := tIn [.e4m3, .e5m2, .f16, .bf16, .i8], d := clsD32, b := clsSI32, xOk := xZero }
/-- AMXGET (R112, R159). -/
def execAmxget (w : IWord) (s : State) : Host.Outcome State Fault Refusal :=
  .next (perLane entryAmxget laneAmxget w s)

/-- Registers of BEXP's block (R160). -/
def bexpRegs (t : Ty) : Nat := if t = .f32 then 32 else 16
/-- BEXP's block lies below the register count (R160). -/
def moreBexp (n : Nat) (w : IWord) : Bool := match w.a with | .g r => decide (r + bexpRegs w.t ≤ n) | _ => false
/-- The layout of BEXP (R160). -/
def xBexp (w : IWord) : Bool :=
  fld w.x 15 2 == 0 && decide (1 ≤ fld w.x 31 16) && decide (fld w.x 31 16 ≤ 64) && decide (fld w.x 1 0 ≠ 3)

/-- The elements of BEXP's block (R160). -/
def bexpElems (t : Ty) (regs : List Word) : List Nat :=
  if t = .f32 then regs.map (·.toNat)
  else regs.flatMap (fun r => [elemOf t 0 r.toNat, elemOf t 1 r.toNat])

/-- BEXP (R109, R160): WA governs every register of the block. -/
def laneBexp (w : IWord) (k : LaneId) (l : Lane) (s : State) : LaneOut :=
  match queueTrap s k w with
  | some t => .trap t
  | none =>
    match w.a with
    | .g r =>
      let rs := (List.range (bexpRegs w.t)).map (fun i => l.reg (r + i))
      if !rs.all (fun x => x.full) then (if w.wa then .trap (TrapInfo.plain .emptyRead (BitVec.ofNat 32 w.a.code)) else .wait)
      else
        finish s k w .b32 (bexpVal (tyElem w.t) (bexpElems w.t (rs.map (fun x => x.val))) (fld w.x 31 16) (fld w.x 1 0)) 0
    | _ => .trap (TrapInfo.plain .illOperand 0)

/-- The entry of BEXP (R109, R160). -/
def entryBexp : Entry := { tOk := tIn [.f32, .h2, .bh2], d := clsD32, a := [.g], xOk := xBexp, more := moreBexp }
/-- BEXP (R109, R160). -/
def execBexp (w : IWord) (s : State) : Host.Outcome State Fault Refusal :=
  .next (perLane entryBexp laneBexp w s)

/-- The types ABSENT accepts (R161). -/
def absentTypes : List Ty :=
  [.b8, .b16, .b32, .b64, .i8, .i16, .i32, .i64, .n8, .n16, .n32, .n64, .f16, .bf16, .f32, .e4m3, .e5m2, .q4, .q8, .px2, .h2, .bh2, .q4x8]

/-- The entry of ABSENT (R161). -/
def entryAbsent : Entry := { tOk := tIn absentTypes, d := clsD32, a := clsS, xOk := xZero }
/-- ABSENT (R161). -/
def execAbsent (w : IWord) (s : State) : Host.Outcome State Fault Refusal :=
  .next (perLane entryAbsent (laneAlu tysD32 (fun w _ a _ _ => (absentTest w.t a, 0))) w s)

/-- The entry of ABSENT.mk (R161). A register mask has 32 bits at any type T, so an odd register may hold it: the model's choice (log 43). -/
def entryAbsentMk : Entry := { tOk := tIn absentTypes, d := clsD, a := clsS, b := clsSI32, xOk := (fun w => w.b == .imm || w.x == 1#32) }
/-- ABSENT.mk (R161). The mask is read as 32 bits at any type T (log 43). -/
def execAbsentMk (w : IWord) (s : State) : Host.Outcome State Fault Refusal :=
  .next (perLane entryAbsentMk (laneAlu tysB32 (fun w _ a b _ => (absentMake w.t a b, 0))) w s)

/-! ### Special functions (R162) -/

/-- The entry of RCP (R162). -/
def entryRcp : Entry := { tOk := tIn [.f32], d := clsD, a := clsS, xOk := xArith false false true true }
/-- RCP (R162). -/
def execRcp (w : IWord) (s : State) : Host.Outcome State Fault Refusal :=
  .next (perLane entryRcp (laneAlu tysT (fun w l a _ _ => rcpVal (modeOf w l) (satOf w) a)) w s)

/-- The entry of RSQ (R162). -/
def entryRsq : Entry := { tOk := tIn [.f32], d := clsD, a := clsS, xOk := xArith false false true false }
/-- RSQ (R162). -/
def execRsq (w : IWord) (s : State) : Host.Outcome State Fault Refusal :=
  .next (perLane entryRsq (laneAlu tysT (fun w _ a _ _ => rsqVal (satOf w) a)) w s)

/-- The entry of SQRT (R162). -/
def entrySqrt : Entry := { tOk := tIn [.f32], d := clsD, a := clsS, xOk := xArith false false true true }
/-- SQRT (R162). -/
def execSqrt (w : IWord) (s : State) : Host.Outcome State Fault Refusal :=
  .next (perLane entrySqrt (laneAlu tysT (fun w l a _ _ => sqrtVal (modeOf w l) (satOf w) a)) w s)

/-- The entry of EXP2 (R162). -/
def entryExp2 : Entry := { tOk := tIn [.f32], d := clsD, a := clsS, xOk := xArith false false true false }
/-- EXP2 (R162). -/
def execExp2 (w : IWord) (s : State) : Host.Outcome State Fault Refusal :=
  .next (perLane entryExp2 (laneAlu tysT (fun w _ a _ _ => exp2Val (satOf w) a)) w s)

/-- The entry of LOG2 (R162). -/
def entryLog2 : Entry := { tOk := tIn [.f32], d := clsD, a := clsS, xOk := xArith false false true false }
/-- LOG2 (R162). -/
def execLog2 (w : IWord) (s : State) : Host.Outcome State Fault Refusal :=
  .next (perLane entryLog2 (laneAlu tysT (fun w _ a _ _ => log2Val (satOf w) a)) w s)

/-- The entry of SINPI (R162). -/
def entrySinpi : Entry := { tOk := tIn [.f32], d := clsD, a := clsS, xOk := xArith false false true false }
/-- SINPI (R162). -/
def execSinpi (w : IWord) (s : State) : Host.Outcome State Fault Refusal :=
  .next (perLane entrySinpi (laneAlu tysT (fun w _ a _ _ => sinpiVal (satOf w) a)) w s)

/-- The entry of COSPI (R162). -/
def entryCospi : Entry := { tOk := tIn [.f32], d := clsD, a := clsS, xOk := xArith false false true false }
/-- COSPI (R162). -/
def execCospi (w : IWord) (s : State) : Host.Outcome State Fault Refusal :=
  .next (perLane entryCospi (laneAlu tysT (fun w _ a _ _ => cospiVal (satOf w) a)) w s)

/-- The entry of TANH (R162). -/
def entryTanh : Entry := { tOk := tIn [.f32], d := clsD, a := clsS, xOk := xArith false false true false }
/-- TANH (R162). -/
def execTanh (w : IWord) (s : State) : Host.Outcome State Fault Refusal :=
  .next (perLane entryTanh (laneAlu tysT (fun w _ a _ _ => tanhVal (satOf w) a)) w s)

/-! ### Packed pixels (R163, R164) -/

/-- The entry of PADD (R163). -/
def entryPadd : Entry := { tOk := tIn [.px2], d := clsD, a := clsS, b := clsSI, xOk := xArith false true false false }
/-- PADD (R163). -/
def execPadd (w : IWord) (s : State) : Host.Outcome State Fault Refusal :=
  .next (perLane entryPadd (laneAlu tysT (fun w _ a b _ => pixBin (aiOf w) [0, 0] (fun x y => x + y) a b)) w s)

/-- The entry of PSUB (R163). -/
def entryPsub : Entry := { tOk := tIn [.px2], d := clsD, a := clsS, b := clsSI, xOk := xArith false true false false }
/-- PSUB (R163). -/
def execPsub (w : IWord) (s : State) : Host.Outcome State Fault Refusal :=
  .next (perLane entryPsub (laneAlu tysT (fun w _ a b _ => pixBin (aiOf w) [0, 0] (fun x y => x - y) a b)) w s)

/-- The entry of PMIN (R163). -/
def entryPmin : Entry := { tOk := tIn [.px2], d := clsD, a := clsS, b := clsSI, xOk := xArith false true false false }
/-- PMIN (R163). -/
def execPmin (w : IWord) (s : State) : Host.Outcome State Fault Refusal :=
  .next (perLane entryPmin (laneAlu tysT (fun w _ a b _ => pixBin (aiOf w) [maxCodeI .n16, maxCodeI .n16] min a b)) w s)

/-- The entry of PMAX (R163). -/
def entryPmax : Entry := { tOk := tIn [.px2], d := clsD, a := clsS, b := clsSI, xOk := xArith false true false false }
/-- PMAX (R163). -/
def execPmax (w : IWord) (s : State) : Host.Outcome State Fault Refusal :=
  .next (perLane entryPmax (laneAlu tysT (fun w _ a b _ => pixBin (aiOf w) [minCodeI .n16, minCodeI .n16] max a b)) w s)

/-- The entry of PAVG (R163). -/
def entryPavg : Entry := { tOk := tIn [.px2], d := clsD, a := clsS, b := clsSI, xOk := xArith false true false false }
/-- PAVG (R163). -/
def execPavg (w : IWord) (s : State) : Host.Outcome State Fault Refusal :=
  .next (perLane entryPavg (laneAlu tysT (fun w _ a b _ => pixPair (aiOf w) (fun x y => (x + y + 1) / 2) a b)) w s)

/-- The entry of PABD (R163). -/
def entryPabd : Entry := { tOk := tIn [.px2], d := clsD, a := clsS, b := clsSI, xOk := xArith false true false false }
/-- PABD (R163). -/
def execPabd (w : IWord) (s : State) : Host.Outcome State Fault Refusal :=
  .next (perLane entryPabd (laneAlu tysT (fun w _ a b _ => pixPair (aiOf w) (fun x y => ((x - y).natAbs : Int)) a b)) w s)

/-- The types of PSAD, PPACK and PUNPK (R163). -/
def tysPsad (_ : IWord) : Tys := ⟨.px2, .px2, .n32, .n32⟩
def tysPpack (_ : IWord) : Tys := ⟨.n32, .n32, .none, .px2⟩
def tysPunpk (_ : IWord) : Tys := ⟨.px2, .b32, .none, .n32⟩

/-- The entry of PSAD (R164). -/
def entryPsad : Entry := { tOk := tIn [.px2], d := clsD, a := clsS, b := clsSI, c := clsS, xOk := xArith false false false false }
/-- PSAD (R164). -/
def execPsad (w : IWord) (s : State) : Host.Outcome State Fault Refusal :=
  .next (perLane entryPsad (laneAlu tysPsad (fun _ _ a b c => psadVal a b c)) w s)

/-- The entry of PMAD (R164). -/
def entryPmad : Entry := { tOk := tIn [.px2], d := clsD, a := clsS, b := clsSI, c := clsS, xOk := xArith false false false false }
/-- PMAD (R164). -/
def execPmad (w : IWord) (s : State) : Host.Outcome State Fault Refusal :=
  .next (perLane entryPmad (laneAlu tysT (fun _ _ a b c => pmadVal a b c)) w s)

/-- The entry of PSHR (R163). -/
def entryPshr : Entry := { tOk := tIn [.px2], d := clsD, a := clsS, b := clsSI, xOk := xArith false false false false }
/-- PSHR (R163). -/
def execPshr (w : IWord) (s : State) : Host.Outcome State Fault Refusal :=
  .next (perLane entryPshr (laneAlu tysB32 (fun _ _ a b _ => (pshrVal a b, 0))) w s)

/-- The entry of PPACK (R163). -/
def entryPpack : Entry := { tOk := tIn [.px2], d := clsD, a := clsS, b := clsSI, xOk := xArith false false false false }
/-- PPACK (R163). -/
def execPpack (w : IWord) (s : State) : Host.Outcome State Fault Refusal :=
  .next (perLane entryPpack (laneAlu tysPpack (fun _ _ a b _ => ppackVal a b)) w s)

/-- The entry of PUNPK (R163). -/
def entryPunpk : Entry := { tOk := tIn [.px2], d := clsD, a := clsS, b := clsSI, xOk := xArith false false false false }
/-- PUNPK (R163). -/
def execPunpk (w : IWord) (s : State) : Host.Outcome State Fault Refusal :=
  .next (perLane entryPunpk (laneAlu tysPunpk (fun _ _ a b _ => (punpkVal a b, 0))) w s)

/-- The entry of PCLMP (R163). -/
def entryPclmp : Entry := { tOk := tIn [.px2], d := clsD, a := clsS, b := clsSI, c := clsS, xOk := xArith false false false false }
/-- PCLMP (R163). -/
def execPclmp (w : IWord) (s : State) : Host.Outcome State Fault Refusal :=
  .next (perLane entryPclmp (laneAlu tysT (fun _ _ a b c => (pclmpVal a b c, 0))) w s)

end Sys2Proof.Machine
end

