-- ==== Sys2Proof/Machine/MatrixOps.lean ====
section
/-! DEFINITION. The matrix engine's commands as the engine performs them (spec/14 R287 to R304; spec/04 R104, R113 to R115): weights,
accumulation steps, drains, the status word, and one row or one command at a time. -/

namespace Sys2Proof.Machine

/-! ### Elements and weights (R290, R291; spec/04 R104) -/

/-- The value of an element code of a stream or weight format. -/
def elemVal (t : Ty) (x : Nat) : FVal :=
  if isAbsent t x then .absent
  else if tyKind t = .flt then fval t x
  else .fin (decide (intVal t x < 0)) (intVal t x).natAbs 0

/-- The element codes packed in bytes, `n` of them (R291, R293). -/
def codesOf (t : Ty) (n : Nat) (bs : List Byte) : List Nat :=
  if t = .q4 then (List.range n).map (fun i => (byteAt bs (i / 2)).toNat / 16 ^ (i % 2) % 16)
  else (List.range n).map (fun i => ofBytesLE ((bs.drop (i * tyBytes t)).take (tyBytes t)))

/-- The bytes that `n` elements take. -/
def codesLen (t : Ty) (n : Nat) : Nat := if t = .q4 then ceilDiv n 2 else n * tyBytes t

/-- Quantised weights (R290). -/
def isQuant (t : Ty) : Bool := t == .q8 || t == .q4

/-- The group size that GS names (R283). -/
def gsOf (n : Nat) : Nat := if n = 0 then 0 else 16 * 2 ^ n

/-- The groups of K rows. -/
def groupsOf (k gs : Nat) : Nat := if gs = 0 then 0 else ceilDiv k gs

/-- The length of the scale block (R291). -/
def scalesLen (k n gs : Nat) : Nat := 3 * groupsOf k gs * n

/-- Weights latched from the bytes of the weight area and of the scale block (R291). -/
def latch (t : Ty) (k n gs : Nat) (area scales : List Byte) : Weights :=
  let g := groupsOf k gs
  { fmt := t, gs := gs, w := codesOf t (k * n) area
    scales := (List.range (g * n)).map (fun i => ofBytesLE ((scales.drop (2 * i)).take 2))
    zps := (List.range (g * n)).map (fun i => (byteAt scales (2 * g * n + i)).toNat % (if t = .q4 then 16 else 256)) }

/-- The factor of weight (k, n) in S: q − zp of a quantised weight, the value of another (R113). -/
def Weights.factor (w : Weights) (cols k n : Nat) : FVal :=
  let q := w.w.getD (k * cols + n) 0
  if w.gs = 0 then elemVal w.fmt q
  else if isAbsent w.fmt q then .absent
  else
    let d : Int := (q : Int) - w.zps.getD (k / w.gs * cols + n) 0
    .fin (decide (d < 0)) d.natAbs 0

/-- The group scale of weight (k, n): 1 for unquantised weights (R113). -/
def Weights.scaleAt (w : Weights) (cols k n : Nat) : FVal :=
  if w.gs = 0 then .fin false 1 0 else fval .f16 (w.scales.getD (k / w.gs * cols + n) 0)

/-! ### Accumulation (spec/04 R113 to R115; R295, R296) -/

/-- A finite zero. -/
def FVal.isZero : FVal → Bool
  | .fin _ 0 _ => true
  | _ => false

/-- A finite number. -/
def FVal.isFin : FVal → Bool
  | .fin _ _ _ => true
  | _ => false

/-- An exact sum as a value; its numerator stands over 1. -/
def Ex.toVal : Ex → FVal
  | .nan => .nan false
  | .inf n => .inf n
  | .zero n => .fin n 0 0
  | .num n m _ e => .fin n m e

/-- One chunk: whether a product is present, and the value c to add, with its flags (R113, R115). -/
def chunkOf (sparse : Bool) (gact : Int) (g : FVal) (ps : List (FVal × FVal)) : Bool × Option Res :=
  let there := if g = .absent then [] else ps.filter (fun p => p.1 != .absent && p.2 != .absent)
  let used := there.filter (fun p => !(sparse && (p.1.isZero || (g.isFin && (g.isZero || p.2.isZero)))))
  if used.isEmpty then (!there.isEmpty, none)
  else
    let prods := used.map (fun p => mulV p.1 p.2)
    let (sum, f1) := sumV .rne (prods.map Prod.fst)
    let (x, f2) := mulV sum.toVal g
    let (c, f3) := roundF (ffmt .f32) .rne false (x.scale gact).toEx
    (true, some (c, prods.foldl (fun f p => f ||| p.2) (f1 ||| f2 ||| f3)))

/-- The accumulation step of one entry: its new value and count, and the flags (R113, R114). -/
def accStep (sparse : Bool) (gact : Int) (w : Weights) (k cols n : Nat) (row : List FVal) (e : Word × Nat) : (Word × Nat) × Flags :=
  let chunks := (List.range (ceilDiv k 32)).map (fun j =>
    let ks := (List.range 32).filterMap (fun i => if 32 * j + i < k then some (32 * j + i) else none)
    chunkOf sparse gact (w.scaleAt cols (32 * j) n) (ks.map (fun i => (row.getD i .absent, w.factor cols i n))))
  let (v, fl) := chunks.foldl (fun (a : Nat × Flags) c => match c.2 with
    | some (x, f) => let r := faddPre .f32 .rne false a.1 x; (r.1, a.2 ||| f ||| r.2)
    | none => a) (e.1.toNat, 0)
  let some_ := chunks.any Prod.fst
  ((BitVec.ofNat 32 v, if some_ then min (e.2 + 1) 65535 else e.2), fl ||| flagIf (some_ && e.2 == 65535) OF)

/-- An accumulator entry (R297). -/
def Matrix.entry (m : Matrix) (row n : Nat) : Word × Nat := mget m.acc (row, n) (0#32, 0)

/-- One activation row into one accumulator row (R294). -/
def Matrix.streamRow (m : Matrix) (sparse : Bool) (gact : Int) (cfg : MCfg) (w : Weights) (row : List FVal) (r : Nat) : Matrix :=
  (List.range cfg.n).foldl (fun m n =>
    let (e, f) := accStep sparse gact w cfg.k cfg.n n row (m.entry r n)
    { m with acc := mset m.acc (r, n) e, fl := m.fl ||| f }) m

/-! ### Drains (R298 to R301) -/

/-- A drained entry of type `t` (R298). -/
def drainVal (t : Ty) (mean : Bool) (emp : Nat) (e : Word × Nat) : Res :=
  if e.2 = 0 ∧ emp = 1 then (absentOf t, 0)
  else if e.2 = 0 ∧ emp = 2 then (0, 0)
  else
    match fval .f32 e.1.toNat with
    | .fin neg m k =>
      if mean ∧ e.2 ≠ 0 ∧ m ≠ 0 then roundF (ffmt t) .rne false (.num neg m e.2 k)
      else convert .f32 t .rne false e.1.toNat none
    | _ => convert .f32 t .rne false e.1.toNat none

/-- The drained values of a row, and their flags. -/
def Matrix.drainRow (m : Matrix) (t : Ty) (mean : Bool) (emp cols r : Nat) : List Nat × Flags :=
  let rs := (List.range cols).map (fun n => drainVal t mean emp (m.entry r n))
  (rs.map Prod.fst, rs.foldl (fun f p => f ||| p.2) 0)

/-- The 384 bytes of a row as MSTA writes it (R300). -/
def Matrix.rowBytes (m : Matrix) (r : Nat) : List Byte :=
  (List.range 64).flatMap (fun n => bytesLE 4 (m.entry r n).1.toNat) ++ (List.range 64).flatMap (fun n => bytesLE 2 (m.entry r n).2)

/-- A row as MLDA loads it: a value of all ones becomes +0 with count 0 (R300). -/
def Matrix.loadRow (m : Matrix) (r : Nat) (bs : List Byte) : Matrix :=
  (List.range 64).foldl (fun m n =>
    let v := ofBytesLE ((bs.drop (4 * n)).take 4)
    let c := ofBytesLE ((bs.drop (256 + 2 * n)).take 2)
    { m with acc := mset m.acc (r, n) (if v = 2 ^ 32 - 1 then (0#32, 0) else (BitVec.ofNat 32 v, c)) }) m

/-! ### Status (R302) and errors (R304) -/

/-- A tile's first row and row count; (0, 0) when it is undefined or the engine has no configuration (R288). -/
def Matrix.tile (m : Matrix) (t : Nat) : Nat × Nat := match m.cfg with | some c => c.tiles.getD t (0, 0) | none => (0, 0)

/-- The running command waits on mq (R302). -/
def Matrix.waitsMq (m : Matrix) : Bool :=
  match m.q with
  | c :: _ => c.aq == .q 12 && (c.op == 0x244 || c.op == 0x245) && decide (c.row < c.b) && m.mq.isEmpty && !m.err
  | [] => false

/-- The status word with a queue depth (R302). -/
def Matrix.status (m : Matrix) (qd : Nat) : Word :=
  BitVec.ofNat 32 (qd * 2 ^ 27 + b2n m.cfg.isSome * 2 ^ 26 + b2n m.wts.isSome * 2 ^ 25 + b2n m.waitsMq * 2 ^ 24 +
    m.cause.code * 2 ^ 16 + b2n m.err * 2 ^ 15 + m.fl.toNat)

/-- Replace a core's matrix engine. -/
def setMx (s : State) (core : Nat) (m : Matrix) : State := s.setCore core { s.core core with mx := m }

/-- ERR is set with a cause, and reported in an event record with the index of the command (R304). -/
def mxError (s : State) (core : Nat) (c : Cause) (index : Nat) : State :=
  let s := setMx s core { (s.core core).mx with err := true, cause := c }
  emit s (.matrix core) 0x30 [(0x90, 1, c.code), (0x94, 4, index)]

/-! ### Performing commands (R287, R294, R299 to R304) -/

/-- The values of a command's deliveries are known; they see what the die has applied (R310). -/
def fillPends (s : State) (core : Nat) (c : MCmd) (v : LaneId → List Word) : State :=
  (c.lanes.zip c.pids).foldl (fun s p => match s.lane? p.1 with
    | some l => s.setLane p.1 { l with pend := l.pend.map (fun q =>
        if q.id = p.2 then { q with vals := some (v p.1), needs := (s.die (dieOf core)).vec } else q) }
    | none => s) s

/-- A command has gone on: an engine whose warp has exited ends what waits for mq, and is released after its last command (R286). -/
def orphaned (s : State) (core : Nat) (c : MCmd) : State :=
  match s.warp? c.warp with
  | some w => if w.masks.headD 0#32 = 0#32 then matrixOrphan s core c.warp else s
  | none => s

/-- The command at the head completes: its entries go, its lanes' values are known, and an engine whose warp has exited is released
(R286, R287). -/
def mxDone (s : State) (core : Nat) (c : MCmd) (v : LaneId → List Word) : State :=
  let s := fillPends (dropRoads s core true c.num) core c v
  let s := setMx s core { (s.core core).mx with q := ((s.core core).mx.q).drop 1 }
  orphaned s core c

/-- The command at the head has finished a row. -/
def mxRow (s : State) (core : Nat) (c : MCmd) : State :=
  let c' := { c with row := c.row + 1, part := [] }
  if c.b ≤ c'.row then mxDone s core c' (fun _ => [])
  else orphaned (setMx s core { (s.core core).mx with q := c' :: ((s.core core).mx.q).drop 1 }) core c

/-- The tag of the engine's scratchpad writes (spec/21 R395). -/
def mxTag (c : MCmd) : WTag := { ctx := c.ctx, issuer := 2, vas := [], pc := BitVec.ofNat 64 c.num, lane := c.lanes.head? }

/-- Where row `r` of a command stands in scratchpad. -/
def mxPlace (s : State) (c : MCmd) (a n : Nat) : GroupId × Nat :=
  (spadResolve s (WarpId.grp c.warp) (a % 2 ^ 32) n).getD (WarpId.grp c.warp, 0)

/-- MWLD at the head (R291, R292). -/
def mxLoad (s : State) (core : Nat) (c : MCmd) : State :=
  let m := (s.core core).mx
  match m.cfg with
  | none => mxDone s core c (fun _ => [])
  | some cfg =>
    let gs := gsOf (fld c.x 17 16)
    let n := codesLen c.ty (cfg.k * cfg.n)
    let sn := scalesLen cfg.k cfg.n gs
    let spad := fun (s : State) (a n : Nat) => let p := mxPlace s c a n; spadRead s p.1 p.2 n
    let scales := if isQuant c.ty then spad s c.b sn else []
    let fin := fun (s : State) (bs : List Byte) =>
      mxDone (setMx s core { (s.core core).mx with wts := some (latch c.ty cfg.k cfg.n gs bs scales) }) core c (fun _ => [])
    let fail := fun (s : State) (x : Cause) =>
      let s := mxError s core x c.num
      mxDone (setMx s core { (s.core core).mx with wts := none }) core c (fun _ => [])
    if flg c.x 12 then fin s (spad s c.a n)
    else
      match bulkRead s (dieOf core) c.ctx (BitVec.ofNat 64 c.a) n .load with
      | (s, .bytes bs _ _, _) => if engineLate s c.waited && farRange s (dieOf core) c.ctx c.a n then fail s .remoteTimeout else fin s bs
      | (s, .fault x level _, va) =>
        if replayable x then
          let s := postFault s (dieOf core) (.matrix core)
            { va := va.toNat, cause := x, access := 0, ctx := c.ctx, issuer := 2, lanes := 0, pc := c.num, level := level }
          setMx s core { (s.core core).mx with q := { c with parked := true, waited := 0 } :: ((s.core core).mx.q).drop 1 }
        else fail s x
      | (s, .failed f, _) => fail s f.cause
      | (s, _, _) => s

/-- One row of MSTR or MSPR (R293 to R296). -/
def mxStream (s : State) (core : Nat) (c : MCmd) : State :=
  let m := (s.core core).mx
  match m.cfg, m.wts with
  | some cfg, some w =>
    let gact := match c.scale with
      | some g => g
      | none => if cfg.smode = 1 then cfg.sexp else if cfg.smode = 2 then -(amxScale (m.recs.getD cfg.srec .clear) c.ty) else 0
    let c := { c with scale := some gact }
    let run := fun (s : State) (bs : List Byte) =>
      let m := (s.core core).mx
      let r := (m.tile (fld c.x 2 0)).1 + fld c.x 31 16 + c.row
      mxRow (setMx s core (m.streamRow (c.op == 0x245) gact cfg w ((codesOf c.ty cfg.k bs).map (elemVal c.ty)) r)) core c
    if c.b ≤ c.row then mxDone s core c (fun _ => [])
    else if c.aq = .q 12 then
      let need := ceilDiv (cfg.k * tyBytes c.ty) 4
      let take := min (need - c.part.length) m.mq.length
      let part := c.part ++ m.mq.take take
      let s := setMx s core { m with mq := m.mq.drop take, q := { c with part := part } :: m.q.drop 1 }
      if part.length < need then s else run s (part.flatMap (fun e => bytesLE 4 e.toNat))
    else
      let n := cfg.k * tyBytes c.ty
      let p := mxPlace s c (c.a + c.row * c.c) n
      run s (spadRead s p.1 p.2 n)
  | _, _ => mxDone s core c (fun _ => [])

/-- Every lane of the owning warp has exited (R286): nothing pops mr any more. -/
def mxOrphaned (s : State) (m : Matrix) : Bool :=
  match m.owner with
  | some w => (match s.warp? w with | some x => x.masks.headD 0#32 == 0#32 | none => true)
  | none => false

/-- MDRN at the head: a whole row to registers, or the next row to mr or scratchpad (R299). A row to mr that finds no room once every lane of the
owner has exited is dropped, as mr is discarded next (R286; log 23). -/
def mxDrain (s : State) (core : Nat) (c : MCmd) : State :=
  let m := (s.core core).mx
  let cols := match m.cfg with | some cfg => cfg.n | none => 0
  let r := (m.tile (fld c.x 2 0)).1 + fld c.x 31 16 + c.row
  let out := fun (n : Nat) => m.drainRow c.ty (flg c.x 9) (fld c.x 11 10) n r
  let flagged := fun (s : State) (f : Flags) => setMx s core { (s.core core).mx with fl := (s.core core).mx.fl ||| f }
  match c.dq with
  | .g _ =>
    let (vs, f) := out 64
    mxDone (flagged s f) core c (fun k => [BitVec.ofNat 32 (vs.getD k.lane 0), BitVec.ofNat 32 (vs.getD (k.lane + 32) 0)])
  | d =>
    if c.b ≤ c.row then mxDone s core c (fun _ => [])
    else
      let (vs, f) := out cols
      let bs := vs.flatMap (bytesLE (tyBytes c.ty))
      if d = .q 13 then
        let n := ceilDiv bs.length 4
        if 256 < m.mr.length + n then (if mxOrphaned s m then mxRow (flagged s f) core c else s)
        else
          let es := (List.range n).map (fun i => BitVec.ofNat 32 (ofBytesLE ((bs.drop (4 * i)).take 4)))
          let s := flagged s f
          mxRow (setMx s core { (s.core core).mx with mr := m.mr ++ es }) core c
      else
        let p := mxPlace s c (c.a + c.row * c.c) bs.length
        mxRow (spadWrite (flagged s f) p.1 p.2 bs (mxTag c)) core c

/-- The engine performs the next row of the command at its head, or the whole command (R287, R304). -/
def mxCommand (s : State) (core : Nat) : State :=
  let m := (s.core core).mx
  match m.q with
  | [] => s
  | c :: _ =>
    if c.parked then s
    else if m.err ∧ c.op ≠ 0x24B then mxDone s core c (fun _ => if c.op = 0x246 then [0xFFFFFFFF#32, 0xFFFFFFFF#32] else [0#32])
    else
      let row := (m.tile (fld c.x 2 0)).1 + fld c.x 31 16 + c.row
      match c.op with
      | 0x243 => mxLoad s core c
      | 0x244 | 0x245 => mxStream s core c
      | 0x246 => mxDrain s core c
      | 0x247 =>
        let t := m.tile (fld c.x 2 0)
        mxDone (setMx s core { m with acc := m.acc.filter (fun p => decide (p.1.1 < t.1 ∨ t.1 + t.2 ≤ p.1.1)) }) core c (fun _ => [])
      | 0x248 =>
        if c.b ≤ c.row then mxDone s core c (fun _ => [])
        else
          let p := mxPlace s c (c.a + 384 * c.row) 384
          mxRow (setMx s core (m.loadRow row (spadRead s p.1 p.2 384))) core c
      | 0x249 =>
        if c.b ≤ c.row then mxDone s core c (fun _ => [])
        else
          let p := mxPlace s c (c.a + 384 * c.row) 384
          mxRow (spadWrite s p.1 p.2 (m.rowBytes row) (mxTag c)) core c
      | 0x24A => mxDone s core c (fun k => [BitVec.ofNat 32 ((m.entry row k.lane).2 + 2 ^ 16 * (m.entry row (k.lane + 32)).2)])
      | _ => mxDone s core c (fun _ => [m.status 0])

/-- The engine has work it can do now. -/
def mxDue (s : State) (core : Nat) : Bool :=
  let m := (s.core core).mx
  match m.q with
  | [] => false
  | c :: _ =>
    !c.parked && m.owner.all (fun w => gangWorks s w.gang) && !m.waitsMq &&
      !(c.op == 0x246 && c.dq == .q 13 && !m.err && !mxOrphaned s m && decide (c.row < c.b) &&
        decide (256 < m.mr.length + ceilDiv ((match m.cfg with | some g => g.n | none => 0) * tyBytes c.ty) 4))

/-- The bytes of flat memory that a command accesses once it is performed: MWLD's weights, where it stands at the head (R291). -/
def mxRanges (s : State) (core : Nat) (c : MCmd) : List (Nat × Nat) :=
  let m := (s.core core).mx
  match m.cfg with
  | some cfg =>
    if mxDue s core && !m.err && c.op == 0x243 && !flg c.x 12 && (m.q.head?.map MCmd.num) == some c.num then [(c.a, codesLen c.ty (cfg.k * cfg.n))] else []
  | none => []

end Sys2Proof.Machine
end

