-- ==== Sys2Proof/Machine/Matrix.lean ====
section
/-! DEFINITION. The matrix group as warps issue it (spec/14 R280 to R302, R305, R308, R309): each instruction is a collective with mask
m0, whose operands come from its lowest lane with a true guard. -/

namespace Sys2Proof.Machine

/-! ### Fields (R282, R283) -/

/-- The matrix layout with the fields a form uses. -/
def xMx (row emp tile : Bool) (w : IWord) : Bool :=
  fld w.x 15 12 == 0 && fld w.x 8 3 == 0 && (if row then fld w.x 31 26 == 0 else fld w.x 31 16 == 0) &&
    (if emp then fld w.x 11 10 != 3 else fld w.x 11 9 == 0) && (tile || fld w.x 2 0 == 0)

def mxStreams : List Ty := [.f16, .bf16, .e4m3, .e5m2, .i8]

def entryMx0 : Entry := { sync := true }
def entryMcfg : Entry := { a := [.g], sync := true }
def entryMwld : Entry :=
  { tOk := tIn (.q8 :: .q4 :: mxStreams), a := [.g], b := [.g, .none]
    more := fun n w => (match w.a with | .g r => decide (r < n) && (flg w.x 12 || r % 2 == 0) | _ => false) && (w.b != .none) == isQuant w.t
    xOk := fun w => fld w.x 31 18 == 0 && fld w.x 15 13 == 0 && fld w.x 11 0 == 0, sync := true }
def entryMstr : Entry :=
  { tOk := tIn (.none :: mxStreams), a := [.g, .port 12], b := [.g], c := [.g, .none]
    more := fun _ w => (w.c == .none) == (w.a == .q 12), xOk := xMx true false true, sync := true }
def entryMdrn : Entry :=
  { tOk := tIn [.f32, .f16, .bf16], d := [.g12, .port 13, .none], a := [.g, .none], b := [.g, .none], c := [.g, .none]
    more := fun _ w => match w.d with
      | .g _ => w.a == .none && w.b == .none && w.c == .none
      | .q _ => w.a == .none && w.b != .none && w.c == .none
      | _ => w.a != .none && w.b != .none && w.c != .none
    xOk := xMx true true true, sync := true }
def entryMzer : Entry := { xOk := xMx false false true, sync := true }
def entryMlda : Entry := { a := [.g], b := [.g], xOk := xMx true false true, sync := true }
def entryMcnt : Entry := { d := [.g], xOk := xMx true false true, sync := true }
def entryMsync : Entry := { d := [.g, .z], sync := true }
def entryMstat : Entry := { d := [.g], sync := true }

/-! ### The collective (R281; spec/03 R81) -/

/-- m0 of a lane's warp is full. -/
def m0Full (s : State) (k : LaneId) : Bool :=
  match s.warp? (LaneId.wid k) with | some w => w.masks.headD 0#32 == 0xFFFFFFFF#32 | none => false

/-- What an issue comes to. -/
inductive MxOut where
  | done (s : State)            -- every lane goes on
  | parked (s : State)          -- the lanes stand as the state has them
  | trap (t : TrapInfo)
  | wait                        -- the instruction is not ready
  deriving DecidableEq, Repr

/-- The instruction at the moment its collective performs: `f` gets its core, its lanes with a true guard and the lowest of them. -/
def mxPerform (w : IWord) (f : Nat → List LaneId → LaneId → Lane → State → MxOut) (_ : WarpId) (parts : List LaneId) (s : State) : State :=
  let on := parts.filter (guardOn w s)
  let goAll := fun (s : State) (ls : List LaneId) => ls.foldl (fun s k => match s.lane? k with
    | some l => s.setLane k (l.advance s)
    | none => s) (unpark s ls)
  match on with
  | [] => goAll s parts
  | k :: _ =>
    match s.lane? k with
    | none => s
    | some l =>
      match f (laneCore s k) on k l s with
      | .done s => goAll s parts
      | .parked s => s
      | .trap t => formTraps (goAll s (parts.filter (fun p => !on.contains p))) s.cur.pc s.cur.len (on.map (fun p => (p, t)))
      | .wait => { (s.setLane k { l with st := .run }) with blocked := k :: s.blocked }

/-- A matrix instruction (R81): with m0 not full it raises ILL_CONVERGENCE at once. -/
def matrixColl (e : Entry) (f : IWord → Nat → List LaneId → LaneId → Lane → State → MxOut) (w : IWord) (s : State) : State :=
  collective e w 0
    (fun k _ s => if m0Full s k then .go else .trap (TrapInfo.plain .illConvergence 0))
    (fun k _ s => if m0Full s k then .go else .skip)
    (mxPerform w (f w)) s

/-- Read the lowest lane's operands (R281), with its waits and traps. -/
def mxSrcs (s : State) (k : LaneId) (l : Lane) (w : IWord) (ta tb tc : Ty) (f : Nat → Nat → Nat → MxOut) : MxOut :=
  match readSrc s k l w (if w.a = .q 12 then .none else w.a) w.wa ta, readSrc s k l w w.b w.wb tb, readSrc s k l w w.c w.wc tc with
  | .trap t, _, _ => .trap t
  | .wait, _, _ => .wait
  | _, .trap t, _ => .trap t
  | _, .wait, _ => .wait
  | _, _, .trap t => .trap t
  | _, _, .wait => .wait
  | .val _ a, .val _ b, .val _ c => f a b c

/-- The first two of the traps of R309 that no operand decides: the owner, and the configuration for a form that needs one. -/
def mxOwned (s : State) (core : Nat) (k : LaneId) (needsCfg : Bool) (f : Matrix → MxOut) : MxOut :=
  let m := (s.core core).mx
  if m.owner ≠ some (LaneId.wid k) then .trap (TrapInfo.plain .matrixNotOwner 0)
  else if needsCfg && m.cfg.isNone then .trap (TrapInfo.plain .matrixConfig 0)
  else f m

/-- An address trap of the engine's operands: one address for the warp. -/
def mxAddr (c : Cause) (a : Nat) (store : Bool) (sp : Space) : TrapInfo :=
  { accTrap c (BitVec.ofNat 64 a) (accInfo 0 sp store 1 false) with perLane := none }

/-- A scratchpad range of `n` bytes in elements of `size` bytes (R194, R292, R293): its registration, MISALIGNED or SPAD_BOUNDS. -/
def mxSpad (s : State) (k : LaneId) (a n size : Nat) (store : Bool) : List Range ⊕ TrapInfo :=
  if n = 0 then .inl []
  else if a % size ≠ 0 then .inr (mxAddr .misaligned a store .spad)
  else match spadResolve s (LaneId.grp k) a n with
    | some (g, o) => .inl [⟨some g, o, o + n⟩]
    | none => .inr (mxAddr .spadBounds a store .spad)

/-- The scratchpad rows of a stream or drain: `rows` of them at a stride, each of `n` bytes in elements of `size` (R293, R299). A stride that is no
multiple of the size misaligns a row (log 23). -/
def mxRows (s : State) (k : LaneId) (a stride rows n size : Nat) (store : Bool) : List Range ⊕ TrapInfo :=
  if 1 < rows ∧ stride % size ≠ 0 ∧ a % size = 0 then .inr (mxAddr .misaligned (a + stride) store .spad)
  else mxSpad s k a (if rows = 0 then 0 else (rows - 1) * stride + n) size store

/-- The bytes of each row of a drain, where a stride leaves bytes between them (R305): a range for each row. -/
def rowRanges (rows n stride : Nat) : List Range → List Range
  | [r] => if rows ≤ 1 ∨ stride ≤ n then [r] else (List.range rows).map (fun i => ⟨r.spad, r.lo + i * stride, r.lo + i * stride + n⟩)
  | rs => rs

/-- Every flat access of the warp's lanes has been performed (R311; spec/12 R248). -/
def warpQuiet (s : State) (w : WarpId) : Bool := (lanesOfWarp w).all (fun p => match s.lane? p with | some l => l.quiet | none => true)

/-- Queue a command, once its destinations are full, a slot is free and the Roadworks table has room (R287, R305, R309). -/
def mxQueue (s : State) (core : Nat) (on : List LaneId) (k : LaneId) (w : IWord) (op : Nat) (ty : Ty) (a b c : Nat) (rs : List Range)
    (dst : List Nat) : MxOut :=
  let m := (s.core core).mx
  let ready := warpQuiet s (LaneId.wid k) && on.all (fun p => match s.lane? p with | some l => l.regsFull dst | none => true)
  if !ready || decide (16 ≤ m.q.length) || decide (roadRoom s (dieOf core) < rs.length) then .wait
  else
    let num := m.nextCmd
    let ctx := laneCtx s k
    let s := addRoads s (dieOf core) core ctx num true rs
    let (s, pids) := if dst.isEmpty then (s, []) else on.foldl (fun (a : State × List Nat) p =>
      (addPend a.1 p (pendOf a.1 .matrix dst none), a.2 ++ [a.1.uid])) (s, [])
    let cmd : MCmd :=
      { num := num, op := op, ty := ty, x := w.x, a := a, b := b, c := c, aq := w.a, dq := w.d, warp := LaneId.wid k, ctx := ctx, lanes := on
        pids := pids, scale := none, row := 0, part := [], parked := false, waited := 0 }
    let m := (s.core core).mx
    .done (setMx s core { m with q := m.q ++ [cmd], nextCmd := num + 1 })

/-- The tile of a form holds `rows` rows from ROW (R294, R297). -/
def tileOk (m : Matrix) (w : IWord) (rows : Nat) : Bool :=
  let t := m.tile (fld w.x 2 0)
  t.2 != 0 && decide (fld w.x 31 16 + rows ≤ t.2)

/-! ### Ownership (R284, R285) -/

/-- MACQ (R284). -/
def mxMacq (_ : IWord) (core : Nat) (on : List LaneId) (k : LaneId) (_ : Lane) (s : State) : MxOut :=
  let w := LaneId.wid k
  let m := (s.core core).mx
  if m.owner = some w then .done s
  else
    let s := (lanesOfWarp w).foldl (fun s p => match s.lane? p with
      | some l => s.setLane p { l with st := .macq (nextPc s) (on.contains p) }
      | none => s) s
    .parked (matrixPass (setMx s core { m with fifo := m.fifo ++ [w] }) core)

/-- MREL (R285): once the queue is empty, FL goes to lane 0's fflags and the engine passes on. -/
def mxMrel (_ : IWord) (core : Nat) (_ : List LaneId) (k : LaneId) (_ : Lane) (s : State) : MxOut :=
  mxOwned s core k false (fun m =>
    if !m.q.isEmpty then .wait
    else
      let z : LaneId := { k with lane := 0 }
      let s := match s.lane? z with | some l => s.setLane z (l.raise m.fl) | none => s
      .done (matrixRelease s core))

/-! ### Configuration (R288, R289) -/

/-- The offsets of the bytes of a configuration block whose check fails, but for the stream format's (R289). -/
def cfgBad (bs : List Byte) : List Nat :=
  let n := fun (o k : Nat) => ofBytesLE ((bs.drop o).take k)
  let base := fun (t : Nat) => n (8 + 4 * t) 2
  let rows := fun (t : Nat) => n (10 + 4 * t) 2
  let meets := fun (t u : Nat) => decide (rows t ≠ 0 ∧ rows u ≠ 0 ∧ base t < base u + rows u ∧ base u < base t + rows t)
  (if 127 < n 0 1 then [0] else []) ++ (if 63 < n 1 1 then [1] else []) ++ (if 2 < n 3 1 then [3] else []) ++
    (if n 4 1 = 128 then [4] else []) ++ (if 31 < n 5 1 then [5] else []) ++
    (List.range 8).filterMap (fun t => if 1024 < base t + rows t then some (8 + 4 * t) else none) ++
    (List.range 8).filterMap (fun u => if (List.range u).any (fun t => meets t u) then some (8 + 4 * u) else none) ++
    ((6 :: 7 :: (List.range 24).map (0x28 + ·)).filter (fun i => n i 1 ≠ 0))

/-- The configuration of a block, or the cause and the offset of the first failing byte (R289, R309). -/
def parseCfg (bs : List Byte) : MCfg ⊕ (Cause × Nat) :=
  let n := fun (o k : Nat) => ofBytesLE ((bs.drop o).take k)
  let afmt := Ty.ofCode (n 2 1 % 32)
  let fmtBad := decide (32 ≤ n 2 1) || !mxStreams.contains afmt
  match cfgBad bs with
  | b :: r => .inr (.matrixConfig, ((if fmtBad then [2] else []) ++ r).foldl min b)
  | [] =>
    if fmtBad then .inr (.matrixFormat, 2)
    else .inl { k := n 0 1 + 1, n := n 1 1 + 1, afmt := afmt, smode := n 3 1, sexp := sext 8 (n 4 1), srec := n 5 1
                tiles := (List.range 8).map (fun t => (n (8 + 4 * t) 2, n (10 + 4 * t) 2)) }

/-- MCFG (R288, R289): it reads its block once the engine is idle. -/
def mxMcfg (w : IWord) (core : Nat) (_ : List LaneId) (k : LaneId) (l : Lane) (s : State) : MxOut :=
  mxOwned s core k false (fun m =>
    mxSrcs s k l w .b32 .none .none (fun a _ _ =>
      if a % 64 ≠ 0 then .trap (mxAddr .misaligned a false .spad)
      else
        match spadResolve s (LaneId.grp k) a 64 with
        | none => .trap (mxAddr .spadBounds a false .spad)
        | some (g, o) =>
          if !m.q.isEmpty || !warpQuiet s (LaneId.wid k) then .wait
          else
            match parseCfg (spadRead s g o 64) with
            | .inr (c, off) => .trap (TrapInfo.plain c (BitVec.ofNat 32 off))
            | .inl cfg =>
              .done (setMx s core { m with cfg := some cfg, acc := [], wts := none, err := false, cause := .none, nextCmd := m.nextCmd + 1 })))

/-! ### Weights and streams (R290 to R296) -/

/-- MWLD's weight range: scratchpad or flat (R292). -/
def mxWeights (s : State) (k : LaneId) (spad : Bool) (a n size : Nat) : List Range ⊕ TrapInfo :=
  if spad then mxSpad s k a n size false
  else
    let va : Addr := BitVec.ofNat 64 a
    let last : Addr := BitVec.ofNat 64 (a + (n - 1))
    if !canonical va || !canonical last then .inr (mxAddr .noncanonical a false .flat)
    else if inPrivate va || inPrivate last then .inr (mxAddr .permission a false .priv)
    else .inl [⟨none, a, a + n⟩]

/-- MWLD (R290 to R292). -/
def mxMwld (w : IWord) (core : Nat) (on : List LaneId) (k : LaneId) (l : Lane) (s : State) : MxOut :=
  mxOwned s core k true (fun m =>
    mxSrcs s k l w (if flg w.x 12 then .b32 else .b64) .b32 .none (fun a b _ =>
      let cfg := m.cfg.getD ⟨1, 1, .i8, 0, 0, 0, []⟩
      let gs := gsOf (fld w.x 17 16)
      let sn := if isQuant w.t then scalesLen cfg.k cfg.n gs else 0
      match mxWeights s k (flg w.x 12) a (codesLen w.t (cfg.k * cfg.n)) (max 1 (tyBytes w.t)), mxSpad s k b sn 2 false with
      | .inr t, _ => .trap t
      | _, .inr t => .trap t
      | .inl r, .inl q =>
        if (gs = 0) = isQuant w.t then .trap (TrapInfo.plain .matrixFormat 0)
        else mxQueue s core on k w 0x243 w.t a b 0 (r ++ q) []))

/-- The weight format a stream issued now will meet: the latest queued MWLD's, else the latched tile's. -/
def Matrix.pendingFmt (m : Matrix) : Option Ty :=
  match (m.q.filter (fun c => c.op == 0x243)).getLast? with
  | some c => some c.ty
  | none => m.wts.map (·.fmt)

/-- Weight and stream formats pair (R290). -/
def formatsPair (wt st : Ty) : Bool :=
  match wt with
  | .f16 | .bf16 => st == .f16 || st == .bf16
  | .e4m3 | .e5m2 | .i8 => st == .e4m3 || st == .e5m2 || st == .i8
  | _ => mxStreams.contains st

/-- MSTR and MSPR (R293 to R296). -/
def mxMstr (op : Nat) (w : IWord) (core : Nat) (on : List LaneId) (k : LaneId) (l : Lane) (s : State) : MxOut :=
  mxOwned s core k true (fun m =>
    mxSrcs s k l w .b32 .b32 .b32 (fun a b c =>
      let cfg := m.cfg.getD ⟨1, 1, .i8, 0, 0, 0, []⟩
      let fmt := if w.t = .none then cfg.afmt else w.t
      match mxRows s k a c (if w.a = .q 12 then 0 else b) (cfg.k * tyBytes fmt) (tyBytes fmt) false with
      | .inr t => .trap t
      | .inl r =>
        if !tileOk m w b then .trap (TrapInfo.plain .matrixConfig 0)
        else
          match m.pendingFmt with
          | none => .trap (TrapInfo.plain .matrixConfig 0)
          | some wt =>
            if !formatsPair wt fmt then .trap (TrapInfo.plain .matrixFormat 0)
            else mxQueue s core on k w op fmt a b c r []))

/-! ### Drains and the accumulator store (R297 to R301) -/

/-- MDRN (R298, R299). -/
def mxMdrn (w : IWord) (core : Nat) (on : List LaneId) (k : LaneId) (l : Lane) (s : State) : MxOut :=
  mxOwned s core k true (fun m =>
    mxSrcs s k l w .b32 .b32 .b32 (fun a b c =>
      let cfg := m.cfg.getD ⟨1, 1, .i8, 0, 0, 0, []⟩
      let dst := match w.d with | .g r => [r, r + 1] | _ => []
      let rows := if dst.isEmpty then b else 1
      let n := cfg.n * tyBytes w.t
      match mxRows s k a c (if w.d = .none then b else 0) n (tyBytes w.t) true with
      | .inr t => .trap t
      | .inl r =>
        if !tileOk m w rows then .trap (TrapInfo.plain .matrixConfig 0)
        else mxQueue s core on k w 0x246 w.t a b c (rowRanges b n c r) dst))

/-- MZER (R300). -/
def mxMzer (w : IWord) (core : Nat) (on : List LaneId) (k : LaneId) (_ : Lane) (s : State) : MxOut :=
  mxOwned s core k true (fun m =>
    if (m.tile (fld w.x 2 0)).2 = 0 then .trap (TrapInfo.plain .matrixConfig 0)
    else mxQueue s core on k w 0x247 w.t 0 0 0 [] [])

/-- MLDA and MSTA (R300). -/
def mxMove (op : Nat) (w : IWord) (core : Nat) (on : List LaneId) (k : LaneId) (l : Lane) (s : State) : MxOut :=
  mxOwned s core k true (fun m =>
    mxSrcs s k l w .b32 .b32 .none (fun a b _ =>
      if a % 4 ≠ 0 then .trap (mxAddr .misaligned a (op == 0x249) .spad)
      else
        match mxSpad s k a (384 * b) 4 (op == 0x249) with
        | .inr t => .trap t
        | .inl r =>
          if !tileOk m w b then .trap (TrapInfo.plain .matrixConfig 0)
          else mxQueue s core on k w op w.t a b 0 r []))

/-- MCNT (R301). -/
def mxMcnt (w : IWord) (core : Nat) (on : List LaneId) (k : LaneId) (_ : Lane) (s : State) : MxOut :=
  mxOwned s core k true (fun m =>
    if !tileOk m w 1 then .trap (TrapInfo.plain .matrixConfig 0)
    else mxQueue s core on k w 0x24A w.t 0 0 0 [] (destRegs w.d .b32))

/-! ### Status (R302) -/

/-- MSYNC (R302): with D = `z` it waits until the commands before it have completed. -/
def mxMsync (w : IWord) (core : Nat) (on : List LaneId) (k : LaneId) (_ : Lane) (s : State) : MxOut :=
  mxOwned s core k false (fun m =>
    if w.d = .z then (if m.q.isEmpty && warpQuiet s (LaneId.wid k) then .done (setMx s core { m with nextCmd := m.nextCmd + 1 }) else .wait)
    else mxQueue s core on k w 0x24B w.t 0 0 0 [] (destRegs w.d .b32))

/-- MSTAT: the status as it stands at issue (R302), delivered later (spec/01 R13). -/
def mxMstat (w : IWord) (core : Nat) (on : List LaneId) (k : LaneId) (_ : Lane) (s : State) : MxOut :=
  mxOwned s core k false (fun m =>
    let dst := destRegs w.d .b32
    if !(on.all (fun p => match s.lane? p with | some l => l.regsFull dst | none => true)) then .wait
    else .done (on.foldl (fun s p => addPend s p (pendOf s .matrix dst (some [m.status m.q.length]))) s))

/-! ### The instructions -/

/-- MACQ (R284). -/
def execMacq (w : IWord) (s : State) : Host.Outcome State Fault Refusal := .next (matrixColl entryMx0 mxMacq w s)
/-- MREL (R285). -/
def execMrel (w : IWord) (s : State) : Host.Outcome State Fault Refusal := .next (matrixColl entryMx0 mxMrel w s)
/-- MCFG (R288, R289). -/
def execMcfg (w : IWord) (s : State) : Host.Outcome State Fault Refusal := .next (matrixColl entryMcfg mxMcfg w s)
/-- MWLD (R290 to R292). -/
def execMwld (w : IWord) (s : State) : Host.Outcome State Fault Refusal := .next (matrixColl entryMwld mxMwld w s)
/-- MSTR (R293, R294). -/
def execMstr (w : IWord) (s : State) : Host.Outcome State Fault Refusal := .next (matrixColl entryMstr (mxMstr 0x244) w s)
/-- MSPR (R295, R296). -/
def execMspr (w : IWord) (s : State) : Host.Outcome State Fault Refusal := .next (matrixColl entryMstr (mxMstr 0x245) w s)
/-- MDRN (R298, R299). -/
def execMdrn (w : IWord) (s : State) : Host.Outcome State Fault Refusal := .next (matrixColl entryMdrn mxMdrn w s)
/-- MZER (R300). -/
def execMzer (w : IWord) (s : State) : Host.Outcome State Fault Refusal := .next (matrixColl entryMzer mxMzer w s)
/-- MLDA (R300). -/
def execMlda (w : IWord) (s : State) : Host.Outcome State Fault Refusal := .next (matrixColl entryMlda (mxMove 0x248) w s)
/-- MSTA (R300). -/
def execMsta (w : IWord) (s : State) : Host.Outcome State Fault Refusal := .next (matrixColl entryMlda (mxMove 0x249) w s)
/-- MCNT (R301). -/
def execMcnt (w : IWord) (s : State) : Host.Outcome State Fault Refusal := .next (matrixColl entryMcnt mxMcnt w s)
/-- MSYNC (R302). -/
def execMsync (w : IWord) (s : State) : Host.Outcome State Fault Refusal := .next (matrixColl entryMsync mxMsync w s)
/-- MSTAT (R302). -/
def execMstat (w : IWord) (s : State) : Host.Outcome State Fault Refusal := .next (matrixColl entryMstat mxMstat w s)

end Sys2Proof.Machine
end

