-- ==== Sys2Proof/Machine/Regs.lean ====
section
/-! DEFINITION. The management block (spec/22 R406 to R408; spec/10 R222, R223, R234; spec/16 R328; spec/20 R357, R359; spec/21 R383;
spec/22 R412 to R415): what a register stores of a value written to it, what it reads, and where it stands in the block. -/

namespace Sys2Proof.Machine

/-- The bits hi:lo. -/
def bitsMask (hi lo : Nat) : Nat := 2 ^ (hi + 1) - 2 ^ lo

/-- The writable bits of a register; 0 for one that is read only or that only starts an action. ATTGO.OP, of which R408 names 1 and 2, ignores a
write of 3 and reads as before: the model's choice (log 26). -/
def rwBits : MName → Nat
  | .modctl => bitsMask 5 0
  | .hwlock => 1
  | .attnonce | .hostkey | .vector | .privroot | .troot | .savebase | .dbgpc | .dbgdata | .dbgdump | .lcblo | .lcbhi | .wrbase | .wrlen
  | .lqbase | .nsbcap | .nsbds | .nsbbus | .sktail => bitsMask 63 0
  | .attaddr | .kladdr => bitsMask 47 6
  | .attgo => 0
  | .hwindev | .sqovbase => bitsMask 47 12
  | .hwinhost => bitsMask 63 12
  | .hwinsize => bitsMask 40 12
  | .hwbase => bitsMask 47 30
  | .ftmo | .fbtail | .trtail | .wdog | .drainb | .privsz | .privcnt | .admwd | .dbggrid => bitsMask 31 0
  | .thot | .tcrit | .dbgpcen => bitsMask 7 0
  | .engrst => bitsMask 12 0
  | .xinv => bitsMask 56 3
  | .fbbase | .trbase => bitsMask 47 8
  | .fbsize | .trsize | .sksize | .dbgctl => bitsMask 4 0
  | .xreplay => bitsMask 5 0
  | .sqovsize | .saveslot => bitsMask 23 0
  | .admbudget => bitsMask 15 0
  | .ctxctl => bitsMask 31 16 + 1
  | .ctxop => bitsMask 2 0
  | .savesize => bitsMask 39 0
  | .dbgstep => bitsMask 63 62 + bitsMask 43 0
  | .dbgsel => bitsMask 62 62 + bitsMask 51 0
  | .lqctl => 0xBF0F
  | .skbase => bitsMask 47 6
  | .nsbctl => bitsMask 63 63 + bitsMask 35 0
  | .nsbsq | .nsbcq => bitsMask 47 12 + bitsMask 4 0
  | .nsbdb => bitsMask 47 2
  | .nsbstg => bitsMask 47 16 + bitsMask 15 0
  | .ready | .fail | .fwstat | .modid | .klgo | .klstat | .fbhead | .sqovused | .sqmon | .trhead | .trdrop | .admres | .admheld | .cormap
  | .ctxkey | .dbgrun | .skhead => 0

/-- A value within a range, or the value stored instead of one outside it. -/
def inOr (lo hi other v : Nat) : Nat := if lo ≤ v ∧ v ≤ hi then v else other

/-- What a register stores of the writable bits of a value, where its entry names values it replaces (spec/03 R71; spec/10 R223; spec/20
R359; spec/21 R383; spec/22 R408, R414, R415, R417; SKSIZE: log 32). -/
def clampReg (n : MName) (v : Nat) : Nat :=
  match n with
  | .ftmo => max v 1
  | .thot => min v 105
  | .tcrit => min v 115
  | .fbsize | .trsize => inOr 4 20 4 v
  | .sksize => inOr 4 16 4 v
  | .admbudget => min v 1000
  | .ctxctl => v % 65536 + max (v / 65536) 64 * 65536
  | .lqctl => v - v % 16 + inOr 1 12 1 (v % 16)
  | .nsbctl => if v / 2 ^ 32 % 16 = 9 ∨ v / 2 ^ 32 % 16 = 12 then v else v % 2 ^ 63
  | _ => v

/-- Whether a context has a placed or saved gang (spec/20 R357). -/
def ctxBusy (s : State) (ctx : Nat) : Bool :=
  s.gangs.any (fun p => gangCtx s p.1 == ctx && (match p.2.st with | .waiting | .heldFlushed | .ended => false | _ => true))

/-- A storage binding has a read that has not completed (spec/22 R414). -/
def bindingBusy (s : State) (ctx n : Nat) : Bool :=
  s.cores.any (fun p => p.2.cmds.any (fun c => c.op == 0x28A && c.ctx == ctx && sN0 c.x == n))

/-- A register that ignores writes now (spec/20 R357; spec/22 R408, R412). -/
def regLocked (s : State) (r : MReg) : Bool :=
  match r.name with
  | .hwindev | .hwinhost | .hwinsize | .hostkey => flg (s.mreg ⟨.hwlock, 0, 0⟩) 63
  | .privroot | .privsz | .privcnt | .savebase | .savesize | .saveslot => ctxBusy s r.i
  | .ready | .fail | .fwstat | .modid | .klgo | .klstat | .fbhead | .sqovused | .sqmon | .trhead | .trdrop | .admres | .admheld | .cormap
  | .ctxkey | .dbgrun | .skhead | .attgo => true
  | _ => false

/-- The value a register holds after `v` is written to it (R407, R408). Bits that are not writable keep their value. HWLOCK holds LOCK in bit
0, as it was written last, and in bit 63, which reads 0, whether it was ever written 1 (R412). -/
def regNew (old : BitVec 64) (n : MName) (v : Nat) : BitVec 64 :=
  let keep := BitVec.ofNat 64 (bitsMask 63 0 - rwBits n)
  match n with
  | .hwlock => setFld (setFld old 63 63 (max (fld old 63 63) (v % 2))) 0 0 (v % 2)
  | _ => (old &&& keep) ||| BitVec.ofNat 64 (clampReg n (Nat.land v (rwBits n)))

/-- Write a register (R407). Clearing NSBCTL.EN waits for the binding's reads; setting it finds the queues as system software made them (R414). -/
def regStore (s : State) (r : MReg) (v : Nat) : State :=
  if regLocked s r then s
  else if r.name = .nsbctl ∧ flg (s.mreg r) 63 ∧ !flg (regNew (s.mreg r) .nsbctl v) 63 ∧ bindingBusy s r.i r.j then
    { s with nsbClear := mset s.nsbClear (r.i, r.j) (v, false) }
  else
    let t := s.setMreg r (regNew (s.mreg r) r.name v)
    if r.name = .nsbctl ∧ !flg (s.mreg r) 63 ∧ flg (t.mreg r) 63 then { t with nvme := mset t.nvme (r.i, r.j) Nvme.fresh } else t

/-- A write of NSBCTL that has been put off reached bits 63:32 alone: it leaves the lower half as that stands when it takes effect (R407, R414). -/
def noteHalf (r : MReg) (v : BitVec 64) (s : State) : State :=
  if r.name = .nsbctl ∧ flg (s.mreg r) 63 ∧ !flg v 63 then { s with nsbClear := mset s.nsbClear (r.i, r.j) (v.toNat, true) } else s

/-- The writes that clear EN of bindings whose reads have completed take effect, with all that they write (R407, R414). -/
def clearBindings (s : State) : State :=
  let due := s.nsbClear.filter (fun p => !bindingBusy s p.1.1 p.1.2)
  due.foldl (fun s p =>
      let r : MReg := ⟨.nsbctl, p.1.1, p.1.2⟩
      let v := if p.2.2 then p.2.1 / 2 ^ 32 * 2 ^ 32 + (s.mreg r).toNat % 2 ^ 32 else p.2.1
      s.setMreg r (regNew (s.mreg r) .nsbctl v))
    { s with nsbClear := s.nsbClear.filter (fun p => bindingBusy s p.1.1 p.1.2) }

/-- A grid of a context has ended and not written its DONE yet, or something of a gang of it is still to be performed (spec/20 R372). -/
def endsRun (s : State) (ctx : Nat) : Bool :=
  s.grids.any (fun p => p.2.ctx == ctx && !p.2.done && p.2.ended.isSome) || s.gangs.any (fun p => gangCtx s p.1 == ctx && p.2.st == .ended)

/-- KILL or DESTROY of a context is not finished (spec/20 R370, R373): CTXOP notes in bit 63, which reads 0, that one has begun. -/
def killRuns (s : State) (ctx : Nat) : Bool := flg (s.mreg ⟨.ctxop, ctx, 0⟩) 63 && endsRun s ctx

/-- A kill that has finished is no longer noted (spec/20 R370). -/
def killsDone (s : State) : State :=
  ((s.mregs.filter (fun p => decide (p.1.name = .ctxop) && flg p.2 63 && !endsRun s p.1.i)).map Prod.fst).foldl
    (fun s r => s.setMreg r (setFld (s.mreg r) 63 63 0)) s

/-- A context operation runs: a gang that CTXOP pre-empts has not been saved yet, or waits for the pre-emption in
progress on its close, or a kill has not finished (spec/20 R357, R366, R370). -/
def ctxopRuns (s : State) (ctx : Nat) : Bool :=
  s.gangs.any (fun p => gangCtx s p.1 == ctx && p.2.byCtxop && (p.2.st == .saving || p.2.st == .placed)) || killRuns s ctx

/-- What a read of a register returns (R407): the counters that other state holds are read from it. -/
def regRead (s : State) (r : MReg) : BitVec 64 :=
  match r.name with
  | .admheld => BitVec.ofNat 64 (s.die r.i).held
  | .sqmon => BitVec.ofNat 64 (armedAt s r.i)
  | .sqovused => BitVec.ofNat 64 (sqovUsed s r.i)
  | .hwlock => setFld (s.mreg r) 63 63 0
  | .ctxop => setFld (setFld (s.mreg r) 31 31 (b2n (ctxopRuns s r.i))) 63 63 0
  | _ => s.mreg r

/-! ### The map (R406, R407) -/

/-- The module's registers by slot. -/
def moduleSlot (n : Nat) : Option MReg :=
  if n < 5 then ([MName.ready, .fail, .modctl, .hwlock, .fwstat][n]?).map (fun m => ⟨m, 0, 0⟩)
  else if n < 9 then some ⟨.attnonce, 0, n - 5⟩
  else if n = 9 then some ⟨.attaddr, 0, 0⟩
  else if n = 10 then some ⟨.attgo, 0, 0⟩
  else if n < 16 then none
  else if n < 64 then ([MName.hwindev, .hwinhost, .hwinsize][(n - 16) % 3]?).map (fun m => ⟨m, 0, (n - 16) / 3⟩)
  else if n < 73 then ([MName.hwbase, .modid, .ftmo, .thot, .tcrit, .kladdr, .klgo, .klstat, .engrst][n - 64]?).map (fun m => ⟨m, 0, 0⟩)
  else if n < 79 then some ⟨.hostkey, 0, n - 73⟩
  else none

/-- A die's registers in slot order. -/
def dieSlots : List MName :=
  [.xinv, .fbbase, .fbsize, .fbhead, .fbtail, .xreplay, .sqovbase, .sqovsize, .sqovused, .sqmon, .trbase, .trsize, .trhead, .trtail, .trdrop,
   .admbudget, .admres, .admheld, .cormap]

/-- A context's registers in slot order. -/
def ctxSlots : List MName :=
  [.ctxctl, .ctxop, .vector, .wdog, .drainb, .privroot, .privsz, .privcnt, .troot, .savebase, .savesize, .saveslot, .ctxkey, .admwd]

/-- A context's debug registers by slot from offset 0x400 (spec/21 R383). -/
def debugSlot (c n : Nat) : Option MReg :=
  if n = 0 then some ⟨.dbgctl, c, 0⟩
  else if n < 9 then some ⟨.dbgpc, c, n - 1⟩
  else if n < 15 then ([MName.dbgpcen, .dbgstep, .dbgrun, .dbgsel, .dbgdata, .dbgdump][n - 9]?).map (fun m => ⟨m, c, 0⟩)
  else if n < 79 then some ⟨.lcblo, c, n - 15⟩
  else if n < 143 then some ⟨.lcbhi, c, n - 79⟩
  else if n < 159 then some ⟨.wrbase, c, n - 143⟩
  else if n < 175 then some ⟨.wrlen, c, n - 159⟩
  else if n = 175 then some ⟨.dbggrid, c, 0⟩
  else none

/-- The register whose slot holds an offset of BAR0 (R406). -/
def regAt (off : Nat) : Option MReg :=
  if off < 0x100000 then moduleSlot (off / 8)
  else if off < 0x140000 then
    (dieSlots[off % 0x10000 / 8]?).map (fun m => ⟨m, (off - 0x100000) / 0x10000, 0⟩)
  else if off < 0x200000 then none
  else if off < 0x240000 then
    let c := (off - 0x200000) / 0x1000
    let o := off % 0x1000
    if o < 0x400 then (ctxSlots[o / 8]?).map (fun m => ⟨m, c, 0⟩) else debugSlot c ((o - 0x400) / 8)
  else if off < 0x300000 then none
  else if off < 0x304000 then
    ([MName.lqbase, .lqctl][off % 0x100 / 8]?).map (fun m => ⟨m, (off - 0x300000) / 0x100, 0⟩)
  else if off < 0x310000 then none
  else if off < 0x312000 then
    ([MName.skbase, .sksize, .sktail, .skhead][off % 0x1000 / 8]?).map (fun m => ⟨m, (off - 0x310000) / 0x1000, 0⟩)
  else if off < 0x320000 then none
  else if off < 0x340000 then
    let o := off % 0x800
    if o < 0x400 then
      ([MName.nsbctl, .nsbcap, .nsbsq, .nsbcq, .nsbdb, .nsbds, .nsbbus, .nsbstg][o / 8 % 8]?).map
        (fun m => ⟨m, (off - 0x320000) / 0x800, o / 64⟩)
    else none
  else none

/-- The value written to a whole register by a write of `size` bytes (R407): the other half stays as it reads. -/
def regMerge (s : State) (r : MReg) (off size : Nat) (v : BitVec 64) : BitVec 64 :=
  if size = 8 then v
  else if off % 8 = 0 then setFld (regRead s r) 31 0 (v.toNat % 2 ^ 32)
  else setFld (regRead s r) 63 32 (v.toNat % 2 ^ 32)

/-- A register whose writes may start an action that has a row of its own, and the value starts it (R222, R225, R357, R383, R408, R411,
R417). -/
def startsAction (r : MReg) (v : BitVec 64) : Bool :=
  match r.name with
  | .modctl => flg v 31 || flg v 8
  | .attgo => fld v 1 0 == 1 || fld v 1 0 == 2
  | .klgo | .xinv => flg v 0
  | .engrst => flg v 63
  | .xreplay => flg v 6
  | .sqovsize => true
  | .ctxop => decide (1 ≤ fld v 2 0 ∧ fld v 2 0 ≤ 3)
  | .dbgrun => flg v 0 || flg v 1
  | .dbgsel => flg v 63
  | .dbgstep | .dbgdump => true
  | _ => false

/-- The unit that ENGRST names: a stream engine, a matrix engine, a Square or a Skim engine by number; none when it cannot be reset (R411;
spec/01 R25). -/
inductive ResetUnit where
  | stream (core : Nat)
  | matrix (core : Nat)
  | square (die : Nat)
  | skim (engine : Nat)
  deriving DecidableEq, Repr

/-- The logical core of a physical core of a die (spec/01 R26). -/
def logicalCore (s : State) (d p : Nat) : Option Nat :=
  let fused := fld (s.mreg ⟨.cormap, d, 0⟩) 3 0
  let c := p / 4
  if 52 ≤ p ∨ c = fused then none else some (48 * d + 4 * (if c < fused then c else c - 1) + p % 4)

def resetUnit (s : State) (v : BitVec 64) : Option ResetUnit :=
  let d := fld v 12 10
  let u := fld v 9 0
  if d < 4 then
    if 0x40 ≤ u ∧ u < 0x74 then (logicalCore s d (u - 0x40)).map .stream
    else if 0x80 ≤ u ∧ u < 0xB4 then (logicalCore s d (u - 0x80)).map .matrix
    else if u = 0xC0 then some (.square d)
    else none
  else if d = 4 ∧ (u = 0x100 ∨ u = 0x101) then some (.skim (u - 0x100))
  else none

/-- A completed write of ENGRST: the names stored, GO 0, and ST (R408, R411). -/
def engrstDone (s : State) (v : BitVec 64) (st : Nat) : State :=
  s.setMreg ⟨.engrst, 0, 0⟩ (BitVec.ofNat 64 (st * 2 ^ 60 + v.toNat % 2 ^ 13))

/-- The record of an engine reset, from the management controller (R411). -/
def resetRecord (s : State) (die unit : Nat) : State := emit s (.io 0x102) 0x60 [(0x90, 1, die), (0x92, 2, unit)]

/-- REGISTER_WRITE (R407): a write that starts none of the actions of the other rows. A write of FBBASE, FBSIZE or FBTAIL lets waiting
fault buffer entries go (spec/10 R223, R225); a host write of WRBASE or WRLEN names flat memory (spec/21 R393); a reset of a unit that
cannot be reset is refused by ST 1 (R411). -/
def writeReg (s : State) (r : MReg) (v : BitVec 64) : State :=
  match r.name with
  | .engrst =>
    if flg v 63 then (if (resetUnit s v).isNone then engrstDone s v 1 else s)
    else s.setMreg r (BitVec.ofNat 64 (fld (s.mreg r) 62 60 * 2 ^ 60 + v.toNat % 2 ^ 13))
  | .ctxop => s
  | .fbbase | .fbsize | .fbtail => fbFlush (regStore s r v.toNat) r.i
  | .wrbase | .wrlen => { regStore s r v.toNat with spWatch := s.spWatch.filter (fun p => p.1 != (r.i, r.j)) }
  | _ => if startsAction r v then s else regStore s r v.toNat

/-- REGISTER_WRITE (R407). -/
def execRegisterWrite (r : MReg) (value : BitVec 64) (s : State) : Host.Outcome State Fault Refusal :=
  .next { writeReg s r value with blocked := [], shorts := [], met := [] }

end Sys2Proof.Machine
end

