-- ==== Sys2Proof/Machine/StreamEvents.lean ====
section
/-! DEFINITION. The engines at work: chunks of copies (spec/13 R263 to R268), sweeps (R273), indirect streams (R274, R275), storage reads
(R276; spec/22 R414), completions (R257, R259), matrix commands (spec/14 R287) and the resets of engines (spec/22 R411). -/

namespace Sys2Proof.Machine

/-! ### Accesses of a stream engine (R264) -/

/-- The tag of a write by a command (spec/21 R395). -/
def cmdTag (c : Cmd) : WTag := { ctx := c.ctx, issuer := 1, vas := [], pc := BitVec.ofNat 64 c.ticket.toNat, lane := some c.lane }

/-- What an access of a command met: a replayable fault, another fault, or a stack that is not ready. -/
inductive Met where
  | park (c : Cause) (level va : Nat)
  | fail (c : Cause) (level : Nat) (malformed : Bool) (attempts va : Nat)
  | waits
  deriving DecidableEq, Repr

/-- What the outcome of a virtual access says of a command. -/
def metOf (va : Nat) : VRes → Met
  | .fault c level m => if replayable c then .park c level va else .fail c level m 0 va
  | .failed f => .fail f.cause f.level f.malformed f.attempts va
  | _ => .waits

/-- The reply to an access of a command from another module is overdue (spec/22 R413). -/
def Cmd.overdue (c : Cmd) (s : State) (core va n : Nat) : Bool := engineLate s c.waited && farRange s (dieOf core) c.ctx va n

/-- A flat read by a command; what it meets is told by the chunk's address (R434; spec/10 R224). -/
def engRead (s : State) (core : Nat) (c : Cmd) (va n : Nat) : State × (List Byte ⊕ Met) :=
  match flatCheck va n with
  | some x => (s, .inr (.fail x 0xFF false 0 va))
  | none =>
    match bulkRead s (dieOf core) c.ctx (BitVec.ofNat 64 va) n .load with
    | (s, .bytes bs _ _, _) => (s, if c.overdue s core va n then .inr (.fail .remoteTimeout 0xFF false 0 va) else .inl bs)
    | (s, r, _) => (s, .inr (metOf va r))

/-- Where a flat write by a command goes; the destination of a storage read must be readable too (spec/10 R220). -/
def engPlace (s : State) (core : Nat) (c : Cmd) (va n : Nat) : State × (List (Nat × Nat × Nat) ⊕ Met) :=
  match flatCheck va n with
  | some x => (s, .inr (.fail x 0xFF false 0 va))
  | none =>
    match bulkPlace s (dieOf core) c.ctx (BitVec.ofNat 64 va) n (if c.op = 0x28A then .storage else .store) with
    | (s, ps, .place _ _, _) => (s, if c.overdue s core va n then .inr (.fail .remoteTimeout 0xFF false 0 va) else .inl ps)
    | (s, _, r, _) => (s, .inr (metOf va r))

/-- Replace a command with what its work has come to: its next access begins to wait anew. -/
def putCmd (s : State) (core : Nat) (c : Cmd) : State := setCmd s core { c with waited := 0 }

/-- Later copies of a channel that has failed are skipped (R268). -/
def skipLater (s : State) (core : Nat) (c : Cmd) : State :=
  let x := s.core core
  s.setCore core { x with cmds := x.cmds.map (fun k =>
    if k.op = 0x281 ∧ sN0 k.x = sN0 c.x ∧ LaneId.grp k.lane = LaneId.grp c.lane ∧ !k.same c ∧ k.st.isNone then
      { k with st := some (3, .none), parked := false }
    else k) }

/-- The work of a command ends with a fault: its record, and the channel of a CPYW in error (R264, R268, R434). -/
def failCmd (s : State) (core : Nat) (c : Cmd) (cause : Cause) (what level : Nat) (mal : Bool) (attempts va : Nat) : State :=
  let c := { c with st := some (1, cause) }
  let s := streamFault (putCmd s core c) core c c.status va cause what level mal attempts
  if c.op = 0x281 then
    let g := LaneId.grp c.lane
    skipLater (setChan s g (sN0 c.x) { chanOf s g (sN0 c.x) with err := true }) core c
  else s

/-- A command meets a fault (R264): a replayable one parks it and posts an entry, another ends it. -/
def meets (s : State) (core : Nat) (c : Cmd) (what : Nat) (m : Met) : State :=
  match m with
  | .park x level va =>
    let s := postFault s (dieOf core) (.stream core) { va := va, cause := x, access := b2n (what == 1), ctx := c.ctx, issuer := 1, lanes := 0,
                                                       pc := c.ticket.toNat, level := level }
    putCmd s core { c with parked := true }
  | .fail x level mal att va => failCmd s core c x what level mal att va
  | .waits => s

/-! ### Copies (R263 to R268) -/

/-- The chunks of a copy (R263): each as its first byte or element and its length. -/
def copyChunks (c : Cmd) : Nat :=
  if c.op = 0x282 then
    (match c.recs with | o :: _ => ceilDiv o.count (256 / 2 ^ o.esz) | [] => 0)
  else ceilDiv (c.av % 256 + c.cv) 256

def chunkSpan (c : Cmd) (i : Nat) : Nat × Nat :=
  if c.op = 0x282 then
    (match c.recs with
     | o :: _ => let n := 256 / 2 ^ o.esz; (n * i, min n (o.count - n * i))
     | [] => (0, 0))
  else
    let first := 256 - c.av % 256
    let from_ := if i = 0 then 0 else first + 256 * (i - 1)
    (from_, min (if i = 0 then first else 256) (c.cv - from_))

/-- The commands of a gang go on while it is placed and until its save is written (R277). -/
def cmdLive (s : State) (c : Cmd) : Bool := gangWorks s c.lane.gang

/-- A chunk of a command may be performed now (R263, R265): it has not been, a CPYW takes them ascending and after the earlier copies of its
channel. -/
def chunkDue (s : State) (core : Nat) (c : Cmd) (i : Nat) : Bool :=
  let earlier := (s.core core).cmds.takeWhile (fun k => !k.same c)
  cmdLive s c && (c.op == 0x280 || c.op == 0x281 || c.op == 0x282) && !c.parked && c.st.isNone && decide (i < copyChunks c) && !c.done.contains i &&
    (c.op != 0x281 || (i == c.done.length &&
      !earlier.any (fun k => k.op == 0x281 && sN0 k.x == sN0 c.x && LaneId.grp k.lane == LaneId.grp c.lane)))

/-- The source bytes of a chunk of CPY or CPYW. -/
def chunkRead (s : State) (core : Nat) (c : Cmd) (o n : Nat) : State × (List Byte ⊕ Met) :=
  if flg c.x 14 then
    match spadResolve s (LaneId.grp c.lane) (c.bv % 2 ^ 32) c.cv with
    | some (g, b) => (s, .inl (spadRead s g (b + o) n))
    | none => (s, .inr (.fail .spadBounds 0xFF false 0 (c.bv + o)))
  else engRead s core c (c.bv + o) n

/-- Write the bytes of a chunk of CPY or CPYW. -/
def chunkWrite (s : State) (core : Nat) (c : Cmd) (o : Nat) (bs : List Byte) : State × Option Met :=
  if flg c.x 13 then
    match spadResolve s (LaneId.grp c.lane) (c.av % 2 ^ 32) c.cv with
    | some (g, b) => (spadWrite s g (b + o) bs (cmdTag c), none)
    | none => (s, some (.fail .spadBounds 0xFF false 0 (c.av + o)))
  else
    match engPlace s core c (c.av + o) bs.length with
    | (s, .inl ps) => (writePieces s (dieOf core) (BitVec.ofNat 64 (c.av + o)) ps bs (cmdTag c), none)
    | (s, .inr m) => (s, some m)

/-- Read one element of a record. -/
def elemRead (s : State) (core : Nat) (c : Cmd) (r : IterRec) (i : Nat) : State × (Nat ⊕ Met) :=
  if r.spad then (s, .inl (ofBytesLE (spadRead s (LaneId.grp c.lane) (r.addrOf i) (2 ^ r.esz))))
  else
    match engRead s core c (r.addrOf i) (2 ^ r.esz) with
    | (s, .inl bs) => (s, .inl (ofBytesLE bs))
    | (s, .inr m) => (s, .inr m)

/-- Read elements in order, as far as they can be read. -/
def elemsRead (core : Nat) (c : Cmd) (r : IterRec) : List Nat → State → State × (List Nat ⊕ Met)
  | [], s => (s, .inl [])
  | i :: is, s =>
    match elemRead s core c r i with
    | (s, .inl v) =>
      (match elemsRead core c r is s with
       | (s, .inl vs) => (s, .inl (v :: vs))
       | x => x)
    | (s, .inr m) => (s, .inr m)

/-- Write one element of a record. -/
def elemWrite (s : State) (core : Nat) (c : Cmd) (r : IterRec) (i v : Nat) : State × Option Met :=
  let bs := bytesLE (2 ^ r.esz) v
  if r.spad then (spadWrite s (LaneId.grp c.lane) (r.addrOf i) bs (cmdTag c), none)
  else
    match engPlace s core c (r.addrOf i) (2 ^ r.esz) with
    | (s, .inl ps) => (writePieces s (dieOf core) (BitVec.ofNat 64 (r.addrOf i)) ps bs (cmdTag c), none)
    | (s, .inr m) => (s, some m)

/-- The first destination element of a chunk of CPYT that cannot be written. -/
def elemsPlace (core : Nat) (c : Cmd) (r : IterRec) : List Nat → State → State × Option Met
  | [], s => (s, none)
  | i :: is, s =>
    if r.spad then (s, none)
    else
      match engPlace s core c (r.addrOf i) (2 ^ r.esz) with
      | (s, .inl _) => elemsPlace core c r is s
      | (s, .inr m) => (s, some m)

/-- The destination entry of a CPYW shrinks from below (R269): the first entry of the owner that starts at `lo`. -/
def shrinkRoad (core owner lo lo' : Nat) : List Road → List Road
  | [] => []
  | r :: rs => if r.core = core ∧ r.matrix = false ∧ r.owner = owner ∧ r.lo = lo then { r with lo := lo' } :: rs else r :: shrinkRoad core owner lo lo' rs

/-- A chunk has been performed: it counts, and a CPYW's write pointer advances (R265). -/
def chunkDone (s : State) (core : Nat) (c : Cmd) (i : Nat) : State :=
  let done := c.done ++ [i]
  let c' := { c with done := done, st := if done.length = copyChunks c then some (0, .none) else none }
  let s := putCmd s core c'
  if c.op = 0x281 then
    let g := LaneId.grp c.lane
    let ch := chanOf s g (sN0 c.x)
    let (o, n) := chunkSpan c i
    let s := setChan s g (sN0 c.x) { ch with count := (ch.count + n) % 2 ^ 63 }
    let lo := if flg c.x 13 then (match spadResolve s g (c.av % 2 ^ 32) c.cv with | some (_, b) => b | none => 0) else c.av
    let d := dieOf core
    s.setDie d { s.die d with road := shrinkRoad core c.owner (lo + o) (lo + o + n) (s.die d).road }
  else s

/-- Every chunk of a copy below `i` has been written. -/
def lowerDone (c : Cmd) (i : Nat) : Bool := (List.range i).all c.done.contains

/-- The access of a chunk meets a fault. The command parks at it, or ends with it, once every chunk below is written; until then the chunk is left to be
tried again, so that none of them is missing (R264). -/
def chunkMeets (s : State) (core : Nat) (c : Cmd) (i what : Nat) (m : Met) : State := if lowerDone c i then meets s core c what m else s

/-- Perform a chunk: its source bytes are read, then written (R263). -/
def doChunk (s : State) (core : Nat) (c : Cmd) (i : Nat) : State :=
  let (o, n) := chunkSpan c i
  if c.op = 0x282 then
    match c.recs with
    | [r, q] =>
      let is := (List.range n).map (o + ·)
      (match elemsRead core c q is s with
       | (s, .inr m) => chunkMeets s core c i 0 m
       | (s, .inl vs) =>
         match elemsPlace core c r is s with
         | (s, some m) => chunkMeets s core c i 1 m
         | (s, none) => chunkDone ((is.zip vs).foldl (fun s p => (elemWrite s core c r p.1 p.2).1) s) core c i)
    | _ => s
  else
    match chunkRead s core c o n with
    | (s, .inr m) => chunkMeets s core c i 0 m
    | (s, .inl bs) =>
      match chunkWrite s core c o bs with
      | (s, some m) => chunkMeets s core c i 1 m
      | (s, none) => chunkDone s core c i

/-! ### Sweeps (R272, R273) -/

/-- The rounding mode of a SWEEP (R255; spec/02 R52). -/
def Cmd.mode (c : Cmd) : RMode := RMode.ofCode (fld c.x 26 24) c.rm

/-- A float or integer type. -/
def isFlt (t : Ty) : Bool := tyKind t == .flt

/-- An element-wise operation of a SWEEP (R272). SAT changes no result of a float MIN or MAX, an infinite one among them, though R100 turns infinities into
the largest finite value: spec/06 R153 returns the operand, the model's choice (log 39). -/
def sweepElem (c : Cmd) (a b : Nat) : Res :=
  let t := c.ty
  let ai := flg c.x 27
  let sat := flg c.x 28
  match sSop c.x with
  | 0 => if isFlt t then faddVal t c.mode sat ai a b else intBin t ai [0, 0] (fun x y => x + y) a b
  | 1 => if isFlt t then fsubVal t c.mode sat ai a b else intBin t ai [0, 0] (fun x y => x - y) a b
  | 2 => if isFlt t then fmulVal t c.mode sat ai a b else intBin t ai [1, 1] (fun x y => x * y) a b
  | 3 => if isFlt t then fminVal t false ai a b else intBin t ai [maxCodeI t, maxCodeI t] min a b
  | 4 => if isFlt t then fminVal t true ai a b else intBin t ai [minCodeI t, minCodeI t] max a b
  | 5 => convert (sweepInTy 5 t c.bv) t c.mode sat a none
  | 6 => quantise .q8 c.mode a (c.bv % 2 ^ 16) (groupZp .q8 c.bv)
  | _ => dqgrpVal .q8 a c.bv

/-- A reduction over dimension 0 (R272; spec/07 R176). An RADD takes the command's rounding mode and no saturation, whatever its SAT: R255 gives SAT to
every SWEEP and R272's row for RADD names no modifier, and leaving it out is the model's choice; nor does SAT change an infinite RMIN or RMAX, which
is an operand as spec/07 R176 gives it (log 39). -/
def sweepRed (c : Cmd) (vs : List Nat) : Res :=
  let ps := vs.filter (fun v => !isAbsent c.ty v)
  if ps.isEmpty then (absentOf c.ty, 0) else combine (sSop c.x - 16) c.ty c.mode ps

/-- The inputs of output element `i`: the first record's elements, then the second's. -/
def sweepIns (c : Cmd) (i : Nat) : List (IterRec × List Nat) :=
  match c.recs with
  | [_, q] => if 16 ≤ sSop c.x then [(q, (List.range (q.ext.headD 1)).map (i * q.ext.headD 1 + ·))] else [(q, [i])]
  | [_, q, r] => [(q, [i]), (r, [i])]
  | _ => []

/-- Read all inputs of an element. -/
def sweepRead (core : Nat) (c : Cmd) : List (IterRec × List Nat) → State → State × (List Nat ⊕ Met)
  | [], s => (s, .inl [])
  | p :: ps, s =>
    match elemsRead core c p.1 p.2 s with
    | (s, .inl vs) =>
      (match sweepRead core c ps s with
       | (s, .inl ws) => (s, .inl (vs ++ ws))
       | x => x)
    | (s, .inr m) => (s, .inr m)

/-- The next output element of a sweep is read for, computed and written once (R273). -/
def retire (s : State) (core : Nat) (c : Cmd) : State :=
  match c.recs with
  | o :: _ =>
    match sweepRead core c (sweepIns c c.next) s with
    | (s, .inr m) => meets s core c 0 m
    | (s, .inl vs) =>
      let r := if 16 ≤ sSop c.x then sweepRed c vs else sweepElem c (vs.getD 0 0) (vs.getD 1 0)
      match elemWrite s core c o c.next r.1 with
      | (s, some m) => meets s core c 1 m
      | (s, none) => putCmd s core { c with next := c.next + 1, fl := c.fl ||| r.2, st := if c.next + 1 = o.count then some (0, .none) else none }
  | [] => s

/-- SWEEP_RETIRE (R273). -/
def execSweepRetire (core : Nat) (ticket : BitVec 32) (s : State) : Host.Outcome State Fault Refusal :=
  match (cmdsOf s core ticket).find? (fun c => cmdLive s c && c.op == 0x289 && !c.parked && c.st.isNone) with
  | some c => .next (woke (retire s core c))
  | none => .next s

/-! ### Indirect streams (R274) -/

/-- Index `i` of an indirect stream. -/
def isIndex (s : State) (core : Nat) (c : Cmd) (x : IsCfg) (i : Nat) : State × (Nat ⊕ Met) :=
  let n := if x.i64 then 8 else 4
  if x.ispad then
    match spadResolve s (LaneId.grp c.lane) (x.ibase % 2 ^ 32) (n * (i + 1)) with
    | some (g, o) => (s, .inl (ofBytesLE (spadRead s g (o + n * i) n)))
    | none => (s, .inr (.fail .spadBounds 0xFF false 0 (x.ibase + n * i)))
  else
    match engRead s core c (x.ibase + n * i) n with
    | (s, .inl bs) => (s, .inl (ofBytesLE bs))
    | (s, .inr m) => (s, .inr m)

/-- The element an index selects: its value and whether it was out of range. -/
def isElem (s : State) (core : Nat) (c : Cmd) (x : IsCfg) (idx : Nat) : State × ((Nat × Bool) ⊕ Met) :=
  let n := 2 ^ x.esz
  let ones := 2 ^ (8 * n) - 1
  if isAbsent (if x.i64 then .n64 else .n32) idx then (s, .inl (ones, false))
  else if x.limit ≤ idx then (s, .inl (ones, true))
  else
    match engRead s core c ((x.abase + idx * n) % 2 ^ 64) n with
    | (s, .inl bs) => (s, .inl (ofBytesLE bs, false))
    | (s, .inr m) => (s, .inr m)

/-- The queue of a stream has room for its next push. -/
def isRoom (s : State) (c : Cmd) (x : IsCfg) : Bool :=
  match queueOf s (LaneId.grp c.lane) x.qn with
  | some q => decide (q.count + (if x.esz = 3 then 2 else 1) ≤ q.cap)
  | none => false

/-- The stream fetches its next index and pushes the element; past the last index it ends (R274). -/
def isPush (s : State) (core : Nat) (c : Cmd) (x : IsCfg) : State :=
  let ended := fun (out : Bool) => some (if out then 5 else 0, Cause.none)
  if x.count ≤ c.next then putCmd s core { c with st := ended c.out }
  else
    match isIndex s core c x c.next with
    | (s, .inr m) => meets s core c 2 m
    | (s, .inl idx) =>
      match isElem s core c x idx with
      | (s, .inr m) => meets s core c 3 m
      | (s, .inl (v, out)) =>
        let es := if x.esz = 3 then [v % 2 ^ 32, v / 2 ^ 32] else [v]
        let s := queuePush s (LaneId.grp c.lane) x.qn es (cmdTag c)
        putCmd s core { c with next := c.next + 1, out := c.out || out, st := if c.next + 1 = x.count then ended (c.out || out) else none }

/-- A stream goes on: its queue has room for its next push, or it has none left (R274). -/
def isDue (s : State) (c : Cmd) (x : IsCfg) : Bool :=
  cmdLive s c && !c.parked && c.st.isNone && (isRoom s c x || decide (x.count ≤ c.next))

/-- INDIRECT_STREAM_PUSH (R274). -/
def execIndirectStreamPush (core : Nat) (ticket : BitVec 32) (s : State) : Host.Outcome State Fault Refusal :=
  match (cmdsOf s core ticket).findSome? (fun c => (c.is.filter (isDue s c)).map (fun x => (c, x))) with
  | some p => .next (woke (isPush s core p.1 p.2))
  | none => .next s

/-! ### Storage reads (R276; spec/22 R414) -/

/-- The block size of a command's binding. -/
def srdBlock (s : State) (c : Cmd) : Nat := 2 ^ fld (s.mreg ⟨.nsbctl, c.ctx, sN0 c.x⟩) 35 32

/-- The blocks lie within the capacity of the namespace (R276). -/
def srdFits (s : State) (c : Cmd) : Bool := decide (c.bv + c.cv ≤ (s.mreg ⟨.nsbcap, c.ctx, sN0 c.x⟩).toNat)

/-- The queues of a command's binding, and of a binding by context and number. -/
def Cmd.binding (c : Cmd) : Nat × Nat := (c.ctx, sN0 c.x)
def nvmeOf (s : State) (b : Nat × Nat) : Nvme := mget s.nvme b Nvme.fresh
def setNvme (s : State) (b : Nat × Nat) (q : Nvme) : State := { s with nvme := mset s.nvme b q }
/-- A register of a binding. -/
def nsReg (s : State) (b : Nat × Nat) (m : MName) : BitVec 64 := s.mreg ⟨m, b.1, b.2⟩

/-- The pages of the PRP list that names `n` pages of data: the first stands in the command, and of two the second too; a full page of the list
ends in the address of the next (spec/22 R414; log 34). -/
def prpPages (n : Nat) : Nat := if n ≤ 2 then 0 else max 1 (ceilDiv (n - 2) 511)

/-- The pages of a binding's staging area. -/
def stagePages (s : State) (b : Nat × Nat) : Nat := 16 * fld (nsReg s b .nsbstg) 15 0

/-- The blocks of the next NVM Read command of a storage read: at most MDTS when it is nonzero, and as many as the staging area holds beside their
PRP list (spec/22 R414; log 34). -/
def srdNext (s : State) (c : Cmd) : Nat :=
  let p := stagePages s c.binding
  let mdts := fld (nsReg s c.binding .nsbds) 15 0
  let room := p - prpPages p
  max 1 (min (min (c.cv - c.next) 65536) ((if mdts ≠ 0 then min mdts room else room) * 4096 / srdBlock s c))

/-- The pages that `n` blocks take. -/
def srdPages (s : State) (c : Cmd) (n : Nat) : Nat := ceilDiv (n * srdBlock s c) 4096

/-- The first free run of `n` pages of a binding's staging area. -/
def stagePlace (s : State) (b : Nat × Nat) (n : Nat) : Option Nat :=
  let ks := (nvmeOf s b).cmds
  let clear := fun (p : Nat) => decide (p + n ≤ stagePages s b) && ks.all (fun k => decide (k.page + k.pages ≤ p ∨ p + n ≤ k.page))
  match (0 :: ks.map (fun k => k.page + k.pages)).filter clear with
  | [] => none
  | p :: r => some (r.foldl min p)

/-- The local physical address of a page of the staging area. -/
def stageAddr (s : State) (b : Nat × Nat) (page : Nat) : Nat := fld (nsReg s b .nsbstg) 47 16 * 65536 + 4096 * page

/-- The address at which the controller reaches a local physical address: BUS + (a − HWBASE) (spec/22 R414). -/
def busAddr (s : State) (b : Nat × Nat) (a : Nat) : Nat :=
  (((nsReg s b .nsbbus).toNat : Int) + a - (s.mreg ⟨.hwbase, 0, 0⟩).toNat).toNat % 2 ^ 64

/-- The PRP list of the pages from the second on, in `fuel` pages of list (spec/22 R414; log 34). -/
def prpList (list : Nat) : Nat → List Nat → List Byte
  | 0, _ => []
  | n + 1, ps =>
    if ps.length ≤ 512 then ps.flatMap (bytesLE 8)
    else (ps.take 511).flatMap (bytesLE 8) ++ bytesLE 8 (list + 4096) ++ prpList (list + 4096) n (ps.drop 511)

/-- The NVM Read command of `n` blocks from `lba` in the layout of the NVM command set (spec/22 R414; log 34). -/
def nvmRead (cid nsid prp1 prp2 lba n : Nat) : List Byte :=
  bytesLE 4 (0x02 + cid * 2 ^ 16) ++ bytesLE 4 nsid ++ List.replicate 16 0#8 ++ bytesLE 8 prp1 ++ bytesLE 8 prp2 ++ bytesLE 8 lba ++ bytesLE 4 (n - 1) ++
    List.replicate 12 0#8

/-- A running SRD. -/
def srdRuns (s : State) (c : Cmd) : Bool := cmdLive s c && c.op == 0x28A && !c.parked && c.st.isNone && srdFits s c

/-- The entries of a binding's submission queue, or completion queue. -/
def nsEntries (s : State) (b : Nat × Nat) (m : MName) : Nat := 2 ^ fld (nsReg s b m) 4 0

/-- A command of the storage read `c` of a core. -/
def NvmeCmd.isOf (k : NvmeCmd) (core : Nat) (c : Cmd) : Bool := k.core == core && k.ticket == c.ticket && k.id == c.id

/-- The storage read of an NVM command, while its work goes on. -/
def srdOf (s : State) (b : Nat × Nat) (k : NvmeCmd) : Option Cmd :=
  (cmdOf s k.core k.ticket k.id).filter (fun c => c.op == 0x28A && c.binding == b && c.st.isNone)

/-- The host interface submits the next NVM command of a storage read (spec/22 R414): while fewer than 2^LOG2N − 1 are outstanding, and where the
staging area has room, it builds the PRP list, writes the queue's next entry and rings the tail doorbell. -/
def nvmeSubmit (s : State) (core : Nat) (c : Cmd) : State :=
  let b := c.binding
  let q := nvmeOf s b
  let n := srdNext s c
  let data := srdPages s c n
  if !srdRuns s c || c.cv ≤ c.next || nsEntries s b .nsbsq ≤ (q.cmds.filter (fun k => !k.ready)).length + 1 then s
  else
    match stagePlace s b (data + prpPages data) with
    | none => s
    | some page =>
      let at_ := fun (i : Nat) => busAddr s b (stageAddr s b (page + i))
      let cid := ((List.range (q.cmds.length + 1)).find? (fun i => !q.cmds.any (fun k => k.cid == i))).getD 0
      let prp2 := if data ≤ 1 then 0 else if data = 2 then at_ 1 else at_ data
      let entry := nvmRead cid (fld (nsReg s b .nsbctl) 31 0) (at_ 0) prp2 (c.bv + c.next) n
      let s := if data ≤ 2 then s
        else ioWrite s (stageAddr s b (page + data)) (prpList (at_ data) (prpPages data) ((List.range (data - 1)).map (fun i => at_ (i + 1))))
      let s := ioWrite s (fld (nsReg s b .nsbsq) 47 12 * 4096 + 64 * q.tail) entry
      let tail := (q.tail + 1) % nsEntries s b .nsbsq
      let s := ioWrite s (fld (nsReg s b .nsbdb) 47 2 * 4) (bytesLE 4 tail)
      let k : NvmeCmd := { cid := cid, core := core, ticket := c.ticket, id := c.id, first := c.next, blocks := n, page := page, pages := data + prpPages data
                           waited := 0, ready := false, done := [] }
      setNvme (putCmd s core { c with next := c.next + n }) b { q with tail := tail, cmds := q.cmds ++ [k] }

/-- A cycle of the I/O die: the host interface counts the age of its NVM commands, gives up the staging space of completed ones whose storage read
is over, and submits what it can (spec/22 R414). -/
def ioCycle (s : State) : State :=
  let s := { s with nvme := s.nvme.map (fun (p : (Nat × Nat) × Nvme) =>
    (p.1, { p.2 with cmds := (p.2.cmds.filter (fun (k : NvmeCmd) => !k.ready || (srdOf s p.1 k).isSome)).map (fun (k : NvmeCmd) =>
      if k.ready then k else { k with waited := k.waited + 1 }) })) }
  let work := s.cores.flatMap (fun (p : Nat × Core) => (p.2.cmds.filter (fun (c : Cmd) => c.op == 0x28A)).map (fun (c : Cmd) => (p.1, c)))
  work.foldl (fun s (w : Nat × Cmd) => match cmdOf s w.1 w.2.ticket w.2.id with | some c => nvmeSubmit s w.1 c | none => s) s

/-- A storage read ends with STORAGE_ERROR (R276; spec/22 R414): the blocks of `k` were not read. -/
def srdFails (s : State) (core : Nat) (c : Cmd) (k : NvmeCmd) : State :=
  failCmd s core c .storageError 5 0xFF false 0 (c.av + k.first * srdBlock s c)

/-- The last word of the new entry at the head of a binding's completion queue, if one stands there, by its phase tag (spec/22 R414). -/
def nvmeEntry (s : State) (b : Nat × Nat) : Option Nat :=
  let q := nvmeOf s b
  match (if flg (nsReg s b .nsbctl) 63 then ioRead s (fld (nsReg s b .nsbcq) 47 12 * 4096 + 16 * q.head) 16 else (.waits, [])) with
  | (.ready, e) => let w := ofBytesLE (e.drop 12); if natBit w 16 == q.phase then some w else none
  | _ => none

/-- The host interface takes the completion of command `cid` from the head of a binding's completion queue (spec/22 R414): it ends the command,
and the head doorbell is rung. A good one leaves its blocks in the staging area for the stream engine; another ends the storage read. What completes
for a storage read that is over gives back its staging space alone. -/
def nvmeTake (s : State) (b : Nat × Nat) (cid : BitVec 16) : State :=
  let q := nvmeOf s b
  match nvmeEntry s b with
  | none => s
  | some w =>
    if w % 65536 ≠ cid.toNat then s
    else
      let head := (q.head + 1) % nsEntries s b .nsbcq
      let s := ioWrite s (fld (nsReg s b .nsbdb) 47 2 * 4 + fld (nsReg s b .nsbds) 31 16) (bytesLE 4 head)
      let q := { q with head := head, phase := if head = 0 then !q.phase else q.phase }
      match q.cmds.find? (fun k => k.cid == cid.toNat && !k.ready) with
      | none => setNvme s b q
      | some k =>
        match srdOf s b k with
        | none => setNvme s b { q with cmds := q.cmds.filter (fun j => j.cid != k.cid) }
        | some c =>
          if w / 2 ^ 17 % 2 ^ 11 = 0 then setNvme s b { q with cmds := q.cmds.map (fun (j : NvmeCmd) => if j.cid = k.cid then { j with ready := true } else j) }
          else srdFails (setNvme s b { q with cmds := q.cmds.filter (fun j => j.cid != k.cid) }) k.core c k

/-- NVME_COMPLETION (R276; spec/22 R414). -/
def execNvmeCompletion (ctx n : Nat) (cid : BitVec 16) (s : State) : Host.Outcome State Fault Refusal := .next (woke (nvmeTake s (ctx, n) cid))

/-- A storage read has waited TMO × 65,536 cycles of the I/O die for a completion (spec/22 R414). -/
def nvmeLate (s : State) (core : Nat) (c : Cmd) : Option NvmeCmd :=
  (nvmeOf s c.binding).cmds.find? (fun k => k.isOf core c && !k.ready && decide (fld (nsReg s c.binding .nsbds) 63 32 * 65536 ≤ k.waited))

/-- NVME_TIMEOUT (spec/22 R414): the storage read ends, and the command's staging space stays in use until the controller completes it. -/
def execNvmeTimeout (core : Nat) (ticket : BitVec 32) (s : State) : Host.Outcome State Fault Refusal :=
  let late := fun (c : Cmd) => if cmdLive s c && c.op == 0x28A && c.st.isNone then nvmeLate s core c else none
  match (cmdsOf s core ticket).findSome? (fun c => (late c).map (fun k => (c, k))) with
  | some p => .next (woke (srdFails s core p.1 p.2))
  | none => .next s

/-- An SRD's part that an NVM command reads, as a copy from the staging area. -/
def Cmd.part (c : Cmd) (bs : Nat) (k : NvmeCmd) : Cmd := { c with av := c.av + k.first * bs, cv := k.blocks * bs }

/-- The chunks of a storage read whose blocks wait in the staging area. -/
def srdOpen (s : State) (core : Nat) (c : Cmd) : List (NvmeCmd × Nat) :=
  ((nvmeOf s c.binding).cmds.filter (fun k => k.isOf core c && k.ready)).flatMap (fun k =>
    ((List.range (copyChunks (c.part (srdBlock s c) k))).filter (fun i => !k.done.contains i)).map (fun i => (k, i)))

/-- A chunk of an NVM command's blocks has been moved: after the last the staging space is free, and after the last of all the storage read is
done. -/
def srdMoved (s : State) (core : Nat) (c : Cmd) (k : NvmeCmd) (i : Nat) : State :=
  let q := nvmeOf s c.binding
  let k' := { k with done := k.done ++ [i] }
  if k'.done.length < copyChunks (c.part (srdBlock s c) k) then
    setNvme s c.binding { q with cmds := q.cmds.map (fun j => if j.cid = k.cid then k' else j) }
  else
    let rest := q.cmds.filter (fun j => j.cid != k.cid)
    let s := setNvme s c.binding { q with cmds := rest }
    if c.next = c.cv ∧ !rest.any (fun j => j.isOf core c) then putCmd s core { c with st := some (0, .none) } else s

/-- The stream engine moves one chunk of a storage read from the staging area to its destination (R263, R264; spec/22 R414). -/
def doSrdChunk (s : State) (core : Nat) (c : Cmd) (k : NvmeCmd) (i : Nat) : State :=
  let part := c.part (srdBlock s c) k
  let (o, n) := chunkSpan part i
  match ioRead s (stageAddr s c.binding k.page + o) n with
  | (.waits, _) => s
  | (.bad, _) => failCmd s core c .uncorrectable 0 0xFF false 0 (part.av + o)
  | (.ready, bs) =>
    match chunkWrite s core part o bs with
    | (s, some m) => meets s core c 1 m
    | (s, none) => srdMoved s core c k i

/-- COPY_CHUNK (R263 to R268); of a storage read, `chunk` counts those that wait in the staging area (spec/22 R414). -/
def execCopyChunk (core : Nat) (ticket : BitVec 32) (chunk : Nat) (s : State) : Host.Outcome State Fault Refusal :=
  match (cmdsOf s core ticket).find? (fun c => chunkDue s core c chunk) with
  | some c => .next (woke (doChunk s core c chunk))
  | none =>
    match (cmdsOf s core ticket).findSome? (fun c => (if srdRuns s c then (srdOpen s core c)[chunk]? else none).map (fun p => (c, p))) with
    | some p => .next (woke (doSrdChunk s core p.1 p.2.1 p.2.2))
    | none => .next s

/-! ### Replies from another module (spec/22 R413) -/

/-- The bytes of flat memory that a chunk of a copy or storage read touches. -/
def chunkRanges (c : Cmd) (i : Nat) : List (Nat × Nat) :=
  let (o, n) := chunkSpan c i
  (if flg c.x 14 || c.op == 0x28A then [] else [(c.bv + o, n)]) ++ (if flg c.x 13 then [] else [(c.av + o, n)])

/-- The bytes of flat memory of elements of a record. -/
def elemRanges (r : IterRec) (is : List Nat) : List (Nat × Nat) := if r.spad then [] else is.map (fun i => (r.addrOf i, 2 ^ r.esz))

/-- The bytes of flat memory that a command accesses next, while its work goes on. -/
def cmdRanges (s : State) (core : Nat) (c : Cmd) : List (Nat × Nat) :=
  let next := (List.range (copyChunks c)).find? (chunkDue s core c)
  if !cmdLive s c || c.parked || c.st.isSome then []
  else if c.op = 0x282 then
    match next, c.recs with
    | some i, [r, q] => let (o, n) := chunkSpan c i; let is := (List.range n).map (o + ·); elemRanges q is ++ elemRanges r is
    | _, _ => []
  else if isCopy c.op then (match next with | some i => chunkRanges c i | none => [])
  else if c.op = 0x289 then
    match c.recs with
    | o :: _ => (sweepIns c c.next).flatMap (fun p => elemRanges p.1 p.2) ++ elemRanges o [c.next]
    | [] => []
  else if c.op = 0x28A then
    match (if srdRuns s c then (srdOpen s core c).head? else none) with
    | some (k, i) => chunkRanges (c.part (srdBlock s c) k) i
    | none => []
  else
    match c.is.filter (fun x => isDue s c x && decide (c.next < x.count)) with
    | some x =>
      let n := if x.i64 then 8 else 4
      (if x.ispad then [] else [(x.ibase + n * c.next, n)]) ++
        (match (isIndex s core c x c.next).2 with
         | .inl i => if isAbsent (if x.i64 then .n64 else .n32) i || decide (x.limit ≤ i) then [] else [((x.abase + i * 2 ^ x.esz) % 2 ^ 64, 2 ^ x.esz)]
         | .inr _ => [])
    | none => []

/-- An engine's wait for replies counts a cycle of its core while its next access goes to another module (R413; log 11). -/
def tickEngines (s : State) (core : Nat) : State :=
  let x := s.core core
  let count := fun (ctx waited : Nat) (rs : List (Nat × Nat)) => if rs.any (fun p => farRange s (dieOf core) ctx p.1 p.2) then waited + 1 else 0
  if x.cmds.isEmpty && x.mx.q.isEmpty then s
  else s.setCore core { x with cmds := x.cmds.map (fun (c : Cmd) => { c with waited := count c.ctx c.waited (cmdRanges s core c) })
                               mx := { x.mx with q := x.mx.q.map (fun (c : MCmd) => { c with waited := count c.ctx c.waited (mxRanges s core c) }) } }

/-! ### Completions (R257, R259) -/

/-- An SRD beyond the capacity ends at once (R276). -/
def endsAtOnce (s : State) (c : Cmd) : Bool := c.op == 0x28A && c.st.isNone && !srdFits s c

/-- A command whose work has ended, or never begins, completes. -/
def completes (s : State) (core : Nat) (c : Cmd) : State :=
  let s := if endsAtOnce s c then failCmd s core c .storageError 5 0xFF false 0 c.av else s
  clearBindings (completeCmd s core c.ticket c.id)

/-- STREAM_COMPLETION (R257). -/
def execStreamCompletion (core : Nat) (ticket : BitVec 32) (s : State) : Host.Outcome State Fault Refusal :=
  match (cmdsOf s core ticket).find? (fun c => cmdLive s c && !c.parked && (c.st.isSome || endsAtOnce s c)) with
  | some c => .next (woke (completes s core c))
  | none => .next s

/-- Move a held completion into its warp's cd where there is room: the first that can move (R259). -/
def cdMove (s : State) (core : Nat) : State :=
  let x := s.core core
  match x.cdHeld.find? (fun p => match s.warp? p.1 with | some w => decide (w.cd.length + 2 ≤ 64) | none => true) with
  | none => s
  | some p =>
    let s := s.setCore core { x with cdHeld := x.cdHeld.erase p }
    match s.warp? p.1 with
    | some w => s.setWarp p.1 { w with cd := w.cd ++ [p.2.1, p.2.2] }
    | none => s

/-- CD_ENTRY_DELIVERY (R259). -/
def execCdEntryDelivery (core : Nat) (s : State) : Host.Outcome State Fault Refusal := .next (woke (cdMove s core))

/-- MATRIX_COMMAND (spec/14 R287). -/
def execMatrixCommand (core : Nat) (s : State) : Host.Outcome State Fault Refusal := .next (if mxDue s core then woke (mxCommand s core) else s)

/-! ### Resets of engines (spec/22 R411) -/

/-- A stream engine is reset: each operation of a resident group ends with ENGINE_RESET, and the channels that had a CPYW outstanding, one
that has ended and not completed too, are in error (R278). -/
def resetStream (s : State) (core : Nat) : State :=
  let mine := engineCmds s core
  let s := (mine.filter (fun c => c.op == 0x281)).foldl (fun s c =>
    let g := LaneId.grp c.lane
    setChan s g (sN0 c.x) { chanOf s g (sN0 c.x) with err := true }) s
  (mine.filter (fun c => c.st.isNone)).foldl (fun s c => failCmd s core { c with parked := false } .engineReset 0 0xFF false 0 0) s

/-- ENGINE_RESET_STREAM (R278; spec/22 R411). -/
def execEngineResetStream (core : Nat) (s : State) : Host.Outcome State Fault Refusal :=
  let u := 0x40 + physCore s core
  .next (woke (resetRecord (engrstDone (resetStream s core) (BitVec.ofNat 64 (dieOf core * 1024 + u)) 0) (dieOf core) u))

/-- A matrix engine is reset: ERR with ENGINE_RESET, and no accumulators and configuration; its commands then complete without effect
(spec/14 R304). -/
def resetMatrix (s : State) (core : Nat) : State :=
  let m := (s.core core).mx
  let index := match m.q with | c :: _ => c.num | [] => m.nextCmd
  mxError (setMx s core { m with acc := [], cfg := none, q := m.q.map (fun c => { c with parked := false }) }) core .engineReset index

/-- ENGINE_RESET_MATRIX (spec/14 R304; spec/22 R411). -/
def execEngineResetMatrix (core : Nat) (s : State) : Host.Outcome State Fault Refusal :=
  let u := 0x80 + physCore s core
  .next (woke (resetRecord (engrstDone (resetMatrix s core) (BitVec.ofNat 64 (dieOf core * 1024 + u)) 0) (dieOf core) u))

/-- A Square is reset: operations it has not begun fail, a set operation with the handle of its set A in xaddr, and its monitors are disarmed, with 3
(RESET) for a lane that waits on one (spec/16 R326, R329; spec/17 R336, R353). -/
def resetSquare (s : State) (d : Nat) : State :=
  let qs := (s.die d).sqq
  let xs := (s.die d).setq
  let s := s.setDie d { s.die d with sqq := [], setq := [] }
  let s := qs.foldl (fun s q => settle s q.lane q.pid none Vec.zero (some (.plain .engineReset))) s
  let s := xs.foldl (fun s q => failSet s q (.plain .engineReset) (setAddr (setElem q.op q.b) (if q.op = 0x200 then 0 else q.a))) s
  let s := { s with lanes := s.lanes.map (fun p => (p.1, match p.2.mon with
    | some m => if m.die = d then (match p.2.st with | .mwait _ _ _ => p.2.wake 3 Vec.zero | _ => { p.2 with mon := none }) else p.2
    | none => p.2)) }
  recheckFor s (qs.map (·.lane) ++ xs.map (·.lane))

/-- ENGINE_RESET_SQUARE (spec/16 R329; spec/22 R411). That of another module's Square, a number from 4 on, leaves ENGRST and the records to its own
module (log 11). -/
def execEngineResetSquare (die : Nat) (s : State) : Host.Outcome State Fault Refusal :=
  let t := resetSquare s die
  .next (woke (if die < 4 then resetRecord (engrstDone t (BitVec.ofNat 64 (die * 1024 + 0xC0)) 0) die 0xC0 else t))

end Sys2Proof.Machine
end

