-- ==== Sys2Proof/Machine/Launch.lean ====
section
/-! DEFINITION. The launch units (spec/20 R359 to R365): records, dependences, placement, retirement, and the clock of priorities. -/

namespace Sys2Proof.Machine

/-! ### Accesses of a launch unit (R359, R363) -/

/-- What an access of a launch unit met. -/
inductive LMet where
  | park (f : FbInfo)
  | bad (c : Cause)
  | waits
  deriving DecidableEq, Repr

/-- The context of a launch queue. -/
def lqCtx (s : State) (q : Nat) : Nat := fld (s.mreg ⟨.lqctl, q, 0⟩) 13 8
/-- A queue is served (R359). -/
def lqOn (s : State) (q : Nat) : Bool := flg (s.mreg ⟨.lqctl, q, 0⟩) 15
/-- The record at HEAD of a queue, none before one is taken. -/
def lqOf (s : State) (q : Nat) : LQueue := mget s.lqs q { taken := none, head := 0, deps := 0, age := 0, ended := false, parked := false }
def setLq (s : State) (q : Nat) (x : LQueue) : State := { s with lqs := mset s.lqs q x }

/-- What the outcome of an access for queue `q` says (R363). -/
def lmetOf (s : State) (q va : Nat) (store : Bool) : VRes → LMet
  | .fault c level _ =>
    if replayable c then
      .park { va := va, cause := c, access := b2n store, ctx := lqCtx s q, issuer := 4, lanes := 0, pc := q, level := level }
    else .bad c
  | .failed f => .bad f.cause
  | _ => .waits

/-- The faults of a launch unit's address that no translation decides: an access is aligned to its size. -/
def launchCheck (va n : Nat) : Option Cause :=
  match flatCheck va n with
  | some c => some c
  | none => if va % n = 0 then none else some .misaligned

/-- A read in the queue's context (R363); `n` is a power of two. -/
def launchRead (s : State) (q va n : Nat) : State × (List Byte ⊕ LMet) :=
  match launchCheck va n with
  | some c => (s, .inr (.bad c))
  | none =>
    match vread s (q / 16) (lqCtx s q) (BitVec.ofNat 64 va) n .load with
    | (s, .bytes bs _ _) => (s, .inl bs)
    | (s, r) => (s, .inr (lmetOf s q va false r))

/-- The queue's ring. -/
def lqBase (s : State) (q : Nat) : Nat := (s.mreg ⟨.lqbase, q, 0⟩).toNat
def lqSize (s : State) (q : Nat) : Nat := 2 ^ fld (s.mreg ⟨.lqctl, q, 0⟩) 3 0

/-- A ring access waits for XREPLAY (R363). -/
def lqPark (s : State) (q : Nat) (f : FbInfo) : State :=
  setLq (postFault s (q / 16) (.launch (q / 16)) f) q { lqOf s q with parked := true }

/-- A ring access failed: the queue is served no more (R363). -/
def lqFail (s : State) (q : Nat) (c : Cause) : State :=
  let r : MReg := ⟨.lqctl, q, 0⟩
  emit (setLq (s.setMreg r (setFld (s.mreg r) 15 15 0)) q { lqOf s q with taken := none, ended := false, parked := false, faulted := true }) (.launch (q / 16)) 0x43
    [(0x90, 4, q), (0x98, 1, c.code)]

/-- What a failed access does to its queue (R363). -/
def lqMeets (s : State) (q : Nat) : LMet → State
  | .park f => lqPark s q f
  | .bad c => lqFail s q c
  | .waits => s

/-- HEAD := HEAD + 1 (R363), and what follows it; the age of the record that reaches HEAD counts from here (R364, log 36). -/
def advanceHead (s : State) (q : Nat) (after : State → State) : State :=
  let va := lqBase s q + 8
  let head := (lqOf s q).head
  let next : LQueue := { taken := none, head := (head + 1) % 2 ^ 64, deps := 0, age := 0, ended := false, parked := false }
  match vplace s (q / 16) (lqCtx s q) (BitVec.ofNat 64 va) .store with
  | (s, .place loc _) =>
    after (setLq (flatWrite s (q / 16) ((bytesLE 8 (head + 1)).zipIdx.map (fun p => (loc + p.2, p.1))) WTag.device) q next)
  | (s, r) => lqMeets s q (lmetOf s q va true r)

/-! ### The launch record (R361) -/

/-- The field of `n` bytes at offset `o` of a record. -/
def recN (bs : List Byte) (o n : Nat) : Nat := ofBytesLE ((bs.drop o).take n)

/-- The kind of dependence `i`, and the address of its word. -/
def depKind (bs : List Byte) (i : Nat) : Nat := recN bs 0x28 1 / 4 ^ i % 4
def depAddr (bs : List Byte) (i : Nat) : Nat := recN bs (0x30 + 8 * i) 8
/-- Registers per thread. -/
def recRegs (bs : List Byte) : Nat := 8 * (recN bs 0x0E 1 % 16 + 1)

/-- An address of a record is bad. -/
def badAddr (a align : Nat) : Bool := !canonical (BitVec.ofNat 64 a) || a % align != 0

/-- The checks of R361: the offset each fails at, by rising offset, and whether it fails. -/
def recChecks (bs : List Byte) : List (Nat × Bool) :=
  let grps := recN bs 0x0C 1
  let warps := recN bs 0x0D 1
  let scratch := recN bs 0x10 4
  let csize := recN bs 0x14 4
  let cbase := recN bs 0x18 8
  let last := cbase + csize - 1
  let range := csize != 0 && (badAddr cbase 1 || badAddr last 1 || inPrivate (BitVec.ofNat 64 cbase) || inPrivate (BitVec.ofNat 64 last))
  let cpl := recN bs 0x50 8
  [(0x00, badAddr (recN bs 0 8) 1),
    (0x0C, decide (grps < 1 ∨ 4 < grps ∨ 2 ^ 21 < grps * scratch)),
    (0x0D, decide (warps < 1 ∨ 32 < warps ∨ 512 < ceilDiv warps 4 * recRegs bs)),
    (0x0E, decide (16 ≤ recN bs 0x0E 1)),
    (0x0F, decide (16 ≤ recN bs 0x0F 1)),
    (0x10, scratch % 256 != 0),
    (0x14, range),
    (0x18, csize != 0 && badAddr cbase 16),
    (0x28, (List.range 4).any (fun i => depKind bs i == 3))] ++
  (List.range 7).map (fun i => (0x29 + i, recN bs (0x29 + i) 1 != 0)) ++
  (List.range 4).map (fun i => (0x30 + 8 * i, (depKind bs i == 1 || depKind bs i == 2) && badAddr (depAddr bs i) 16)) ++
  [(0x50, cpl != 0 && badAddr cpl 16)] ++
  (List.range 40).map (fun i => (0x58 + i, recN bs (0x58 + i) 1 != 0))

/-- The offset of the first failing byte of a malformed record, none for a good one (R361). -/
def malformedAt (bs : List Byte) : Option Nat := ((recChecks bs).find? (fun p => p.2)).map Prod.fst

/-- The grid of a record (R361). -/
def recGrid (q ctx age : Nat) (bs : List Byte) : Grid :=
  { q := q, ctx := ctx, seq := 0, entry := BitVec.ofNat 64 (recN bs 0 8), ngang := recN bs 8 4, grps := recN bs 0x0C 1, warps := recN bs 0x0D 1
    regs := recRegs bs, prio := recN bs 0x0F 1 % 8, idem := natBit (recN bs 0x0F 1) 3, scratch := recN bs 0x10 4, csize := recN bs 0x14 4
    cbase := recN bs 0x18 8, expect := recN bs 0x20 8, cpl := recN bs 0x50 8, age := age, next := 0, retired := 0, trig := 0, trigDone := false
    cause := none, ended := none, ofs := 0, cplWait := [], cplPark := false, orig := none, done := false }

/-- Add a grid under a new name. -/
def addGrid (s : State) (g : Grid) : State := { s.setGrid s.uid g with uid := s.uid + 1 }

/-- A record is finished without becoming a grid that runs (R362, R363). -/
def finishRec (q : Nat) (bs : List Byte) (st : Nat) (c : Cause) (ofs : Nat) (s : State) : State :=
  let g := recGrid q (lqCtx s q) (lqOf s q).age bs
  let k := s.uid
  finishGrid (addGrid s { g with ended := some (st, c), ofs := ofs, next := g.ngang, retired := g.ngang }) k

/-- The record at HEAD of a queue ends with a status, and HEAD moves on (R363). -/
def endRecord (s : State) (q : Nat) (bs : List Byte) (st : Nat) (c : Cause) (ofs : Nat) : State :=
  advanceHead (setLq (finishRec q bs st c ofs s) q { lqOf s q with ended := true }) q id

/-- The grid of a record becomes ready (R363); one of no gang ends at once (R361). -/
def makeReady (q head age : Nat) (bs : List Byte) (s : State) : State :=
  let g := recGrid q (lqCtx s q) age bs
  let k := s.uid
  let seq := nextSeq s (.launch (q / 16))
  let s := emit s (.launch (q / 16)) 0x42 [(0x90, 4, q), (0x98, 8, head)]
  let s := addGrid s { g with seq := seq, trigDone := g.ngang == 0 }
  if g.ngang = 0 then finishGrid s k else s

/-- Take the record at HEAD of a queue, or finish it when it is malformed (R363); a look that finds no record there restarts its age (R364, log 36). -/
def takeRecord (s : State) (q : Nat) : State :=
  let base := lqBase s q
  match launchRead s q base 8 with
  | (s, .inr m) => lqMeets s q m
  | (s, .inl tb) =>
    match launchRead s q (base + 8) 8 with
    | (s, .inr m) => lqMeets s q m
    | (s, .inl hb) =>
      let head := ofBytesLE hb
      if ofBytesLE tb = head then setLq s q { lqOf s q with age := 0 }
      else
        match launchRead s q (base + 0x80 + 128 * (head % lqSize s q)) 128 with
        | (s, .inr m) => lqMeets s q m
        | (s, .inl bs) =>
          let s1 := setLq s q { lqOf s q with taken := some bs, head := head, deps := 0, ended := false, parked := false }
          match malformedAt bs with
          | some o => endRecord s1 q bs 3 .launchFault o
          | none => s1

/-- LAUNCH_RECORD (R361, R363). The write of HEAD behind a finished record, where it had to wait, is made here again. -/
def execLaunchRecord (q : Nat) (s : State) : Host.Outcome State Fault Refusal :=
  let x := lqOf s q
  if !lqOn s q || x.parked then .next s
  else
    match x.taken with
    | none => .next (woke (takeRecord s q))
    | some _ => .next (if x.ended then woke (advanceHead s q id) else s)

/-! ### Dependences (R363) -/

/-- How the dependences of a record stand. -/
inductive Deps where
  | passed
  | waits
  | failed                      -- a producer failed
  | unreadable (ofs : Nat)
  | park (f : FbInfo)
  deriving DecidableEq, Repr

/-- Wait for the dependences `is` of a record in order (R363): how they stand, and how many of them are behind. -/
def depsOf (q : Nat) (bs : List Byte) : List Nat → State → State × Deps × Nat
  | [], s => (s, .passed, 0)
  | i :: is, s =>
    let k := depKind bs i
    let next := fun (s : State) => let r := depsOf q bs is s; (r.1, r.2.1, r.2.2 + 1)
    if k = 0 then next s
    else
      match launchRead s q (depAddr bs i) 16 with
      | (s, .inr (.park f)) => (s, .park f, 0)
      | (s, .inr (.bad _)) => (s, .unreadable (0x30 + 8 * i), 0)
      | (s, .inr .waits) => (s, .waits, 0)
      | (s, .inl w) =>
        let st := ofBytesLE ((w.drop 8).take 4)
        let done := natBit st 31
        let trig := natBit st 30
        if done && st / 2 ^ 16 % 16 != 0 && (k == 1 || !trig) then (s, .failed, 0)
        else if done || (k == 2 && trig) then next s
        else (s, .waits, 0)

/-- The dependences of the record at HEAD that are not behind yet are waited for, each once and in order; once all are met its grid is ready
(R363). -/
def tryReady (s : State) (q : Nat) (bs : List Byte) : State :=
  let seen := (lqOf s q).deps
  let r := depsOf q bs ((List.range 4).drop seen) s
  let s := setLq r.1 q { lqOf r.1 q with deps := seen + r.2.2 }
  match r.2.1 with
  | .passed => advanceHead s q (makeReady q (lqOf s q).head (lqOf s q).age bs)
  | .waits => s
  | .failed => endRecord s q bs 4 .dependenceFailed 0
  | .unreadable o => endRecord s q bs 3 .launchFault o
  | .park f => lqPark s q f

/-- GRID_READY (R363). -/
def execGridReady (q : Nat) (s : State) : Host.Outcome State Fault Refusal :=
  let x := lqOf s q
  match x.taken with
  | some bs => .next (if lqOn s q && !x.parked && !x.ended then woke (tryReady s q bs) else s)
  | none => .next s

/-- No record stands at HEAD of a queue, as far as its ring can be read now: the next one reaches HEAD when it is appended (R364; log 36). -/
def headEmpty (s : State) (q : Nat) : Bool :=
  (lqOf s q).taken.isNone &&
    (match (launchRead s q (lqBase s q) 8).2, (launchRead s q (lqBase s q + 8) 8).2 with
     | .inl t, .inl h => ofBytesLE t == ofBytesLE h
     | _, _ => false)

/-- A record may stand at HEAD of a queue: it is served, or a fault has disabled it, and it keeps its records and its HEAD (R363). -/
def lqHolds (s : State) (q : Nat) : Bool := lqOn s q || (lqOf s q).faulted

/-- PRIORITY_AGING (R364): the timer of the launch unit of queue `q` counts a microsecond, for the record at HEAD of each of its queues, one that
a fault has disabled among them, and for each of its grids (log 36). -/
def execPriorityAging (q : Nat) (s : State) : Host.Outcome State Fault Refusal :=
  let mine := ((List.range 16).map (q / 16 * 16 + ·)).filter (lqHolds s)
  let t := mine.foldl (fun t j => setLq t j { lqOf t j with age := if headEmpty s j then 0 else (lqOf t j).age + 1 }) s
  .next (woke { t with
    grids := s.grids.map (fun (p : Nat × Grid) => (p.1, if p.2.q / 16 = q / 16 ∧ p.2.done = false then { p.2 with age := p.2.age + 1 } else p.2)) })

/-! ### Room on a close (spec/03 R62, R63) -/

/-- The gangs on a close, `but` one apart. -/
def gangsOn (s : State) (close : Nat) (but : Option Nat) : List Nat :=
  (s.gangs.filter (fun p => p.2.close == close && p.2.onClose && but != some p.1)).map Prod.fst

/-- The warps that occupy slots of a core's partition. -/
def slotsOn (s : State) (gs : List Nat) (core part : Nat) : List (WarpId × Warp) :=
  s.warps.filter (fun p => gs.contains p.1.gang && p.2.part == part &&
    (match s.group? (WarpId.grp p.1) with | some g => g.core == core | none => false))

/-- Slots and registers taken on each partition of a core (R63). -/
def coreLoad (s : State) (gs : List Nat) (core : Nat) : List (Nat × Nat) :=
  (List.range 4).map (fun p =>
    let ws := slotsOn s gs core p
    (ws.length, (ws.map (fun w => match s.group? (WarpId.grp w.1) with | some g => g.nregs | none => 0)).foldl (· + ·) 0))

/-- A core's load with a group's warps added from partition `b` on; none when the core does not accept them (R62, R63). -/
def addLoad (l : List (Nat × Nat)) (nw regs b : Nat) : Option (List (Nat × Nat)) :=
  let l' := l.zipIdx.map (fun x =>
    let n := ((List.range nw).filter (fun w => (w + b) % 4 == x.2)).length
    (x.1.1 + n, x.1.2 + n * regs))
  if l'.all (fun p => decide (p.1 ≤ 16 ∧ p.2 ≤ 512)) then some l' else none

/-- The cores and bases that accept a group, with the loads they give; of bases that load a core alike, the first. -/
def coresFor (ls : List (Nat × List (Nat × Nat))) (ok : Nat → Bool) (nw regs : Nat) : List (Nat × Nat × List (Nat × Nat)) :=
  (ls.filter (fun p => ok p.1)).flatMap (fun p =>
    (List.range 4).foldl (fun (a : List (Nat × Nat × List (Nat × Nat))) b =>
      match addLoad p.2 nw regs b with
      | some l => if a.any (fun x => x.2.2 == l) then a else a ++ [(p.1, b, l)]
      | none => a) [])

/-- Give each group of a gang a core and a base: the first way that accepts them all (R364); a group that `needs` the engine takes a core whose
engine is free (spec/14 R306). -/
def placeAll (nw regs : Nat) (needs free : Nat → Bool) : List Nat → List (Nat × List (Nat × Nat)) → List Nat → Option (List (Nat × Nat))
  | [], _, _ => some []
  | i :: is, ls, taken =>
    (coresFor ls (fun c => !needs i || (free c && !taken.contains c)) nw regs).findSome? (fun x =>
      (placeAll nw regs needs free is (ls.map (fun p => if p.1 = x.1 then (p.1, x.2.2) else p)) (if needs i then x.1 :: taken else taken)).map
        ((x.1, x.2.1) :: ·))

/-- The cores of a close. -/
def closeCores (close : Nat) : List Nat := (List.range 4).map (4 * close + ·)

/-- Scratchpad taken on a close (spec/08 R194). -/
def closeScratch (s : State) (gs : List Nat) : Nat :=
  ((s.groups.filter (fun p => gs.contains p.1.gang)).map (fun p => p.2.scratch)).foldl (· + ·) 0

/-- An engine has no owner and no waiter, `but` a gang's warps apart (spec/14 R306). -/
def engineFree (s : State) (but : Option Nat) (core : Nat) : Bool :=
  let m := (s.core core).mx
  m.owner.all (fun w => but == some w.gang) && m.fifo.all (fun w => but == some w.gang)

/-- A die takes gangs: its cores, Square and stacks are ready (spec/22 R410). -/
def dieReady (s : State) (d : Nat) : Bool := ([18 + d, 22 + d, 6 + 3 * d, 7 + 3 * d, 8 + 3 * d]).all (readyBit s)

/-! ### What waits for placement (R358, R364) -/

/-- The effective priority of a grid (R364). -/
def Grid.eff (g : Grid) : Nat := min 7 (g.prio + g.age / 4000)

/-- Of gangs with their indices, the one of the lowest index. -/
def lowIndex : List (Nat × Gang) → Option Nat
  | [] => none
  | p :: r => some (r.foldl (fun b c => if c.2.index < b.2.index then c else b) p).1

/-- The gang of a grid that waits first (R364, R368): a saved one, else a flushed one, else the next one, under the grid's own name. -/
def gridHead (s : State) (gk : Nat) (g : Grid) : Option Nat :=
  let mine := s.gangs.filter (fun p => p.2.grid == gk)
  let saved := lowIndex (mine.filter (fun p => match p.2.st with | .saved _ _ _ => true | _ => false))
  let flushed := lowIndex (mine.filter (fun p => p.2.st == .waiting))
  if g.done || g.ended.isSome then none else saved <|> flushed <|> (if g.next < g.ngang then some gk else none)

/-- The private indices that lanes of a context hold (R358). -/
def privHeld (s : State) (ctx : Nat) : List Nat :=
  s.lanes.filterMap (fun p => if gangCtx s p.1.gang = ctx then p.2.priv else none)

/-- The lanes of one gang of a grid. -/
def Grid.gangLanes (g : Grid) : Nat := g.grps * g.warps * 32

/-- The private indices a new gang needs are free (R358). -/
def privRoom (s : State) (g : Grid) : Bool :=
  (s.mreg ⟨.privsz, g.ctx, 0⟩) == 0 || decide ((privHeld s g.ctx).length + g.gangLanes ≤ (s.mreg ⟨.privcnt, g.ctx, 0⟩).toNat)

/-- Where the groups of a waiting gang would go on a close, `but` one gang apart (R364). -/
def fitOn (s : State) (g : Grid) (name close : Nat) (but : Option Nat) : Option (List (Nat × Nat)) :=
  let gs := gangsOn s close but
  let old := s.gang? name
  let saved := match old with | some x => (match x.st with | .saved _ _ _ => true | _ => false) | none => false
  let needs := fun i => match old with | some x => x.mxSaved.any (fun p => p.1 == i) | none => false
  if !dieReady s (close / 12) || decide (2 ^ 21 < closeScratch s gs + g.grps * g.scratch) || !(saved || privRoom s g) then none
  else placeAll g.warps g.regs needs (engineFree s but) (List.range g.grps) ((closeCores close).map (fun c => (c, coreLoad s gs c))) []

/-- Whether grid `a` goes before grid `b` (R364); grids of one queue are named in the order of their records. -/
def goesBefore (a b : Nat × Grid) : Bool :=
  if a.2.eff ≠ b.2.eff then b.2.eff < a.2.eff
  else if a.2.q ≠ b.2.q then a.2.q < b.2.q
  else a.1 < b.1

/-- The grid and place of a named waiting gang, when it is the first of its grid. -/
def waitingOf (s : State) (name : Nat) : Option (Nat × Grid) :=
  s.grids.find? (fun p => gridHead s p.1 p.2 == some name)

/-- No waiting gang that goes before this one fits the same close (R364). -/
def firstFor (s : State) (me : Nat × Grid) (close : Nat) : Bool :=
  !s.grids.any (fun p => goesBefore p me && (match gridHead s p.1 p.2 with | some n => (fitOn s p.2 n close none).isSome | none => false))

/-! ### Placement (R358, R364; spec/01 R16; spec/03 R59, R60) -/

/-- The least number not in a list. -/
def leastFree (l : List Nat) : Nat := ((List.range (l.length + 1)).find? (fun i => !l.contains i)).getD 0

/-- Free slots of a partition, lowest first. -/
def freeSlots (s : State) (core part : Nat) : List Nat :=
  let used := (slotsOn s (gangsOn s (closeOf core) none) core part).map (fun p => p.2.slot)
  ((List.range 16).map (fun i => 4 * i + part)).filter (fun n => !used.contains n)

/-- The slots of a group's warps on a core with base `b` (R62). -/
def warpSlots (s : State) (core b nw : Nat) : List Nat :=
  (List.range nw).map (fun w => (freeSlots s core ((w + b) % 4)).getD (w / 4) 0)

/-- The number of a group among those on its core. -/
def freeGslot (s : State) (core : Nat) : Nat :=
  leastFree ((s.groups.filter (fun p => p.2.core == core && (gangsOn s (closeOf core) none).contains p.1.gang)).map (fun p => p.2.gslot))

/-- Make the active sets of a close's partitions full (spec/03 R73). -/
def fillClose (s : State) (close : Nat) : State :=
  (closeCores close).foldl (fun s c => (List.range 4).foldl (fun s p => fillActive s c p 8) s) s

/-- The caches of a close hold nothing of a context when a grid of it comes (spec/02 R42). -/
def dropCode (s : State) (close ctx : Nat) : State :=
  (closeCores close).foldl (fun s c =>
    let x := s.core c
    s.setCore c { x with icache := x.icache.filter (fun p => p.1.1 != ctx), icUnder := x.icUnder.filter (fun p => p.1.1 != ctx) }) s

/-- Place the groups of a new gang: its groups, warps and lanes as R16, R59, R60 and R194 give them. -/
def placeGroup (s : State) (gang : Nat) (g : Grid) (i core b : Nat) (priv : List Nat) : State :=
  let slots := warpSlots s core b g.warps
  let n := freeGslot s core
  let ws : List Nat := List.range g.warps
  let lanes : List (LaneId × Lane) := ws.flatMap (fun w => (List.range 32).map (fun l =>
    ((⟨gang, i, w, l⟩ : LaneId), { Lane.placed g.entry g.regs with priv := priv[32 * w + l]? })))
  { s with
    groups := mset s.groups ⟨gang, i⟩ (Group.placed core n g.warps g.regs g.scratch g.idem g.expect)
    warps := s.warps ++ ws.map (fun w => ((⟨gang, i, w⟩ : WarpId), Warp.placed g.entry (slots.getD w 0) false))
    lanes := s.lanes ++ lanes }

/-- The lowest private indices that a context has free. -/
def privTake (s : State) (g : Grid) : List Nat :=
  if s.mreg ⟨.privsz, g.ctx, 0⟩ = 0 then []
  else
    let held := privHeld s g.ctx
    ((List.range (held.length + g.gangLanes)).filter (fun i => !held.contains i)).take g.gangLanes

/-- Place a gang that has not run yet, or restarts, at `plan` (R364, R368). -/
def placeNew (s : State) (gang gk index : Nat) (g : Grid) (close : Nat) (plan : List (Nat × Nat)) : State :=
  let priv := privTake s g
  let n := g.warps * 32
  let s := dropCode (drainTo s (close / 12)) close g.ctx
  let s := { s.setGang gang { grid := gk, index := index, ngroups := g.grps, die := close / 12, close := close, st := .placed, order := s.uid,
                              byCtxop := false, forGang := none, waitTok := false, mxSaved := [], roadSaved := [], tokSaved := [], admSaved := [] } with uid := s.uid + 1 }
  let s := plan.zipIdx.foldl (fun s p => placeGroup s gang g p.2 p.1.1 p.1.2 ((priv.drop (n * p.2)).take n)) s
  fillClose s close

/-! ### Restore (R369; spec/03 R87, R88; spec/13 R277; spec/14 R306; spec/16 R327) -/

/-- The bytes of a save image (R369, log 14). -/
def imageBytes (len ctx index image : Nat) : List Byte :=
  bytesLE 8 len ++ bytesLE 4 ctx ++ bytesLE 4 index ++ List.replicate 48 0#8 ++ (List.range (len - 64)).map (Config.imageByte image)

/-- How a saved image stands: as it was written, altered, or not to be read now. -/
inductive ImageIs where
  | intact | altered | waits
  deriving DecidableEq, Repr

/-- Read a gang's image back (R369). -/
def checkImage (s : State) (d ctx index off len image : Nat) : State × ImageIs :=
  let va : Addr := (s.mreg ⟨.savebase, ctx, 0⟩) + BitVec.ofNat 64 off
  match bulkRead s d ctx va len .load with
  | (s, .bytes bs _ _, _) => (s, if bs = imageBytes len ctx index image then .intact else .altered)
  | (s, .fault c _ _, _) => (s, if replayable c then .waits else .altered)
  | (s, .failed _, _) => (s, .altered)
  | (s, _, _) => (s, .waits)

/-- The commands of a gang on a core. -/
def gangCmds (s : State) (core gang : Nat) : List Cmd := (s.core core).cmds.filter (fun c => c.lane.gang == gang)

/-- The units a saved gang asks for again: those of its commands, of its engines, and of its lanes that held a token (spec/01 R30). -/
def restoreUnits (s : State) (x : Gang) (gang : Nat) : Nat :=
  (((closeCores x.close).flatMap (fun c => gangCmds s c gang)).map (fun c => c.back) ++ x.tokSaved.map Prod.snd).foldl (· + ·) 0 +
    macqUnits * x.mxSaved.length

/-- The core a group of a saved gang goes to. -/
def newCore (plan : List (Nat × Nat)) (group : Nat) : Nat := (plan.getD group (0, 0)).1

/-- The group of whose commands, engine or lanes a saved roadworks entry is. -/
def roadGroup (s : State) (x : Gang) (gang : Nat) (r : Road) : Nat :=
  if !r.matrix && r.owner % 2 == 1 then r.owner / 2048 % 4
  else if r.matrix then
    match x.mxSaved.find? (fun p => match s.group? ⟨gang, p.1⟩ with | some g => g.core == r.core | none => false) with
    | some p => p.1
    | none => 0
  else
    match ((closeCores x.close).flatMap (fun c => gangCmds s c gang)).find? (fun c => c.owner == r.owner) with
    | some c => c.lane.group
    | none => 0

/-- Move the engine work of a saved gang to its new cores (spec/13 R277). -/
def moveWork (s : State) (x : Gang) (gang : Nat) (plan : List (Nat × Nat)) : State :=
  let cores := closeCores x.close
  let cmds := cores.flatMap (fun c => gangCmds s c gang)
  let held := cores.flatMap (fun c => (s.core c).cdHeld.filter (fun p => p.1.gang == gang))
  let s := cores.foldl (fun s c => s.setCore c { s.core c with cmds := (s.core c).cmds.filter (fun k => k.lane.gang != gang)
                                                               cdHeld := (s.core c).cdHeld.filter (fun p => p.1.gang != gang) }) s
  let s := cmds.foldl (fun s k =>
    let c := newCore plan k.lane.group
    s.setCore c { s.core c with cmds := (s.core c).cmds ++ [{ k with parked := false }] }) s
  held.foldl (fun s p =>
    let c := newCore plan p.1.group
    s.setCore c { s.core c with cdHeld := (s.core c).cdHeld ++ [p] }) s

/-- The engine of a saved group on its new core, where it waits for its token (spec/14 R306; spec/01 R30). -/
def restoreEngine (s : State) (ctx : Nat) (plan : List (Nat × Nat)) (p : Nat × Matrix) : State :=
  let c := newCore plan p.1
  s.setCore c { s.core c with mx := { p.2 with prevCtx := some ctx, fifo := [], token := false, q := p.2.q.map (fun k => { k with parked := false }) } }

/-- A lane at restore: parked accesses are issued again, and its monitor is armed and compared (spec/03 R87; spec/16 R327). -/
def restoreLane (s : State) (l : Lane) : Lane :=
  let l := match l.st with | .replay false dst => { l with st := .replay true dst } | _ => l
  let l := { l with pend := l.pend.map (fun (p : Pend) => { p with far := p.far.map (fun (f : FarOp) => { f with held := false }) }) }
  match l.mon with
  | some m =>
    let now := ofBytesLE (viewRead s (squareDie m.die) m.loc m.size)
    let trig := m.triggered || now != m.captured
    let l := { l with mon := some { m with dormant := false, triggered := trig } }
    if trig then l.wake 0 (m.byWrite.getD Vec.zero) else l
  | none => l

/-- A warp in MACQ rejoins the waiters at the back (spec/14 R306). -/
def rejoin (s : State) (gang : Nat) : State :=
  let ws := ((s.lanes.filter (fun p => p.1.gang == gang && (match p.2.st with | .macq _ _ => true | _ => false))).map (fun p => LaneId.wid p.1)).firsts
  ws.foldl (fun s w =>
    let c := warpCore s w
    let x := s.core c
    matrixPass (s.setCore c { x with mx := { x.mx with fifo := x.mx.fifo ++ [w] } }) c) s

/-- The Square's parked requests of a gang are issued again. -/
def unparkGang (x : Die) (gang : Nat) : Die :=
  { x with sqq := x.sqq.map (fun (r : SqReq) => if r.lane.gang = gang then { r with parked := false } else r)
           setq := x.setq.map (fun (r : SetReq) => if r.lane.gang = gang then { r with parked := false } else r) }

/-- Bring a saved gang back on a close (R369): it asks for its tokens again, as one request of the die's queue, and runs once that is granted; the
requests of its lanes that waited in admission wait again behind it (spec/01 R30; spec/03 R88; log 35). -/
def restoreGang (s : State) (gang : Nat) (x : Gang) (ctx close : Nat) (plan : List (Nat × Nat)) : State :=
  let d := close / 12
  let units := restoreUnits s x gang
  let roads := x.roadSaved.map (fun r => { r with core := newCore plan (roadGroup s x gang r) })
  let s := moveWork s x gang plan
  let s := dropCode (drainTo s d) close ctx
  let ask : List AdmReq := if units = 0 then [] else [{ who := .gang, units := units, lane := ⟨gang, 0, 0, 0⟩, core := 4 * close, waited := 0 }]
  let waits := x.admSaved.map (fun (r : AdmReq) => { r with core := newCore plan r.lane.group })
  let s := s.setDie d { s.die d with admq := (s.die d).admq ++ ask ++ waits, road := (s.die d).road ++ roads }
  let s := { s with
    dies := s.dies.map (fun (p : Nat × Die) => (p.1, unparkGang p.2 gang))
    groups := s.groups.map (fun (p : GroupId × Group) => (p.1, if p.1.gang = gang then { p.2 with core := 192 } else p.2)) }
  let s := { s.setGang gang { x with die := d, close := close, st := .placed, order := s.uid, byCtxop := false, forGang := none,
                                     waitTok := units != 0, mxSaved := [], roadSaved := [], admSaved := [] } with
    uid := s.uid + 1 }
  let s := plan.zipIdx.foldl (fun s p =>
    match s.group? ⟨gang, p.2⟩ with
    | none => s
    | some g =>
      let slots := warpSlots s p.1.1 p.1.2 g.nwarps
      let s := { s with warps := s.warps.map (fun (w : WarpId × Warp) =>
        (w.1, if w.1.gang = gang ∧ w.1.group = p.2 then { w.2 with slot := slots.getD w.1.warp 0, active := false } else w.2)) }
      s.setGroup ⟨gang, p.2⟩ { g with core := p.1.1, gslot := freeGslot s p.1.1 }) s
  let s := x.mxSaved.foldl (fun s p => restoreEngine s ctx plan p) s
  let s := { s with lanes := s.lanes.map (fun (p : LaneId × Lane) => (p.1, if p.1.gang = gang then restoreLane s p.2 else p.2)) }
  let s := fillClose (rejoin s gang) close
  if units = 0 then recheckGang s gang else s

/-- The restore of a saved gang, when its tickets and entries can be had; an altered image ends its grid (R369). -/
def tryRestore (s : State) (gang : Nat) (x : Gang) (g : Grid) (close off len image : Nat) (plan : List (Nat × Nat)) : State :=
  let d := close / 12
  if decide (roadRoom s d < x.roadSaved.length) then s
  else
    match checkImage s d g.ctx x.index off len image with
    | (s, .intact) => restoreGang s gang x g.ctx close plan
    | (s, .altered) => endGrid s x.grid 1 .saveFailed
    | (s, .waits) => s

/-- Place a waiting gang on a close (R364). -/
def placeGang (s : State) (name close : Nat) : State :=
  match waitingOf s name with
  | none => s
  | some me =>
    match fitOn s me.2 name close none with
    | none => s
    | some plan =>
      if !firstFor s me close then s
      else
        match s.gang? name with
        | some x =>
          (match x.st with
           | .saved off len image => tryRestore s name x me.2 close off len image plan
           | _ => placeNew s name me.1 x.index me.2 close plan)
        | none =>
          let gang := s.uid
          let s := { s.setGrid me.1 { me.2 with next := me.2.next + 1 } with uid := s.uid + 1 }
          placeNew s gang me.1 me.2.next me.2 close plan

/-- GANG_PLACEMENT (R364): `gang` names a gang that was saved or flushed, or the grid whose next gang is placed. -/
def execGangPlacement (gang close : Nat) (s : State) : Host.Outcome State Fault Refusal := .next (woke (placeGang s gang close))

end Sys2Proof.Machine
end

