-- ==== Sys2Proof/Machine/Preempt.lean ====
section
/-! DEFINITION. The end of gangs (spec/01 R31; spec/20 R365), pre-emption and save (R366 to R369), kill and destruction (R370 to R373). -/

namespace Sys2Proof.Machine

/-! ### Retirement (spec/01 R31; spec/20 R365) -/

/-- The engine of a core of the gang's close belongs to one of its warps. -/
def ownsEngine (s : State) (x : Gang) (gang : Nat) : Bool :=
  (closeCores x.close).any (fun c => match (s.core c).mx.owner with | some w => w.gang == gang | none => false)

/-- A gang may retire: its lanes have exited, and its engine work and the operations they issued are complete (R31). A running indirect stream,
which R31 does not list, holds it back as the other engine work does: the model's choice (log 44). -/
def retireDue (s : State) (gang : Nat) (x : Gang) : Bool :=
  gangRuns s gang && (s.lanes.all (fun p => p.1.gang != gang || (p.2.st == .exited && !p.2.pend.any (fun d => d.fail.isSome)))) &&
    (closeCores x.close).all (fun c => (gangCmds s c gang).isEmpty) && !ownsEngine s x gang && !gangOpen s gang

/-! ### Pre-emption (R366 to R368) -/

/-- What R368 chooses for a group: 0 flush, 1 drain, 2 save. -/
def groupChoice (s : State) (ctx : Nat) (g : GroupId) (x : Group) : Nat :=
  if !(groupSubs s g).isEmpty || s.lanes.any (fun p => LaneId.grp p.1 == g && p.2.inHandler) then 2
  else if x.expect ≠ 0 ∧ x.idem ∧ 20 * x.issues < x.expect then 0
  else if x.expect ≠ 0 ∧ x.expect - x.issues ≤ (s.mreg ⟨.drainb, ctx, 0⟩).toNat then 1
  else 2

/-- The most conservative choice among a gang's groups (R368). -/
def gangChoice (s : State) (gang : Nat) : Nat :=
  (gangGroups s gang).foldl (fun m g => match s.group? g with | some x => max m (groupChoice s (gangCtx s gang) g x) | none => m) 0

/-- Every open try of a gang aborts with code 6 (spec/08 R207, R212). -/
def endTries (s : State) (gang : Nat) : State :=
  abortTries s ((gangLanes s gang).filter (fun k => match s.lane? k with | some l => l.spec.isSome | none => false)) 6 0

/-- A save begins: every open try aborts, and no lane issues again (R368, R369). A gang that still waits for the tokens of its restore waits on,
until the save is written (spec/01 R30). -/
def toSaving (s : State) (gang : Nat) : State :=
  let s := endTries s gang
  match s.gang? gang with
  | some x => s.setGang gang { x with st := .saving }
  | none => s

/-- A flush: the gang's work ends as by a kill, and it waits again from ENTRY, under a new name of the model's own; its lanes' triggers are
taken back while TRIG is not written (R368). -/
def flushGang (s : State) (gang : Nat) (x : Gang) : State :=
  let n := (s.lanes.filter (fun p => p.1.gang == gang && p.2.triggered)).length
  let s := killGang s gang
  let s := { s.setGang s.uid { x with st := if x.byCtxop then .heldFlushed else .waiting, waitTok := false, mxSaved := [], roadSaved := [], tokSaved := [], admSaved := [] } with
             uid := s.uid + 1 }
  let s := match s.grid? x.grid with
    | some g => if g.trigDone then s else s.setGrid x.grid { g with trig := g.trig - n }
    | none => s
  fillClose s x.close

/-- Pre-empt a placed gang, for CTXOP or for a waiting gang; the decision ends its open tries (R368; spec/08 R207). -/
def preemptGang (s : State) (gang : Nat) (byCtxop : Bool) (forGang : Option Nat) : State :=
  match s.gang? gang with
  | none => s
  | some x =>
    let x := { x with byCtxop := byCtxop, forGang := forGang }
    let s := endTries (s.setGang gang x) gang
    match gangChoice s gang with
    | 0 => flushGang s gang x
    | 1 => s.setGang gang { x with st := .draining (some (2 * (s.mreg ⟨.drainb, gangCtx s gang, 0⟩).toNat)) }
    | _ => toSaving s gang

/-- A pre-emption is in progress on a close (R366). -/
def preempting (s : State) (close : Nat) : Bool :=
  s.gangs.any (fun p => p.2.close == close && (match p.2.st with | .saving => true | .draining (some _) => true | _ => false))

/-- The gangs of a close that CTXOP is to pre-empt have their turn, one at a time (R366); `fuel` bounds them. -/
def nextPreempt (s : State) (close : Nat) : Nat → State
  | 0 => s
  | n + 1 =>
    if preempting s close then s
    else
      match s.gangs.find? (fun p => p.2.close == close && p.2.byCtxop && p.2.st == .placed) with
      | some p => nextPreempt (preemptGang s p.1 true none) close n
      | none => s

/-- A gang has left its close: active sets fill up, and a pre-emption that waited begins. -/
def leftClose (s : State) (close : Nat) : State := nextPreempt (fillClose s close) close s.gangs.length

/-- GANG_RETIRE (R31, R365). -/
def execGangRetire (gang : Nat) (s : State) : Host.Outcome State Fault Refusal :=
  match s.gang? gang with
  | some x =>
    .next (if retireDue s gang x then
      let s := removeGang s gang
      let s := match s.grid? x.grid with
        | some g => finishGrid (s.setGrid x.grid { g with retired := g.retired + 1 }) x.grid
        | none => s
      woke (leftClose s x.close) else s)
  | none => .next s

/-- A gang is being pre-empted for the waiting gang `name` already (R366). -/
def preemptsFor (s : State) (name : Nat) : Bool :=
  s.gangs.any (fun p => p.2.forGang == some name && (match p.2.st with | .saving => true | .draining (some _) => true | _ => false))

/-- A gang may be pre-empted for a waiting one (R366): the waiting gang fits no close, none is being pre-empted for it, and it would fit the
victim's close without the victim; among the placed gangs of which that holds, the victim's grid has the lowest priority, below that of the
waiting gang, and it was placed last. -/
def victimDue (s : State) (name victim : Nat) : Bool :=
  match waitingOf s name with
  | none => false
  | some me =>
    let fits := fun (close : Nat) (but : Option Nat) => (fitOn s me.2 name close but).isSome
    let prio := fun (x : Gang) => match s.grid? x.grid with | some g => g.eff | none => 7
    let able := s.gangs.filter (fun p => p.2.st == .placed && decide (prio p.2 < me.2.eff) && !preempting s p.2.close && fits p.2.close (some p.1))
    match able.find? (fun p => p.1 == victim) with
    | none => false
    | some v =>
      !preemptsFor s name && !((List.range 48).any (fun c => fits c none)) &&
        able.all (fun p => decide (prio v.2 < prio p.2) || (prio p.2 == prio v.2 && decide (p.2.order ≤ v.2.order)))

/-- LAUNCH_PREEMPT (R366). -/
def execLaunchPreempt (waiting victim : Nat) (s : State) : Host.Outcome State Fault Refusal :=
  .next (if victimDue s waiting victim then woke (preemptGang s victim false (some waiting)) else s)

/-- DRAIN_DEADLINE (R368). -/
def execDrainDeadline (gang : Nat) (s : State) : Host.Outcome State Fault Refusal :=
  match s.gang? gang with
  | some x => .next (if x.st = .draining (some 0) then woke (toSaving s gang) else s)
  | none => .next s

/-! ### Save (R369; spec/01 R17, R30; spec/03 R88; spec/13 R277; spec/14 R306; spec/16 R327; spec/17 R353) -/

/-- A pending delivery need not be waited for: its request is parked at a Square of any module, or it has failed for a lane that takes it later (R17,
R369, log 30). -/
def pendStays (s : State) (l : Lane) (p : Pend) : Bool :=
  (p.fail.isSome && !l.st.takesFailure) || p.held ||
    s.dies.any (fun d => d.2.sqq.any (fun r => r.pid == p.id && r.parked) || d.2.setq.any (fun r => r.pid == p.id && r.parked))

/-- A save may be written: every producer has delivered or failed, storage reads are complete, and no other request is at a Square (R369). -/
def saveDue (s : State) (gang : Nat) (x : Gang) : Bool :=
  x.st == .saving && s.lanes.all (fun p => p.1.gang != gang || p.2.pend.all (pendStays s p.2)) &&
    (closeCores x.close).all (fun c => (gangCmds s c gang).all (fun k => k.op != 0x28A)) &&
    !s.dies.any (fun d => d.2.sqq.any (fun r => r.lane.gang == gang && !r.parked) || d.2.setq.any (fun r => r.lane.gang == gang && !r.parked))

/-- The greatest length of a gang's image (R369). -/
def imageBound (s : State) (gang : Nat) (x : Gang) : Nat :=
  65536 + ((gangGroups s gang).map (fun g => match s.group? g with
    | some y => y.scratch + 16384 + y.nwarps * (132 * y.nregs + 4096)
    | none => 0)).foldl (· + ·) 0 + (if ownsEngine s x gang then 458752 else 0)

/-- The save images of a context: offset and length (R369). -/
def imagesOf (s : State) (ctx : Nat) : List (Nat × Nat) :=
  s.gangs.filterMap (fun p =>
    if gangCtx s p.1 = ctx then
      (match p.2.st with | .saved o n _ => some (o, n) | .heldSaved o n _ => some (o, n) | _ => none)
    else none)

/-- The end of an image's run. -/
def imageEnd (p : Nat × Nat) : Nat := p.1 + ceilDiv p.2 4096 * 4096

/-- Where an image of `len` bytes goes in the save area (R369). -/
def imagePlace (s : State) (ctx len : Nat) : Option Nat :=
  let size := (s.mreg ⟨.savesize, ctx, 0⟩).toNat
  let slot := (s.mreg ⟨.saveslot, ctx, 0⟩).toNat
  let used := imagesOf s ctx
  if slot = 0 then
    let clear := fun (o : Nat) => used.all (fun p => decide (imageEnd p ≤ o ∨ o + ceilDiv len 4096 * 4096 ≤ p.1))
    let ok := (0 :: used.map imageEnd).filter (fun o => clear o && decide (o + ceilDiv len 4096 * 4096 ≤ size))
    match ok with
    | [] => none
    | o :: r => some (r.foldl min o)
  else if 4096 * slot < len then none
  else
    ((List.range (min (size / (4096 * slot)) (used.length + 1))).find? (fun i => !used.any (fun p => p.1 == i * (4096 * slot)))).map (· * (4096 * slot))

/-- The save is abandoned: the gang runs on without a deadline, its waits looked at again, and one that waits for tokens waits on (R369; spec/01
R30). -/
def abandonSave (s : State) (gang : Nat) (x : Gang) : State :=
  let q := match s.grid? x.grid with | some g => g.q | none => 0
  let s := emit s (.launch (q / 16)) 0x41 [(0x90, 4, q), (0x94, 4, x.index), (0x98, 1, Cause.saveFailed.code)]
  let s := s.setGang gang { x with st := .draining none, byCtxop := false }
  nextPreempt (if gangRuns s gang then recheckGang s gang else s) x.close s.gangs.length

/-- The stream work of a gang on a core is paused: tokens are returned, roadworks entries removed and kept for the restore (spec/01 R30;
spec/13 R277). -/
def pauseStream (s : State) (gang core : Nat) : State :=
  let d := dieOf core
  let mine := gangCmds s core gang
  let roads := (s.die d).road.filter (fun r => r.core == core && !r.matrix && mine.any (fun c => c.owner == r.owner))
  let s := releaseUnits s core ((mine.map (fun c => c.units)).foldl (· + ·) 0)
  let s := mine.foldl (fun s c => dropRoads s core false c.owner) s
  let s := s.setCore core { s.core core with cmds := (s.core core).cmds.map (fun (c : Cmd) =>
    if c.lane.gang = gang then { c with back := c.back + c.units, units := 0 } else c) }
  match s.gang? gang with
  | some x => s.setGang gang { x with roadSaved := x.roadSaved ++ roads }
  | none => s

/-- The engine of an owning warp is saved and released at a row boundary (spec/14 R306); FL and ERR stand for a next owner of the context, since
no MREL clears them (R303). -/
def pauseMatrix (s : State) (gang core : Nat) : State :=
  let m := (s.core core).mx
  match m.owner, s.gang? gang with
  | some w, some x =>
    if w.gang = gang then
      let d := dieOf core
      let roads := (s.die d).road.filter (fun r => r.core == core && r.matrix && m.q.any (fun c => c.num == r.owner))
      let s := m.q.foldl (fun s c => dropRoads s core true c.num) s
      let s := s.setGang gang { x with mxSaved := x.mxSaved ++ [(w.group, { m with fifo := [] })], roadSaved := x.roadSaved ++ roads }
      matrixLeave (s.setCore core { s.core core with mx := { (s.core core).mx with q := [] } }) core
    else s
  | _, _ => s

/-- A lane as an image holds it: it holds no token, and its monitor is dormant (spec/01 R30; spec/16 R327). Its state of R64 stays as it is, one in
admission among them (spec/03 R88). -/
def Lane.paused (l : Lane) : Lane := { l with token := 0, mon := l.mon.map (fun m => { m with dormant := true }) }

/-- What the gang of a lane keeps of it at a save, to ask for it again: its granted token, its request for one, and the ranges that it holds meanwhile
(spec/01 R30; spec/03 R88; spec/13 R262). -/
def keepAsk (s : State) (k : LaneId) (l : Lane) : State :=
  match s.gang? k.gang with
  | some x =>
    let core := laneCore s k
    let y := s.die (dieOf core)
    s.setGang k.gang { x with
      tokSaved := if l.token = 0 then x.tokSaved else x.tokSaved ++ [(k, l.token)]
      admSaved := x.admSaved ++ y.admq.filter (fun r => r.who == .lane && r.lane == k)
      roadSaved := x.roadSaved ++ y.road.filter (fun r => r.core == core && !r.matrix && r.owner == laneOwner k) }
  | none => s

/-- The lanes of a gang leave the queues of the die, and their granted tokens are returned (spec/01 R30; spec/14 R306). -/
def pauseLane (s : State) (k : LaneId) : State :=
  match s.lane? k with
  | some l =>
    let core := laneCore s k
    let s := dropRoads (leaveWait (keepAsk s k l) k) core false (laneOwner k)
    (if l.token = 0 then s else releaseUnits s core l.token).setLane k l.paused
  | none => s

/-- The gang's state goes into its image, and its close is released (R369); a request for the tokens of its restore is withdrawn, to be made again
(spec/01 R30). -/
def saveGang (s : State) (gang : Nat) (x : Gang) (off len image : Nat) : State :=
  let s := (gangLanes s gang).foldl pauseLane (dropAsk s gang)
  let s := (closeCores x.close).foldl (fun s c => pauseMatrix (pauseStream s gang c) gang c) s
  let s := match s.gang? gang with
    | some y => s.setGang gang { y with st := if y.byCtxop then .heldSaved off len image else .saved off len image, waitTok := false }
    | none => s
  leftClose s x.close

/-- Write a save image, or abandon the save (R369). -/
def trySave (s : State) (gang : Nat) (x : Gang) : State :=
  let ctx := gangCtx s gang
  let n := s.freeCtr
  let len := 64 + Config.imageLength n % (imageBound s gang x - 63)
  match imagePlace s ctx len with
  | none => abandonSave s gang x
  | some off =>
    let va : Addr := (s.mreg ⟨.savebase, ctx, 0⟩) + BitVec.ofNat 64 off
    match bulkPlace s x.die ctx va len .store with
    | (s, ps, .place _ _, _) =>
      let s := { s with freeCtr := n + 1 }
      saveGang (writePieces s x.die va ps (imageBytes len ctx x.index n) { WTag.device with vas := [] }) gang x off len n
    | (s, _, .waits, _) => s
    | (s, _, _, _) => abandonSave s gang x

/-- SAVE (R369). -/
def execSave (gang : Nat) (s : State) : Host.Outcome State Fault Refusal :=
  match s.gang? gang with
  | some x => .next (if saveDue s gang x then woke (trySave s gang x) else s)
  | none => .next s

/-! ### Operations on a context (R357, R366, R370, R373) -/

/-- A gang that CTXOP holds goes back to waiting (R366). -/
def Gang.returned (x : Gang) : Gang :=
  match x.st with
  | .heldSaved o n i => { x with st := .saved o n i, byCtxop := false }
  | .heldFlushed => { x with st := .waiting, byCtxop := false }
  | _ => x

/-- A gang is held by CTXOP. -/
def Gang.held (x : Gang) : Bool := x.returned.st != x.st

/-- PREEMPT of a context (R366): its held gangs return, or where none is held its placed gangs are pre-empted, one at a time on a close; one that is
being pre-empted for a waiting gang already is held too once it is saved. -/
def preemptCtx (s : State) (ctx : Nat) : State :=
  let mine := s.gangs.filter (fun p => gangCtx s p.1 == ctx)
  if mine.any (fun p => p.2.held) then
    { s with gangs := s.gangs.map (fun (p : Nat × Gang) => (p.1, if mine.any (fun m => m.1 == p.1) then p.2.returned else p.2)) }
  else
    let s := { s with gangs := s.gangs.map (fun (p : Nat × Gang) =>
      (p.1, if mine.any (fun m => m.1 == p.1) && p.2.onClose then { p.2 with byCtxop := true } else p.2)) }
    (List.range 48).foldl (fun s c => nextPreempt s c s.gangs.length) s

/-- Store the operation in CTXOP, with the note of a kill that begins (R357, R370). -/
def ctxopStore (s : State) (ctx op : Nat) : State := s.setMreg ⟨.ctxop, ctx, 0⟩ (BitVec.ofNat 64 (op + (if 2 ≤ op then 2 ^ 63 else 0)))

/-- PREEMPT (R357, R366). -/
def execPreempt (ctx : Nat) (s : State) : Host.Outcome State Fault Refusal :=
  .next (if ctxopRuns s ctx then s else woke (preemptCtx (ctxopStore s ctx 1) ctx))

/-- The grids of a context that run or wait for closes. -/
def ctxGrids (s : State) (ctx : Nat) : List Nat :=
  (s.grids.filter (fun p => p.2.ctx == ctx && !p.2.done && p.2.ended.isNone)).map Prod.fst

/-- The closes that lost gangs fill their active sets, and pre-emptions that waited there begin. -/
def refill (s : State) : State := (List.range 48).foldl leftClose s

/-- KILL ends the records of a context that wait at HEAD (R362, R370). -/
def endHeads (s : State) (ctx : Nat) : State :=
  (List.range 64).foldl (fun s q =>
    let x := lqOf s q
    match x.taken with
    | some bs => if lqCtx s q = ctx ∧ lqOn s q ∧ x.ended = false then endRecord s q bs 2 .kill 0 else s
    | none => s) s

/-- End the grids of a context (R370 to R372). -/
def endCtx (s : State) (ctx st : Nat) (c : Cause) : State := refill ((ctxGrids s ctx).foldl (fun s k => endGrid s k st c) (if st = 2 then endHeads s ctx else s))

/-- KILL (R370 to R372). -/
def execKill (ctx : Nat) (s : State) : Host.Outcome State Fault Refusal :=
  .next (if ctxopRuns s ctx then s else woke (endCtx (ctxopStore s ctx 2) ctx 2 .kill))

/-- Disable the queues of a context (R373). -/
def stopQueues (s : State) (ctx : Nat) : State :=
  (List.range 64).foldl (fun s q =>
    let r : MReg := ⟨.lqctl, q, 0⟩
    if lqCtx s q = ctx then setLq (s.setMreg r (setFld (s.mreg r) 15 15 0)) q
      { lqOf s q with taken := none, age := 0, ended := false, parked := false, faulted := false } else s) s

/-- Free the sets of a context on every die (spec/17 R332). -/
def freeSets (s : State) (ctx : Nat) : State :=
  { s with dies := s.dies.map (fun (p : Nat × Die) =>
    let gone := (p.2.sets.filter (fun x => x.2.ctx == ctx)).map Prod.fst
    (p.1, gone.foldl Die.dropSet p.2)) }

/-- Every register of a context's block returns to its reset value (R357, R373; spec/21 R383). -/
def resetCtx (s : State) (ctx : Nat) : State :=
  let gone := (ctxSlots.map (fun m => (⟨m, ctx, 0⟩ : MReg))) ++ (List.range 176).filterMap (debugSlot ctx)
  { s with mregs := s.mregs.filter (fun p => !gone.contains p.1), spWatch := s.spWatch.filter (fun p => p.1.1 != ctx) }

/-- Erase the key of a context (spec/22 R421). -/
def eraseKey (s : State) (ctx : Nat) : State := { s with keys := s.keys.filter (fun p => p.2.1 != ctx) }

/-- What DESTROY does once the kill has finished: sets, key, and every register, CTXOP among them (R373). -/
def endDestroy (s : State) (ctx : Nat) : State := resetCtx (eraseKey (freeSets s ctx) ctx) ctx

/-- The contexts whose DESTROY is still to finish. -/
def destroying (s : State) : List Nat :=
  s.mregs.filterMap (fun p => if p.1.name = .ctxop ∧ fld p.2 2 0 = 3 then some p.1.i else none)

/-- The end of a DESTROY, once its grids have written DONE. -/
def tryDestroy (s : State) (ctx : Nat) : State := if killRuns s ctx then s else endDestroy s ctx

/-- DESTROY (R373). -/
def destroyCtx (s : State) (ctx : Nat) : State := tryDestroy (stopQueues (endCtx (ctxopStore s ctx 3) ctx 2 .kill) ctx) ctx

/-- DESTROY (R373). -/
def execDestroy (ctx : Nat) (s : State) : Host.Outcome State Fault Refusal :=
  .next (if ctxopRuns s ctx then s else woke (destroyCtx s ctx))

/-! ### What follows by itself -/

/-- A gang of a grid that has ended goes: one that was saving once its save is over, one that was killed once its last request is performed
(R372, R373). -/
def leaveGang (s : State) (gang : Nat) : State :=
  match s.gang? gang with
  | some x =>
    if x.st = .ended then (if gangOpen s gang then s else removeGang s gang)
    else match s.grid? x.grid with
      | some g => if g.ended.isSome ∧ x.st ≠ .saving then killGang s gang else s
      | none => s
  | none => s

/-- What earlier steps left to be done: the ends of killed gangs, of their grids and of contexts, what the closes they left begin (R366,
R372, R373), and the writes that waited for storage reads which a kill cancelled (spec/22 R414). -/
def settleWork (s : State) : State :=
  let s := (s.gangs.map Prod.fst).foldl leaveGang s
  let s := ((s.grids.filter (fun p => p.2.retired == p.2.ngang && !p.2.done)).map Prod.fst).foldl finishGrid s
  let s := clearBindings (killsDone ((destroying s).foldl tryDestroy s))
  ((s.gangs.map (fun p => p.2.close)).firsts).foldl leftClose s

end Sys2Proof.Machine
end

