-- ==== Sys2Proof/Machine/DebugEvents.lean ====
section
/-! DEFINITION. What a debugger does through the management block (spec/21 R383 to R389, R402): halt and go, single steps, access to a
stopped lane's registers, dumps, and the drop counter. -/

namespace Sys2Proof.Machine

/-- The lanes of a context, those of its saved gangs among them. -/
def ctxLanes (s : State) (ctx : Nat) : List LaneId := (s.lanes.map Prod.fst).filter (fun k => gangCtx s k.gang == ctx)

/-- The gangs of lanes that run have their waits looked at again. -/
def recheckAll (s : State) (ks : List LaneId) : State := (((ks.map (fun k => k.gang)).firsts).filter (gangRuns s)).foldl recheckGang s

/-- HALT (R385): every lane of the context stops with DEBUG_HALT, one of a saved gang where it stands (log 31). -/
def execHalt (ctx : Nat) (s : State) : Host.Outcome State Fault Refusal := .next (woke (stopLanes s (ctxLanes s ctx) .debugHalt 0 0 none))

/-- Whether a lane is debug-stopped. -/
def isStopped (s : State) (k : LaneId) : Bool := match s.lane? k with | some l => l.stopped && l.st != .exited | none => false

/-- A debug-stopped lane resumes; under `step`, for one issue. -/
def resume (step : Bool) (s : State) (k : LaneId) : State :=
  match s.lane? k with
  | some l => s.setLane k { l with stopped := false, stepping := step }
  | none => s

/-- GO (R383): every debug-stopped lane of the context resumes, those of its saved gangs too. -/
def execGo (ctx : Nat) (s : State) : Host.Outcome State Fault Refusal :=
  let ks := (ctxLanes s ctx).filter (isStopped s)
  .next (woke (recheckAll (ks.foldl (resume false) s) ks))

/-- What a LANE value names (R383). -/
inductive Named where
  | lane (k : LaneId)
  | running                     -- not debug-stopped
  | ambiguous
  deriving DecidableEq, Repr

/-- The lane that gang, group, warp and lane indices name, under DBGGRID (R383). -/
def namedLane (s : State) (ctx v : Nat) : Named :=
  let want := fld (s.mreg ⟨.dbggrid, ctx, 0⟩) 31 0
  let hits := (ctxLanes s ctx).filter (fun k =>
    isStopped s k && k.group == v / 2 ^ 10 % 4 && k.warp == v / 2 ^ 5 % 32 && k.lane == v % 32 &&
      (match s.gang? k.gang with
       | some x => x.index == v / 2 ^ 12 && (want == 0 || (match s.grid? x.grid with | some g => g.seq % 2 ^ 32 == want | none => false))
       | none => false))
  match hits with
  | [] => .running
  | [k] => .lane k
  | _ => .ambiguous

/-- The lanes that MODE selects from a debug-stopped lane (R388); a trap-parked one cannot step. -/
def stepLanes (s : State) (ctx mode : Nat) (k : LaneId) : List LaneId :=
  let pc := fun (j : LaneId) => (s.lane? j).map (fun l => l.pc)
  (ctxLanes s ctx).filter (fun j => isStopped s j && (match s.lane? j with | some l => l.st != .trapped | none => false) &&
    (if mode = 0 then LaneId.wid j == LaneId.wid k && pc j == pc k
     else if mode = 1 then j == k
     else if mode = 2 then LaneId.grp j == LaneId.grp k && pc j == pc k
     else LaneId.grp j == LaneId.grp k))

/-- DBGSTEP (R383, R388). -/
def execDbgstep (ctx : Nat) (value : BitVec 64) (s : State) : Host.Outcome State Fault Refusal :=
  let s := regStore s ⟨.dbgstep, ctx, 0⟩ value.toNat
  match namedLane s ctx (fld value 43 0) with
  | .lane k =>
    let ks := stepLanes s ctx (fld value 63 62) k
    .next (woke (recheckAll (ks.foldl (resume true) s) ks))
  | _ => .next s

/-- DBGSEL after an access: GO 0, with ST and EMPTY (R383). -/
def dbgselDone (s : State) (ctx : Nat) (v : BitVec 64) (st : Nat) (empty : Bool) : State :=
  s.setMreg ⟨.dbgsel, ctx, 0⟩ (BitVec.ofNat 64 (fld v 62 62 * 2 ^ 62 + st * 2 ^ 59 + b2n empty * 2 ^ 58 + fld v 51 0))

/-- The value of a register of a debug-stopped lane and whether it is empty; none for an illegal code (R383). -/
def dbgRead (s : State) (k : LaneId) (l : Lane) (code : Nat) : Option (Nat × Bool) :=
  match Operand.ofCode code with
  | .g n => (l.regs[n]?).map (fun r => (r.val.toNat, !r.full))
  | .m n => (s.warp? (LaneId.wid k)).map (fun w => ((w.masks.getD n 0#32).toNat, false))
  | .lc n => some ((l.lc.getD n 0#32).toNat, false)
  | .sr n => some (srRead s k l n, false)
  | _ => none

/-- Write a register of a debug-stopped lane; none for an illegal code (R383). -/
def dbgWrite (s : State) (k : LaneId) (l : Lane) (code v : Nat) : Option State :=
  let low := BitVec.ofNat 32 v
  match Operand.ofCode code with
  | .g n => if n < l.regs.length then some (s.setLane k (l.setReg n low)) else none
  | .m n =>
    (s.warp? (LaneId.wid k)).map (fun w =>
      if n = 0 then s
      else recheckWaits (s.setWarp (LaneId.wid k) { w with masks := w.masks.set n (low &&& w.masks.headD 0#32) }) (LaneId.wid k))
  | .lc n => some (s.setLane k { l with lc := l.lc.set n low })
  | .sr n => some (s.setLane k (l.srWrite n (if n = 9 ∨ n = 17 ∨ n = 18 then v else v % 2 ^ 32)))
  | _ => none

/-- The lane that DBGSEL names, or the ST that refuses the access (R383, R402). -/
def dbgselLane (s : State) (ctx : Nat) (v : BitVec 64) : (LaneId × Lane) ⊕ Nat :=
  if ctxKeyId s ctx ≠ 0 then .inr 3
  else
    match namedLane s ctx (fld v 51 8) with
    | .ambiguous => .inr 4
    | .running => .inr 1
    | .lane k => (match s.lane? k with | some l => .inl (k, l) | none => .inr 1)

/-- DBGSEL_READ (R383). -/
def execDbgselRead (ctx : Nat) (value : BitVec 64) (s : State) : Host.Outcome State Fault Refusal :=
  .next (match dbgselLane s ctx value with
    | .inr st => dbgselDone s ctx value st false
    | .inl (k, l) =>
      match dbgRead s k l (fld value 7 0) with
      | some (v, e) => dbgselDone (s.setMreg ⟨.dbgdata, ctx, 0⟩ (BitVec.ofNat 64 v)) ctx value 0 e
      | none => dbgselDone s ctx value 2 false)

/-- DBGSEL_WRITE (R383). -/
def execDbgselWrite (ctx : Nat) (value : BitVec 64) (s : State) : Host.Outcome State Fault Refusal :=
  .next (match dbgselLane s ctx value with
    | .inr st => dbgselDone s ctx value st false
    | .inl (k, l) =>
      match dbgWrite s k l (fld value 7 0) (s.mreg ⟨.dbgdata, ctx, 0⟩).toNat with
      | some s => woke (dbgselDone s ctx value 0 false)
      | none => dbgselDone s ctx value 2 false)

/-- What a dump holds of a lane, as numbers: its name, PC, registers with their full/empty bits, masks, loop counters and special registers,
fflags, fcsr and the sub-warp's among them (R389). -/
def laneNumbers (s : State) (k : LaneId) (l : Lane) : List Nat :=
  let gi := match s.gang? k.gang with | some g => g.index | none => 0
  [gi, k.group, k.warp, k.lane, l.pc.toNat] ++ l.regs.flatMap (fun r => [r.val.toNat, b2n r.full]) ++
    (match s.warp? (LaneId.wid k) with | some w => w.masks.map (·.toNat) | none => []) ++ l.lc.map (·.toNat) ++ (List.range 32).map (srRead s k l)

/-- The image of a dump (R389): its length in a header of 64 bytes, then the state of the lanes in the device's own layout (log 14); for a sealed
context encrypted, the tag after it (R403), under the `n`-th nonce of the model's own. -/
def dumpBytes (s : State) (ctx n : Nat) (ks : List LaneId) : List Byte :=
  let body := Config.layout 1 (ks.flatMap (fun k => match s.lane? k with | some l => laneNumbers s k l | none => []))
  let header := bytesLE 8 (64 + body.length) ++ List.replicate 56 0#8
  if ctxKeyId s ctx = 0 then header ++ body
  else header ++ Config.gcmText (ctxKey s ctx) n header body ++ bytesLE 16 (Config.gcmTag (ctxKey s ctx) n header body)

/-- Dump the debug-stopped lanes of a context to an address of its own space (R383, R389); a dump that cannot be written is not. -/
def dump (s : State) (ctx : Nat) (va : Addr) : State :=
  let ks := (ctxLanes s ctx).filter (isStopped s)
  let d := match ks with | k :: _ => laneDie s k | [] => 0
  let bs := dumpBytes s ctx s.freeCtr ks
  let s := { s with freeCtr := s.freeCtr + 1 }
  let s := match bulkPlace s d ctx va bs.length .store with
    | (s, ps, .place _ _, _) => writePieces s d va ps bs WTag.device
    | (s, _, _, _) => s
  if ctxKeyId s ctx = 0 then s else sealCount s d ctx (bs.drop 64) 0 true

/-- DBGDUMP (R383, R389). -/
def execDbgdump (ctx : Nat) (value : BitVec 64) (s : State) : Host.Outcome State Fault Refusal :=
  let s := s.setMreg ⟨.dbgdump, ctx, 0⟩ value
  .next (if value.toNat % 4096 = 0 ∧ canonical value ∧ !inPrivate value then woke (dump s ctx value) else s)

/-- TRDROP_READ (R383): the read clears the count. -/
def execTrdropRead (die : Nat) (s : State) : Host.Outcome State Fault Refusal := .next (s.setMreg ⟨.trdrop, die, 0⟩ 0)

end Sys2Proof.Machine
end

