-- ==== Sys2Proof/Machine/Skim.lean ====
section
/-! DEFINITION. The memory path's own events: invalidations (spec/10 R222), replays (R225; spec/03 R87; spec/20 R362, R363) and the commands
of the Skim engines (R234 to R236). -/

namespace Sys2Proof.Machine

/-! ### Invalidation (R222) -/

/-- log2 of the size of a range. -/
def rangeBits (sz : Nat) : Nat := ([12, 16, 21, 30] : List Nat).getD sz 64

/-- An address of a context lies in the range of an invalidation. -/
def inRange (ctx sz va c a : Nat) : Bool :=
  decide (5 ≤ sz) || (c == ctx && (decide (sz = 4) || a % 2 ^ 57 / 2 ^ rangeBits sz == va % 2 ^ 57 / 2 ^ rangeBits sz))

/-- A cached translation maps an address of the range: of two aligned blocks that meet, the larger holds the other. -/
def TlbEntry.inRange (t : TlbEntry) (ctx sz va : Nat) : Bool :=
  let p := max (pageSize t.leaf t.level) (2 ^ rangeBits sz)
  decide (5 ≤ sz) || (t.ctx == ctx && (decide (sz = 4) || t.page * 4096 % 2 ^ 57 / p == va % 2 ^ 57 / p))

/-- Drop the lines of a core's instruction cache that hold a byte of the range (R222; spec/02 R41). -/
def dropLines (x : Core) (hit : Nat → Nat → Bool) : Core :=
  let gone := fun (k : Nat × Addr) (n : Nat) => hit k.1 k.2.toNat || hit k.1 (k.2.toNat + (n - 1))
  { x with icache := x.icache.filter (fun p => !gone p.1 (match p.2 with | .word _ n => n | .fault _ _ n => max n 1))
           icUnder := x.icUnder.filter (fun p => !gone p.1 16) }

/-- Requests that lanes of a die have sent are performed before an invalidation ends: they used translations cached before it (R222). -/
def settleSquares (s : State) (d : Nat) : State :=
  (s.dies.map Prod.fst).foldl (fun s e =>
    (List.range ((s.die e).sqq.length)).foldl (fun s _ =>
      if squareUp s e && (s.die e).sqq.any (fun r => !r.parked && laneDie s r.lane == d) then squareStep s e else s) s) s

/-- A request of a lane of the die that could not be performed yet, in the range: its translation is made again later. -/
def SqReq.overtaken (r : SqReq) (s : State) (d : Nat) (hit : Nat → Nat → Bool) : SqReq :=
  if laneDie s r.lane = d ∧ hit r.ctx r.va then { r with stale := true } else r

/-- The flat stores that a lane's open try holds back, in the range, are translated again; a fault aborts the try with code 5, and a replayable one
is posted too, as of a tried store (R222, R225; spec/08 R205, R207). -/
def retryStores (s : State) (k : LaneId) (hit : Nat → Nat → Bool) : State :=
  match s.lane? k with
  | some l =>
    (match l.spec with
     | some t =>
       let ctx := laneCtx s k
       let r := t.stores.foldl (fun (a : State × Except (Option FbInfo) (List StoreEnt)) e =>
         match a.2 with
         | .error _ => a
         | .ok es =>
           let va := privAddr s k l (BitVec.ofNat 64 e.va)
           if e.space = .spad ∨ !hit ctx va.toNat then (a.1, .ok (es ++ [e]))
           else
             match vplace a.1 (laneDie s k) ctx va .store with
             | (s, .place loc _) => (s, .ok (es ++ [{ e with block := loc / 16 }]))
             | (s, .waits) => (s, .ok (es ++ [e]))
             | (s, .fault c level _) =>
               (s, .error (if replayable c then some { va := va.toNat, cause := c, access := 5, ctx := ctx, issuer := 0, lanes := maskOf [k.lane],
                                                       pc := l.pc.toNat, level := level } else none))
             | (s, _) => (s, .error none)) (s, .ok [])
       (match r with
        | (s, .ok es) => s.setLane k { l with spec := some { t with stores := es } }
        | (s, .error f) =>
          let s := match f with | some f => postFault s (laneDie s k) (.lane (laneCore s k)) f | none => s
          abortTries s [k] 5 0)
     | none => s)
  | none => s

/-- Invalidate a range on a die (R222): what used a translation cached before has been performed, or is translated again. -/
def invalidate (s : State) (d ctx sz va : Nat) : State :=
  let hit := inRange ctx sz va
  let s := drainAll (settleSquares s d)
  let s := s.setDie d { s.die d with tlb := (s.die d).tlb.filter (fun t => !t.inRange ctx sz va) }
  let s := { s with cores := s.cores.map (fun (p : Nat × Core) => (p.1, if dieOf p.1 = d then dropLines p.2 hit else p.2))
                    dies := s.dies.map (fun (p : Nat × Die) => (p.1, { p.2 with sqq := p.2.sqq.map (fun (r : SqReq) => r.overtaken s d hit) })) }
  ((s.lanes.map Prod.fst).filter (fun k => laneDie s k == d)).foldl (fun s k => retryStores s k hit) s

/-- XINV (R222). -/
def execXinv (die : Nat) (value : BitVec 64) (s : State) : Host.Outcome State Fault Refusal :=
  let s := regStore s ⟨.xinv, die, 0⟩ value.toNat
  .next (if flg value 0 then woke (invalidate s die (fld value 11 6) (fld value 5 3) (fld value 56 12 * 4096)) else s)

/-! ### Replay (R225) -/

/-- A lane parked for a replayable fault is released. -/
def Lane.released (l : Lane) : Lane :=
  match l.st with
  | .replay false dst => { l with st := .replay true dst }
  | _ => l

/-- The parked commands of a core's engines are released. -/
def Core.released (x : Core) (ctx : Nat) : Core :=
  { x with cmds := x.cmds.map (fun (c : Cmd) => if c.ctx = ctx then { c with parked := false } else c)
           mx := { x.mx with q := x.mx.q.map (fun (c : MCmd) => if c.ctx = ctx then { c with parked := false } else c) } }

/-- The parked requests of a Square are released. -/
def Die.released (x : Die) (ctx : Nat) : Die :=
  { x with sqq := x.sqq.map (fun (r : SqReq) => if r.ctx = ctx then { r with parked := false } else r)
           setq := x.setq.map (fun (r : SetReq) => if r.ctx = ctx then { r with parked := false } else r) }

/-- Every access of a context parked on a die, and at another module's Square for a lane of the die (log 11), is issued again (R225; spec/13 R264; spec/16 R322; spec/17 R345; spec/20 R362, R363). -/
def replayCtx (s : State) (d ctx : Nat) : State :=
  let mine := fun (k : LaneId) => gangRuns s k.gang && laneDie s k == d && laneCtx s k == ctx
  let served := fun (q : Nat) => decide (q / 16 = d ∧ fld (s.mreg ⟨.lqctl, q, 0⟩) 13 8 = ctx)
  let words := (s.grids.filter (fun (p : Nat × Grid) => p.2.cplPark && p.2.q / 16 == d && p.2.ctx == ctx)).map Prod.fst
  let s := s.setDie d ((s.die d).released ctx)
  let s := { s with
    dies := s.dies.map (fun (p : Nat × Die) => (p.1, if p.1 < 4 then p.2 else
      { p.2 with sqq := p.2.sqq.map (fun (r : SqReq) => if r.ctx = ctx ∧ laneDie s r.lane = d then { r with parked := false } else r) }))
    lanes := s.lanes.map (fun (p : LaneId × Lane) => (p.1, if mine p.1 then p.2.released else p.2))
    cores := s.cores.map (fun (p : Nat × Core) => (p.1, if dieOf p.1 = d then p.2.released ctx else p.2))
    lqs := s.lqs.map (fun (p : Nat × LQueue) => (p.1, if served p.1 then { p.2 with parked := false } else p.2))
    grids := s.grids.map (fun (p : Nat × Grid) => (p.1, if words.contains p.1 then { p.2 with cplPark := false } else p.2)) }
  words.foldl tryWords s

/-- XREPLAY (R225). -/
def execXreplay (die : Nat) (value : BitVec 64) (s : State) : Host.Outcome State Fault Refusal :=
  let s := regStore s ⟨.xreplay, die, 0⟩ value.toNat
  .next (if flg value 6 then woke (replayCtx s die (fld value 5 0)) else s)

/-! ### Skim commands (R234, R235) -/

/-- A Skim command. -/
structure SkCmd where
  opc : Nat
  flags : Nat
  ctx : Nat
  pgsz : Nat
  resv : Nat
  ptepa : Nat
  va : Nat
  dst : Nat
  rdst : Nat
  desc : Nat
  limit : Nat
  cpl : Nat
  deriving DecidableEq, Repr

/-- The command in 64 bytes (R234). -/
def parseSk (bs : List Byte) : SkCmd :=
  let n := fun (o k : Nat) => ofBytesLE ((bs.drop o).take k)
  { opc := n 0 1, flags := n 1 1, ctx := n 2 1, pgsz := n 3 1, resv := n 4 4, ptepa := n 8 8, va := n 0x10 8, dst := n 0x18 8, rdst := n 0x20 8,
    desc := n 0x28 8, limit := n 0x30 8, cpl := n 0x38 8 }

/-- The command at a Skim engine's head, once the engine is ready, its ring described and an entry posted (R234; spec/22 R410). An entry that cannot be
read is not taken, and the engine stands before it: the model's choice (log 32). -/
def skHead (s : State) (e : Nat) : Option SkCmd :=
  let base := (s.mreg ⟨.skbase, e, 0⟩).toNat
  let h := s.mreg ⟨.skhead, e, 0⟩
  if readyBit s (26 + e) && base != 0 && h != s.mreg ⟨.sktail, e, 0⟩ then
    match ioRead s (base + 64 * (h.toNat % 2 ^ fld (s.mreg ⟨.sksize, e, 0⟩) 4 0)) 64 with
    | (.ready, bs) => some (parseSk bs)
    | _ => none
  else none

/-- A command gives BADCMD (R234). -/
def SkCmd.bad (c : SkCmd) : Bool :=
  let page := 2 ^ rangeBits c.pgsz
  let va : Addr := BitVec.ofNat 64 c.va
  let rep := natBit c.flags 0
  (c.opc != 1 && c.opc != 2) || decide (3 < c.pgsz) || c.resv != 0 || decide (8 ≤ c.flags) || (c.opc == 1 && (rep || natBit c.flags 2)) ||
    c.ptepa % 8 != 0 || !canonical va || c.va % page != 0 || (c.opc == 1 && c.dst % page != 0) ||
    (c.opc == 2 && (c.dst % 16 != 0 || c.desc % 16 != 0 || (rep && c.rdst % 16 != 0))) ||
    !inR216 c.ptepa || !inR216 c.dst || !inR216 c.desc || (rep && !inR216 c.rdst)

/-- Whether a command's completion word can be written (R234, R235; spec/22 R410). That one falls in no host window is taken of the addresses of host
memory: one in HBM or the capacity tier is written (log 32). -/
def cplAvail (s : State) (c : SkCmd) : Avail := if c.cpl % 8 == 0 && inR216 c.cpl then ioAvail s c.cpl 8 else .bad

/-- A command is over: SKHEAD, its completion word and its record (R234, R235). SKHEAD counts an entry when its command ends, the model's choice of when it
is taken (log 32). -/
def skDone (s : State) (e : Nat) (c : SkCmd) (status entry : Nat) : State :=
  let h := s.mreg ⟨.skhead, e, 0⟩
  let index := h.toNat % 2 ^ fld (s.mreg ⟨.sksize, e, 0⟩) 4 0
  let ok := cplAvail s c != .bad
  let s := if ok then ioWrite s c.cpl (bytesLE 8 status) else s
  let s := emit s (.io (0x100 + e)) 0x11 [(0x90, 4, index), (0x94, 1, status), (0x95, 1, b2n (!ok)), (0x98, 8, entry)]
  ({ s with skims := mdel s.skims e } : State).setMreg ⟨.skhead, e, 0⟩ (h + 1)

/-- The Square that homes an entry is ready (spec/22 R410). -/
def entryUp (s : State) (pa : Nat) : Bool :=
  match locate s pa with | some (_, home) => isRemote s home || squareUp s (homeSquare s home) | none => true

/-- The data of a command is written: its compare-and-swap is still to come (R235). -/
def skReady (s : State) (e : Nat) (old new : Addr) : State := { s with skims := mset s.skims e (old, new) }

/-- The compare-and-swap of the entry at its Square, the bytes of the new page applied before it; then the invalidation on every die, and the
replay that the command asks for (R235). An entry that is no longer the one read gives CHANGED, and so does one that can no longer be read or
written (log 32). -/
def skSwap (s : State) (e : Nat) (c : SkCmd) (old new : Addr) : State :=
  if !entryUp s c.ptepa then s
  else
    match physRead s none c.ptepa 8 with
    | .waits => s
    | .failed _ => skDone s e c 4 0
    | .ok v =>
      if BitVec.ofNat 64 v ≠ old ∨ ioAvail s c.ptepa 8 = .bad then skDone s e c 4 v
      else
        let s := ioWrite (drainAll s) c.ptepa (bytesLE 8 new.toNat)
        let s := (List.range 4).foldl (fun s d => invalidate s d c.ctx c.pgsz c.va) s
        let s := if natBit c.flags 1 then (List.range 4).foldl (fun s d => replayCtx s d c.ctx) s else s
        skDone s e c 0 new.toNat

/-- The chunks of a command's page. -/
def SkCmd.chunks (c : SkCmd) : Nat := 2 ^ rangeBits c.pgsz / 4096

/-- Chunks read one after another: all their bytes, or the first that is not read. -/
def joinChunks (f : Nat → Chunk) : List Nat → Chunk
  | [] => .ok []
  | c :: cs =>
    match f c with
    | .ok bs => (match joinChunks f cs with | .ok r => .ok (bs ++ r) | o => o)
    | o => o

/-- 4 KiB of a plain frame. -/
def frameChunk (s : State) (pa : Nat) : Chunk :=
  match chunkAt s none pa 4096 with
  | (.ready, bs) => .ok bs
  | (.waits, _) => .waits
  | (.bad, _) => .bad .uncorrectable

/-- Whether everything that a command would write can be written, so that no entry comes to name bytes that are not there: it waits for stacks that are
not ready (R235; spec/22 R410), and where one of the ranges cannot be written it ends with status 5 (log 32). -/
def destAvail (s : State) (rs : List (Nat × Nat)) : Avail :=
  let as := rs.map (fun p => ioAvail s p.1 p.2)
  if as.any (· == .waits) then .waits else if as.any (· == .bad) then .bad else .ready

/-- The tag of a Skim engine's writes: the command's context, and its ring index (spec/21 R395, R396). -/
def skTag (s : State) (e : Nat) (c : SkCmd) : WTag :=
  { WTag.device with ctx := c.ctx, issuer := 4, pc := BitVec.ofNat 64 ((s.mreg ⟨.skhead, e, 0⟩).toNat % 2 ^ fld (s.mreg ⟨.sksize, e, 0⟩) 4 0) }

/-- PROMOTE (R235). Its writes have the page's virtual addresses, and are watched there (spec/21 R394; log 31). -/
def promote (s : State) (e : Nat) (c : SkCmd) : State :=
  match physRead s none c.ptepa 8 with
  | .waits => s
  | .failed _ => skDone s e c 5 0
  | .ok v =>
    let old : Addr := BitVec.ofNat 64 v
    if !(flg old 0 && flg old 1 && (xfOf old == 1 || xfOf old == 2)) then skDone s e c 5 v
    else
      match joinChunks (readChunk s none old) (List.range c.chunks) with
      | .waits => s
      | .ok bs =>
        match destAvail s [(c.dst, bs.length)] with
        | .waits => s
        | .bad => skDone s e c 5 v
        | .ready => skReady (ioWriteAs s c.dst bs c.va (skTag s e c)) e old (setFld (setFld (setFld old 9 8 0) 47 12 (c.dst / 4096)) 55 48 0)
      | _ => skDone s e c 3 v

/-- Where the chunks of a DEMOTE stand from DST, each 16-byte aligned: offset and image (R235). -/
def placeChunks : Nat → List (List Byte) → List (Nat × List Byte)
  | _, [] => []
  | o, c :: cs => (o, c) :: placeChunks ((o + c.length + 15) / 16 * 16) cs

/-- Write a DEMOTE's chunks, replicas and descriptors (R227, R235). -/
def writeChunks (s : State) (c : SkCmd) (ps : List (Nat × List Byte)) : State :=
  let rep := natBit c.flags 0
  (ps.zipIdx).foldl (fun s p =>
    let (o, bs) := p.1
    let s := ioWrite s (c.dst + o) bs
    let s := if rep then ioWrite s (c.rdst + o) bs else s
    let w0 := (c.dst + o) + bs.length * 2 ^ 48
    let w1 := if rep then (c.rdst + o) + 1 else 0
    ioWrite s (c.desc + 16 * p.2) (bytesLE 8 w0 ++ bytesLE 8 w1)) s

/-- DEMOTE (R231, R235, R236). -/
def demote (s : State) (e : Nat) (c : SkCmd) : State :=
  match physRead s none c.ptepa 8 with
  | .waits => s
  | .failed _ => skDone s e c 5 0
  | .ok v =>
    let old : Addr := BitVec.ofNat 64 v
    if !(flg old 0 && flg old 1 && xfOf old == 0) then skDone s e c 5 v
    else
      let page := 2 ^ rangeBits c.pgsz
      let frame := pfnOf old / page * page
      match joinChunks (fun i => frameChunk s (frame + 4096 * i)) (List.range c.chunks) with
      | .waits => s
      | .ok bs =>
        let ps := placeChunks 0 ((List.range c.chunks).map (fun i => makeChunk ((bs.drop (4096 * i)).take 4096)))
        if ps.any (fun p => decide (c.limit < p.1 + p.2.length)) then skDone s e c 2 v
        else
          let put := fun (base : Nat) => ps.map (fun p => (base + p.1, p.2.length))
          match destAvail s ((c.desc, 16 * c.chunks) :: put c.dst ++ (if natBit c.flags 0 then put c.rdst else [])) with
          | .waits => s
          | .bad => skDone s e c 5 v
          | .ready =>
            let new := setFld (setFld (setFld old 9 8 (if natBit c.flags 2 then 2 else 1)) 47 12 (c.desc / 4096)) 55 48 (c.desc / 16 % 256)
            skReady (writeChunks s c ps) e old new
      | _ => skDone s e c 5 v

/-- A command at its engine: it reads the entry and writes the new page in one event, and swaps in the next (R235; log 32). One whose completion
word stands behind a stack that is not ready waits (spec/22 R410). -/
def skStep (s : State) (e : Nat) (c : SkCmd) (f : State → Nat → SkCmd → State) : State :=
  if cplAvail s c = .waits then s
  else
    match mfind s.skims e with
    | some (old, new) => skSwap s e c old new
    | none => f s e c

/-- PROMOTE (R234, R235). -/
def execPromote (engine : Nat) (s : State) : Host.Outcome State Fault Refusal :=
  match skHead s engine with
  | some c => .next (if !c.bad && c.opc == 1 then woke (skStep s engine c promote) else s)
  | none => .next s

/-- DEMOTE (R234 to R236). -/
def execDemote (engine : Nat) (s : State) : Host.Outcome State Fault Refusal :=
  match skHead s engine with
  | some c => .next (if !c.bad && c.opc == 2 then woke (skStep s engine c demote) else s)
  | none => .next s

/-- BADCMD (R234): nothing but its completion word and its record. -/
def execBadcmd (engine : Nat) (s : State) : Host.Outcome State Fault Refusal :=
  match skHead s engine with
  | some c => .next (if c.bad && cplAvail s c != .waits then woke (skDone s engine c 1 0) else s)
  | none => .next s

/-- A Skim engine is reset: the command it works on has not performed its swap and ends with status 6, the entry as it was (R236). -/
def resetSkim (s : State) (e : Nat) : State :=
  match skHead s e with
  | some c =>
    if c.bad then s
    else skDone s e c 6 (match physRead s none c.ptepa 8 with | .ok v => v | _ => 0)
  | none => s

/-- ENGINE_RESET_SKIM (R236; spec/22 R411). -/
def execEngineResetSkim (engine : Nat) (s : State) : Host.Outcome State Fault Refusal :=
  let v : BitVec 64 := BitVec.ofNat 64 (4 * 1024 + 0x100 + engine)
  .next (woke (resetRecord (engrstDone (resetSkim s engine) v 0) 4 (0x100 + engine)))

end Sys2Proof.Machine
end

