-- ==== Sys2Proof/Machine/Platform.lean ====
section
/-! DEFINITION. The module as a whole (spec/22): self-test and bring-up (R409, R410), module reset (R411), the causes that end grids (R417),
power (R415), the routing table (R413), attestation (R420) and keys (R421). -/

namespace Sys2Proof.Machine

/-! ### Module reset (R411) -/

/-- The bytes of a view that lie outside the module's own stacks and capacity tier, before the reset and after it, when its number is 0: host
memory and other modules. -/
def keptCells (s : State) (m : Mem) : Mem :=
  m.filter (fun p => decide (2 ^ 48 ≤ p.1) || (decide (p.1 / 2 ^ 45 ≠ moduleNo s) && decide (p.1 / 2 ^ 45 ≠ 0)))

/-- The module after a reset: every field as at reset, but for what lies outside the module, for records and vectors already emitted, and for
the agenda and the model's own counters (R411). Skim commands at work end with status 6 first (spec/10 R236). -/
def moduleReset (s : State) : State :=
  let s := drainAll ([0, 1].foldl resetSkim s)
  { State.reset with
    agenda := s.agenda, freeCtr := s.freeCtr, uid := s.uid, recs := s.recs, msix := s.msix
    dies := s.dies.map (fun (p : Nat × Die) => (p.1, { Die.reset with view := keptCells s p.2.view })) }

/-- MRST (R411). -/
def execMrst (s : State) : Host.Outcome State Fault Refusal := .next (moduleReset s)
/-- PCIE_CONVENTIONAL_RESET (R411). -/
def execPcieConventionalReset (s : State) : Host.Outcome State Fault Refusal := .next (moduleReset s)
/-- FUNCTION_LEVEL_RESET (R411). -/
def execFunctionLevelReset (s : State) : Host.Outcome State Fault Refusal := .next (moduleReset s)

/-! ### The host's accesses to device memory (spec/12 R253; R405, R410) -/

/-- A host or CXL write enters with the vector and id of the compute die that homes its address, after the host's earlier writes (spec/12 R242,
R253): they are applied there first, as of one PCIe ordering domain (log 42). -/
def hostWrite (s : State) (loc : Nat) (bytes : List Byte) : State :=
  let d := localDie s (homeOfLoc s loc)
  let s := if Vec.le s.hostVec (s.die d).vec then s else drainTo s d
  let s := flatWrite s d (bytes.zipIdx.map (fun p => (loc + p.2, p.1))) WTag.device
  woke { s with hostVec := Vec.join s.hostVec (s.die d).vec }

/-- A part of a host or CXL read returns its home die's value, after the writes that the host's earlier reads returned; what it returns precedes the
host's later reads (spec/12 R253; log 42). -/
def hostRead (s : State) (p : Nat × Nat) : State :=
  let d := localDie s (homeOfLoc s p.1)
  let s := if Vec.le s.hostSeen (s.die d).vec then s else drainTo s d
  { s with hostGot := s.hostGot.map (· ++ viewRead s d p.1 p.2), hostSeen := Vec.join s.hostSeen (s.die d).vec }

/-- Whether an access of the host can go ahead at a location: its stacks are ready, and no line of it fails (R410; spec/08 R190). -/
def hostAvail (s : State) (loc n : Nat) (write : Bool) : Avail :=
  match availSpan s loc n with
  | .ready => if (memError s loc n write).isSome then .bad else .ready
  | a => a

/-- An access of the host is performed, unless it waits for a stack that is not ready: a write to a failed one is lost, and a read of one answers
nothing (R410, log 42). -/
def hostTry (s : State) : HostOp → Option State
  | .write loc bytes =>
    match hostAvail s loc bytes.length true with
    | .ready => some (hostWrite s loc bytes)
    | .bad => some s
    | .waits => none
  | .read ps =>
    let as := ps.map (fun p => hostAvail s p.1 p.2 false)
    if as.any (· == .waits) then none
    else if as.any (· == .bad) then some { s with hostGot := none }
    else some (ps.foldl hostRead { s with hostGot := some [] })

/-- A write of the host waits, and with it those after it, as posted in one ordering domain (spec/12 R253, log 42). -/
def HostOp.posted : HostOp → Bool
  | .write _ _ => true
  | .read _ => false

/-- An access of the host arrives (R410): it is performed, or joins those that wait. -/
def hostDo (s : State) (op : HostOp) : State :=
  match (if op.posted && s.hostWait.any HostOp.posted then none else hostTry s op) with
  | some t => t
  | none => { s with hostWait := s.hostWait ++ [op] }

/-- The accesses of the host that waited are tried again, oldest first. -/
def retryHost (s : State) : State := s.hostWait.foldl hostDo { s with hostWait := [] }

/-! ### Bring-up (R409, R410, R418) -/

/-- What waited for a function: the device's own writes, completion words, and the host's accesses (R410; spec/20 R362). -/
def retryWaits (s : State) : State :=
  retryHost (((s.grids.filter (fun p => !p.2.cplWait.isEmpty && !p.2.cplPark)).map Prod.fst).foldl tryWords
    ((List.range 4).foldl (fun s d => traceFlush (fbFlush s d) d) (retryDevice s)))

def setReady (s : State) (b : Nat) : State := retryWaits (s.setMreg ⟨.ready, 0, 0⟩ (setFld (s.mreg ⟨.ready, 0, 0⟩) b b 1))
def setFail (s : State) (b : Nat) : State := retryWaits (s.setMreg ⟨.fail, 0, 0⟩ (setFld (s.mreg ⟨.fail, 0, 0⟩) b b 1))

/-- A bit of the READY and FAIL map (R409). -/
def mapBit (b : Nat) : Bool := decide (b ≤ 1 ∨ (6 ≤ b ∧ b < 44))

/-- A function has not finished its self-test (R409). -/
def untested (s : State) (b : Nat) : Bool :=
  mapBit b && !readyBit s b && !failBit s b && !(decide (22 ≤ b ∧ b < 26) && (s.die (b - 22)).sqTested)

/-- A function finishes its self-test: FAIL, or READY at once but for a Square, which waits for SQOVSIZE (R410), and the management
controller, which waits for R418. -/
def finishTest (s : State) (b : Nat) (passed : Bool) : State :=
  if !passed then setFail s b
  else if b = 1 then s
  else if 22 ≤ b ∧ b < 26 then s.setDie (b - 22) { s.die (b - 22) with sqTested := true }
  else setReady s b

/-- SELF_TEST (R409). -/
def execSelfTest (bit : Nat) (passed : Bool) (s : State) : Host.Outcome State Fault Refusal :=
  .next (if untested s bit then woke (finishTest s bit passed) else s)

/-- The boot ROM has not reported yet. -/
def bootDue (s : State) : Bool := !readyBit s 1 && !failBit s 1 && fld (s.mreg ⟨.fwstat, 0, 0⟩) 3 0 == 0

/-- The outcome of the boot ROM's checks (R418): with any failure no firmware runs, and the version reads 0. -/
def verified (s : State) (result : Nat) (svn : BitVec 32) : State :=
  let v := result % 16 + (if result = 0 then svn.toNat * 2 ^ 32 else 0)
  let s := s.setMreg ⟨.fwstat, 0, 0⟩ (BitVec.ofNat 64 v)
  if result = 0 then setReady s 1 else s

/-- FIRMWARE_VERIFY (R418). -/
def execFirmwareVerify (result : Nat) (svn : BitVec 32) (s : State) : Host.Outcome State Fault Refusal :=
  .next (if bootDue s then verified s result svn else s)

/-- A write of SQOVSIZE; the first after the Square's self-test makes it ready (R410; spec/16 R328). -/
def writeSqov (s : State) (d : Nat) (v : BitVec 64) : State :=
  let s := regStore s ⟨.sqovsize, d, 0⟩ v.toNat
  if (s.die d).sqTested && !failBit s (22 + d) then setReady s (22 + d) else s

/-- SQUARE_READY (R410). -/
def execSquareReady (die : Nat) (value : BitVec 64) (s : State) : Host.Outcome State Fault Refusal := .next (woke (writeSqov s die value))

/-! ### Power and temperature (R415, R417) -/

def setHot (s : State) (d : Nat) (hot : Bool) : State := s.setDie d { s.die d with hot := hot }

/-- JUNCTION_ABOVE_THOT (R417). -/
def execJunctionAboveThot (die : Nat) (s : State) : Host.Outcome State Fault Refusal := .next (setHot s die true)

/-- Let cores issue, or keep them from it (R417). -/
def setHalted (s : State) (cores : List Nat) (halted : Bool) : State := cores.foldl (fun s c => s.setCore c { s.core c with halted := halted }) s

/-- JUNCTION_BELOW_THOT (R417). -/
def execJunctionBelowThot (die : Nat) (s : State) : Host.Outcome State Fault Refusal :=
  .next (woke (setHalted (setHot s die false) ((List.range 48).map (48 * die + ·)) false))

/-- The grids with a gang that `p` names. -/
def gridsWith (s : State) (p : Nat → Gang → Bool) : List Nat := ((s.gangs.filter (fun x => x.2.onClose && p x.1 x.2)).map (fun x => x.2.grid)).firsts

/-- End grids by a cause of kind E (R417; spec/20 R376, R379). -/
def endGrids (s : State) (gs : List Nat) (c : Cause) : State := refill (gs.foldl (fun s k => endGrid s k 1 c) s)

/-- THERMAL_HALT (R417). -/
def execThermalHalt (s : State) : Host.Outcome State Fault Refusal :=
  .next (woke (setHalted (endGrids s (gridsWith s (fun _ _ => true)) .thermalHalt) (List.range 192) true))

/-- The gangs on a failing unit (R417; spec/01 R25): those with a group on its core, or on the die of its Square. -/
def onUnit (s : State) (d unit gang : Nat) (x : Gang) : Bool :=
  let onCore := fun (p : Nat) => match logicalCore s d p with
    | some c => (gangGroups s gang).any (fun g => match s.group? g with | some y => y.core == c | none => false)
    | none => false
  if unit < 0x34 then onCore unit
  else if 0x40 ≤ unit ∧ unit < 0x74 then onCore (unit - 0x40)
  else if 0x80 ≤ unit ∧ unit < 0xB4 then onCore (unit - 0x80)
  else unit == 0xC0 && x.die == d

/-- MACHINE_CHECK (R417). -/
def execMachineCheck (die unit : Nat) (s : State) : Host.Outcome State Fault Refusal :=
  .next (woke (endGrids s (gridsWith s (onUnit s die unit)) .machineCheck))

/-- End the grids of the context that MODCTL names (R417). -/
def abortCtx (s : State) (ctx : Nat) (c : Cause) : State :=
  let r : MReg := ⟨.modctl, 0, 0⟩
  endCtx (s.setMreg r (setFld (s.mreg r) 5 0 ctx)) ctx 1 c

/-- MODCTL_ABORT (R417): by the host, or by the management controller once it runs. -/
def execModctlAbort (ctx : Nat) (byHost : Bool) (s : State) : Host.Outcome State Fault Refusal :=
  .next (if byHost then woke (abortCtx s ctx .hostAbort)
    else if readyBit s 1 then woke (abortCtx s ctx .firmwareAbort)
    else s)

/-- ADMRES_CHANGE (R415). -/
def execAdmresChange (die : Nat) (units : BitVec 16) (s : State) : Host.Outcome State Fault Refusal :=
  .next (if readyBit s 1 then woke (s.setMreg ⟨.admres, die, 0⟩ (units.setWidth 64)) else s)

/-- A routing table is signed both ways by the host platform key, whose public keys it brings: 32 bytes of Ed25519 and 1,952 of ML-DSA-65, as their
signatures stand; the key's hash is the one that the host wrote before it set HWLOCK (R419; log 10). -/
def tableSigned (s : State) (t : SignedTable) : Bool :=
  let h := Config.sha384 t.table
  let hash := (List.range 6).flatMap (fun i => bytesLE 8 (s.mreg ⟨.hostkey, 0, i⟩).toNat)
  flg (s.mreg ⟨.hwlock, 0, 0⟩) 63 && bytesLE 48 (Config.sha384 t.key) == hash &&
    Config.verifies false (t.key.take 32) h (t.sig.take 64) && Config.verifies true (t.key.drop 32) h (t.sig.drop 64)

/-- Install a routing table, which gives the module its number and its domain's size (R413, log 10). -/
def installTable (module dsize : BitVec 3) (table : List Byte) (s : State) : State :=
  { s.setMreg ⟨.modid, 0, 0⟩ (BitVec.ofNat 64 (16 * dsize.toNat + module.toNat)) with routing := table }

/-- ROUTING_TABLE_UPDATE (R413, R419): only a table that the host platform key signs is installed, with the module number and domain size that
stand in it. -/
def execRoutingTableUpdate (module dsize : BitVec 3) (signed : SignedTable) (s : State) : Host.Outcome State Fault Refusal :=
  .next (if tableSigned s signed && Config.tableModule signed.table == (module, dsize) then woke (installTable module dsize signed.table s) else s)

/-! ### Attestation (R420, R421) -/

/-- A body with the two signatures over its digest; `maker` by the fused manufacturer key (R420, R421). -/
def signedBytes (maker : Bool) (body : List Byte) : List Byte :=
  let h := Config.sha384 body
  body ++ bytesLE 64 (Config.ed25519 maker h) ++ bytesLE 3309 (Config.mlDsa65 maker h)

/-- The register value at the head of ATTADDR or KLADDR as an address. -/
def attAddr (s : State) : Nat := (s.mreg ⟨.attaddr, 0, 0⟩).toNat

/-- The attestation report (R420). -/
def reportBytes (s : State) : List Byte :=
  let modid := s.mreg ⟨.modid, 0, 0⟩
  let nonce := (List.range 4).flatMap (fun i => bytesLE 8 (s.mreg ⟨.attnonce, 0, i⟩).toNat)
  let slots := (s.keys.map (fun p => 2 ^ p.1)).foldl (· + ·) 0
  signedBytes false
    (bytesLE 4 1 ++ bytesLE 4 (fld (s.mreg ⟨.fwstat, 0, 0⟩) 63 32) ++ nonce ++ bytesLE 48 Config.firmwareDigest ++
      bytesLE 8 (s.mreg ⟨.ready, 0, 0⟩).toNat ++ bytesLE 8 slots ++ bytesLE 1 modid.toNat ++ bytesLE 7 (Config.sha384 s.routing))

/-- The identity certificate (R421). -/
def certBytes : List Byte :=
  signedBytes true
    (bytesLE 4 1 ++ bytesLE 4 0 ++ bytesLE 32 (Config.identityKey 0) ++ bytesLE 1952 (Config.identityKey 1) ++ bytesLE 32 (Config.identityKey 2) ++
      bytesLE 1184 (Config.identityKey 3))

/-- Operation `op` of ATTGO, which reads the value written until it is done, then 0: it waits for a stack that is not ready (R408, R410). -/
def attDo (s : State) (op : BitVec 64) (bs : List Byte) : State :=
  match availSpan s (attAddr s) bs.length with
  | .waits => s.setMreg ⟨.attgo, 0, 0⟩ op
  | _ => (ioWrite s (attAddr s) bs).setMreg ⟨.attgo, 0, 0⟩ 0

/-- ATTESTATION_REPORT (R420). -/
def execAttestationReport (s : State) : Host.Outcome State Fault Refusal := .next (woke (attDo s 1 (reportBytes s)))
/-- IDENTITY_CERTIFICATE (R421). -/
def execIdentityCertificate (s : State) : Host.Outcome State Fault Refusal := .next (woke (attDo s 2 certBytes))

/-! ### Keys (R421) -/

/-- The key-load message that KLADDR names, as far as it can be read. -/
def keyMessage (s : State) : Avail × List Byte := ioRead s (s.mreg ⟨.kladdr, 0, 0⟩).toNat 0x4A4

/-- HMAC with SHA-384, whose blocks are of 128 bytes. -/
def hmac (key msg : List Byte) : List Byte :=
  let k := (if 128 < key.length then bytesLE 48 (Config.sha384 key) else key)
  let k := k ++ List.replicate (128 - k.length) 0#8
  bytesLE 48 (Config.sha384 (k.map (· ^^^ 0x5C#8) ++ bytesLE 48 (Config.sha384 (k.map (· ^^^ 0x36#8) ++ msg))))

/-- The first 32 bytes of HKDF with SHA-384, which are of its first block (R421). -/
def hkdf (salt ikm info : List Byte) : List Byte := (hmac (hmac salt ikm) (info ++ [1#8])).take 32

/-- The ASCII bytes of "qoryn key-load" (R421). -/
def keyInfo : List Byte := [0x71, 0x6F, 0x72, 0x79, 0x6E, 0x20, 0x6B, 0x65, 0x79, 0x2D, 0x6C, 0x6F, 0x61, 0x64]

/-- The context key that a message carries, none when its tag does not verify: the two shared secrets, the wrapping key, and the encrypted key
opened with it (R421 steps 1 to 3). -/
def unwrapKey (m : List Byte) : Option Nat :=
  let ikm := Config.x25519 ((m.drop 8).take 32) ++ Config.mlKem768 ((m.drop 0x28).take 1088)
  let wrap := hkdf (m.take 8) ikm keyInfo
  (Config.gcmOpen wrap (recN m 0x468 12) (m.take 0x468) ((m.drop 0x474).take 32) (recN m 0x494 16)).map ofBytesLE

/-- A message is malformed (R421). -/
def badMessage (m : List Byte) : Bool :=
  recN m 0 4 != 1 || recN m 7 1 != 0 || decide (2 ≤ recN m 6 1) || decide (64 ≤ recN m 4 1) || decide (recN m 5 1 < 1 ∨ 64 ≤ recN m 5 1)

/-- A context has a placed, saved or waiting gang (R421). -/
def ctxHasGangs (s : State) (ctx : Nat) : Bool :=
  s.gangs.any (fun p => gangCtx s p.1 == ctx && p.2.st != .ended) || s.grids.any (fun p => p.2.ctx == ctx && !p.2.done && p.2.ended.isNone && decide (p.2.next < p.2.ngang))

/-- The outcome of a message, by the lowest status that applies, and the key it carries (R421). -/
def keyStatus (s : State) (m : List Byte) : Nat × Nat :=
  let ctx := recN m 4 1
  let slot := recN m 5 1
  let unload := natBit (recN m 6 1) 0
  if badMessage m then (1, 0)
  else
    match unwrapKey m with
    | none => (2, 0)
    | some key =>
      let held := mfind s.keys slot
      let other := match held with | some p => p.1 != ctx | none => false
      let wrong := unload && (match held with | some p => p.1 == ctx && p.2 != key | none => true)
      if wrong then (2, key)
      else if other then (3, key)
      else if ctxHasGangs s ctx then (4, key)
      else if ctxKeyId s ctx ≠ 0 ∧ ctxKeyId s ctx ≠ slot then (5, key)
      else (0, key)

/-- The load is done (R408, R421). -/
def klDone (s : State) (st : Nat) : State := (s.setMreg ⟨.klstat, 0, 0⟩ (BitVec.ofNat 64 st)).setMreg ⟨.klgo, 0, 0⟩ 0

/-- Act on a message (R421). -/
def useMessage (s : State) (m : List Byte) : State :=
  let ctx := recN m 4 1
  let slot := recN m 5 1
  match keyStatus s m with
  | (0, key) =>
    if natBit (recN m 6 1) 0 then klDone ({ s with keys := mdel s.keys slot }.setMreg ⟨.ctxkey, ctx, 0⟩ 0) 0
    else klDone ({ s with keys := mset s.keys slot (ctx, key) }.setMreg ⟨.ctxkey, ctx, 0⟩ (BitVec.ofNat 64 slot)) 0
  | (st, _) => klDone s st

/-- The message at KLADDR asks for an unload. -/
def asksUnload (s : State) : Bool := match keyMessage s with | (.ready, m) => natBit (recN m 6 1) 0 | _ => false

/-- Write 1 to KLGO (R421): a message that cannot be read is malformed, and one that stands behind a stack that is not ready is waited for. -/
def keyGo (s : State) : State :=
  match keyMessage s with
  | (.ready, m) => useMessage s m
  | (.bad, _) => klDone s 1
  | (.waits, _) => s.setMreg ⟨.klgo, 0, 0⟩ 1

/-- KEY_LOAD (R421). -/
def execKeyLoad (s : State) : Host.Outcome State Fault Refusal := .next (if asksUnload s then s else woke (keyGo s))
/-- KEY_UNLOAD (R421). -/
def execKeyUnload (s : State) : Host.Outcome State Fault Refusal := .next (if asksUnload s then woke (keyGo s) else s)

end Sys2Proof.Machine
end

