-- ==== Sys2Proof/Machine/Control.lean ====
section
/-! DEFINITION. The control group (spec/05 R116 to R138): branches, exits, masks, loops, barriers and the sticky flags. -/

namespace Sys2Proof.Machine

/-- The lane as it stands in a state. -/
def laneIn (s : State) (k : LaneId) (l : Lane) : Lane := (s.lane? k).getD l

/-! ### NOP and branches (R116, R118, R119) -/

/-- Entry of an instruction without operands (R116, R117). -/
def entryNone : Entry := {}

/-- The lane only goes on. -/
def laneSkip (_ : IWord) (k : LaneId) (l : Lane) (s : State) : LaneOut := .ok (s.setLane k (l.advance s))

/-- NOP (R116). -/
def execNop (w : IWord) (s : State) : Host.Outcome State Fault Refusal := .next (perLane entryNone laneSkip w s)

/-- The branch target of a displacement (R55). -/
def relTarget (s : State) (w : IWord) : Addr := nextPc s + w.x.signExtend 64

/-- The target of a branch is computed; the link, if any, is written after it was read (R119). -/
def branchTo (w : IWord) (k : LaneId) (l : Lane) (s : State) (target : Addr) : LaneOut :=
  match w.d with
  | .g r =>
    if l.regsFull [r, r + 1] then .ok (s.setLane k ((l.fillRegs r (partsOf 2 (nextPc s).toNat)).goto target)) else .wait
  | _ => .ok (s.setLane k (l.goto target))

/-- A branch by displacement. -/
def laneRel (w : IWord) (k : LaneId) (l : Lane) (s : State) : LaneOut := branchTo w k l s (relTarget s w)

/-- A branch to the address in pair(A). -/
def lanePair (w : IWord) (k : LaneId) (l : Lane) (s : State) : LaneOut :=
  match readSrc s k l w w.a w.wa .b64 with
  | .val s a => branchTo w k l s (BitVec.ofNat 64 a)
  | .wait => .wait
  | .trap t => .trap t

def entryBra : Entry := { xOk := fun _ => true }
def entryPair : Entry := { tOk := tIn [.b64], a := [.even] }
def entryCall : Entry := { tOk := tIn [.b64], d := [.even], xOk := fun _ => true }
def entryCallx : Entry := { tOk := tIn [.b64], d := [.even], a := [.even] }

/-- BRA (R119). -/
def execBra (w : IWord) (s : State) : Host.Outcome State Fault Refusal := .next (perLane entryBra laneRel w s)
/-- BRX (R119). -/
def execBrx (w : IWord) (s : State) : Host.Outcome State Fault Refusal := .next (perLane entryPair lanePair w s)
/-- CALL (R119). -/
def execCall (w : IWord) (s : State) : Host.Outcome State Fault Refusal := .next (perLane entryCall laneRel w s)
/-- CALLX (R119). -/
def execCallx (w : IWord) (s : State) : Host.Outcome State Fault Refusal := .next (perLane entryCallx lanePair w s)
/-- RET (R119). -/
def execRet (w : IWord) (s : State) : Host.Outcome State Fault Refusal := .next (perLane entryPair lanePair w s)

/-! ### Exits and masks (R120 to R126) -/

/-- The lanes of the bundle for which an instruction goes ahead, with what becomes of the others: an instruction whose lanes take effect
together runs its gate lane by lane first. -/
def activeLanes (e : Entry) (w : IWord) (s : State) : State × List LaneId :=
  let mark := fun (k : LaneId) (l : Lane) (s : State) => match gate e w k l s with
    | .go => LaneOut.ok s
    | .skip => .ok (s.setLane k (l.advance s))
    | .wait => .wait
    | .trap t => .trap t
    | .abort c => .abort s c 0
  let act := s.cur.lanes.filter (fun k => match s.lane? k with | some l => gate e w k l s == .go | none => false)
  (runLanes mark s, act)

/-- EXIT (R120): the active lanes exit, together, and trigger. -/
def execExit (w : IWord) (s : State) : Host.Outcome State Fault Refusal :=
  let (s, act) := activeLanes entryNone w s
  .next (exitLanes s act true)

/-- The active lanes go on at the next instruction. -/
def advanceAll (s : State) (ls : List LaneId) : State :=
  ls.foldl (fun s k => match s.lane? k with | some l => s.setLane k (l.advance s) | none => s) s

/-- The number of a mask operand. -/
def maskNo : Operand → Nat
  | .m n => n
  | _ => 0

/-- Change one mask of each warp with active lanes, then recheck it (R121, R123, R125). `f` gives the new mask from the warp and its
active lane indices. -/
def changeMask (s : State) (act : List LaneId) (m : Nat) (f : WarpId → Warp → List Nat → Word) : State :=
  let s := advanceAll s act
  (warpsOf act).foldl (fun s w =>
    match s.warp? w with
    | some x =>
      let lanes := (act.filter (fun k => LaneId.wid k == w)).map (·.lane)
      recheckWaits (s.setWarp w { x with masks := x.masks.set m (f w x lanes) }) w
    | none => s) s

def entryJoin : Entry := { d := [.m1] }
def entryWaitm : Entry := { a := [.m] }
def entryMset : Entry := { tOk := tIn [.b32], d := [.m1], b := [.g, .imm], xOk := xZero }
def entryMget : Entry := { tOk := tIn [.b32], d := [.g], a := [.m] }
def entryMand : Entry := { d := [.m1], a := [.m], b := [.m] }
def entryMnot : Entry := { d := [.m1], a := [.m] }

/-- JOIN (R121). -/
def execJoin (w : IWord) (s : State) : Host.Outcome State Fault Refusal :=
  let (s, act) := activeLanes entryJoin w s
  .next (changeMask s act (maskNo w.d) (fun _ x ls => x.masks.getD (maskNo w.d) 0#32 ||| maskOf ls))

/-- LEAVE (R121). -/
def execLeave (w : IWord) (s : State) : Host.Outcome State Fault Refusal :=
  let (s, act) := activeLanes entryJoin w s
  .next (changeMask s act (maskNo w.d) (fun _ x ls => x.masks.getD (maskNo w.d) 0#32 &&& ~~~(maskOf ls)))

/-- One lane at WAITM (R122): it parks, or raises MASK_MISMATCH. -/
def laneWaitm (w : IWord) (k : LaneId) (l : Lane) (s : State) : LaneOut :=
  match s.warp? (LaneId.wid k) with
  | some x =>
    if flg (x.masks.getD (maskNo w.a) 0#32) k.lane then .ok (s.setLane k { l with st := .waitm (maskNo w.a) (nextPc s) })
    else .trap (TrapInfo.plain .maskMismatch 0)
  | none => .wait

/-- WAITM (R122, R126). -/
def execWaitm (w : IWord) (s : State) : Host.Outcome State Fault Refusal :=
  let ws := warpsOf s.cur.lanes
  .next (ws.foldl recheckWaits (perLane entryWaitm laneWaitm w s))

/-- The source lane of a mask write: the lowest-index active lane of each warp (R123). -/
def lowestOf (act : List LaneId) (w : WarpId) : Option LaneId :=
  (act.filter (fun k => LaneId.wid k == w)).foldl (fun b k => match b with
    | some j => if k.lane < j.lane then some k else some j
    | none => some k) none

/-- One lane at MSET's source: ready, waiting, or trapping (R14). -/
def laneMsetSrc (w : IWord) (k : LaneId) (l : Lane) (s : State) : Rd := readSrc s k l w w.b w.wb .b32

/-- The lanes of the bundle whose source B can be read, and the state with the others waiting or trapped. -/
def activeWith (e : Entry) (rd : LaneId → Lane → State → Rd) (w : IWord) (s : State) : State × List LaneId :=
  let go := fun (k : LaneId) (l : Lane) (s : State) => match rd k l s with
    | .val _ _ => LaneOut.ok s
    | .wait => .wait
    | .trap t => .trap t
  let act := s.cur.lanes.filter (fun k => match s.lane? k with
    | some l => gate e w k l s == .go && (match rd k l s with | .val _ _ => true | _ => false)
    | none => false)
  (runLanes (gated e w go) s, act)

/-- MSET (R123). -/
def execMset (w : IWord) (s : State) : Host.Outcome State Fault Refusal :=
  let (s, act) := activeWith entryMset (laneMsetSrc w) w s
  .next (changeMask s act (maskNo w.d) (fun v x _ =>
    match lowestOf act v with
    | some k =>
      (match s.lane? k with
       | some l => (match readSrc s k l w w.b false .b32 with | .val _ b => BitVec.ofNat 32 b &&& x.masks.getD 0 0#32 | _ => 0#32)
       | none => 0#32)
    | none => 0#32))

/-- One lane at MGET (R124). -/
def laneMget (w : IWord) (k : LaneId) (_ : Lane) (s : State) : LaneOut :=
  match s.warp? (LaneId.wid k) with
  | some x => finish s k w .b32 (x.masks.getD (maskNo w.a) 0#32).toNat 0
  | none => .wait

/-- MGET (R124). -/
def execMget (w : IWord) (s : State) : Host.Outcome State Fault Refusal := .next (perLane entryMget laneMget w s)

/-- A mask operation (R123). -/
def maskOp (e : Entry) (f : Word → Word → Word) (w : IWord) (s : State) : State :=
  let (s, act) := activeLanes e w s
  changeMask s act (maskNo w.d) (fun _ x _ =>
    f (x.masks.getD (maskNo w.a) 0#32) (x.masks.getD (maskNo w.b) 0#32) &&& x.masks.getD 0 0#32)

/-- MAND (R123). -/
def execMand (w : IWord) (s : State) : Host.Outcome State Fault Refusal := .next (maskOp entryMand (fun a b => a &&& b) w s)
/-- MOR (R123). -/
def execMor (w : IWord) (s : State) : Host.Outcome State Fault Refusal := .next (maskOp entryMand (fun a b => a ||| b) w s)
/-- MNOT (R123). -/
def execMnot (w : IWord) (s : State) : Host.Outcome State Fault Refusal := .next (maskOp entryMnot (fun a _ => ~~~a) w s)

/-- YIELD (R127): the PC advances; the path moves in `endIssue`. -/
def execYield (w : IWord) (s : State) : Host.Outcome State Fault Refusal := .next (perLane entryNone laneSkip w s)

/-! ### Loops (R128 to R131) -/

/-- The number of a loop counter operand. -/
def lcNo : Operand → Nat
  | .lc n => n
  | _ => 0

/-- A loop trap (R129, R131). -/
def loopTrap (c : Cause) (n : Nat) : LaneOut := .trap (TrapInfo.plain c (BitVec.ofNat 32 n))

/-- A lane starts a loop of `n` passes whose body ends at `stop` (R129). -/
def startLoop (k : LaneId) (l : Lane) (s : State) (c : Nat) (stop : Addr) (n : Word) : LaneOut :=
  if n = 0#32 then .ok (s.setLane k (l.goto stop))
  else .ok (s.setLane k ((l.loopOn c (nextPc s) stop n).goto (nextPc s)))

/-- The record of a counter is active. -/
def loopAct (l : Lane) (c : Nat) : Bool := match l.loops[c]? with | some r => r.act | none => false

/-- One lane at LOOP (R129). -/
def laneLoop (w : IWord) (k : LaneId) (l : Lane) (s : State) : LaneOut :=
  let c := lcNo w.d
  if loopAct l c then loopTrap .loopNest c
  else if w.x.toInt ≤ 0 then loopTrap .loopRange c
  else
    match readSrc s k l w w.a w.wa .n32 with
    | .val s a => startLoop k l s c (relTarget s w) (if a = 2 ^ 32 - 1 then 0#32 else BitVec.ofNat 32 a)
    | .wait => .wait
    | .trap t => .trap t

/-- One lane at LOOPX (R129). -/
def laneLoopx (w : IWord) (k : LaneId) (l : Lane) (s : State) : LaneOut :=
  let c := lcNo w.d
  if loopAct l c then loopTrap .loopNest c
  else if fld w.x 15 0 = 0 then loopTrap .loopRange c
  else startLoop k l s c (nextPc s + BitVec.ofNat 64 (fld w.x 15 0)) (BitVec.ofNat 32 (fld w.x 31 16))

/-- One lane at LBRK (R131). -/
def laneLbrk (w : IWord) (k : LaneId) (l : Lane) (s : State) : LaneOut :=
  let c := lcNo w.d
  match l.loops[c]? with
  | some r => if r.act then .ok (s.setLane k ((l.loopOff c).goto r.stop)) else loopTrap .loopNest c
  | none => loopTrap .loopNest c

def entryLoop : Entry := { tOk := tIn [.n32], d := [.lc], a := [.g], xOk := fun _ => true }
def entryLoopx : Entry := { d := [.lc], xOk := fun _ => true }
def entryLbrk : Entry := { d := [.lc] }

/-- LOOP (R129). -/
def execLoop (w : IWord) (s : State) : Host.Outcome State Fault Refusal := .next (perLane entryLoop laneLoop w s)
/-- LOOPX (R129). -/
def execLoopx (w : IWord) (s : State) : Host.Outcome State Fault Refusal := .next (perLane entryLoopx laneLoopx w s)
/-- LBRK (R131). -/
def execLbrk (w : IWord) (s : State) : Host.Outcome State Fault Refusal := .next (perLane entryLbrk laneLbrk w s)

/-! ### Barriers (R134 to R137) -/

def entryBar : Entry := { tOk := tIn [.b32], b := [.g, .imm], xOk := xZero, sync := true }

/-- One lane at a barrier (R134): `gang` for BARN. -/
def laneBar (gang : Bool) (w : IWord) (k : LaneId) (l : Lane) (s : State) : LaneOut :=
  match readSrc s k l w w.b w.wb .b32 with
  | .val s b =>
    if (if gang then 4 else 8) ≤ b then .trap (TrapInfo.plain .barrierMismatch (BitVec.ofNat 32 (b % 8 + 8 * b2n gang + 16)))
    else .ok (s.setLane k { l with st := if gang then .barn b (nextPc s) else .barg b (nextPc s) })
  | .wait => .wait
  | .trap t => .trap t

/-- BARG (R134). -/
def execBarg (w : IWord) (s : State) : Host.Outcome State Fault Refusal :=
  .next (recheckBars (perLane entryBar (laneBar false) w s) s.cur.gang)
/-- BARN (R134). -/
def execBarn (w : IWord) (s : State) : Host.Outcome State Fault Refusal :=
  .next (recheckBars (perLane entryBar (laneBar true) w s) s.cur.gang)

/-! ### Sticky flags (R138) -/

def entryFe : Entry := { tOk := tIn [.b32], d := [.g, .z, .none], b := [.g, .imm], xOk := xZero }

/-- One lane at FESET or FECLR (R138). -/
def laneFe (f : BitVec 6 → BitVec 6 → BitVec 6) (w : IWord) (k : LaneId) (l : Lane) (s : State) : LaneOut :=
  match readSrc s k l w w.b w.wb .b32 with
  | .val s b =>
    (match finish s k w .b32 l.fflags.toNat 0 with
     | .ok t =>
       (match t.lane? k with
        | some m => .ok (t.setLane k { m with fflags := f l.fflags (BitVec.ofNat 6 b) })
        | none => .ok t)
     | o => o)
  | .wait => .wait
  | .trap t => .trap t

/-- FESET (R138). -/
def execFeset (w : IWord) (s : State) : Host.Outcome State Fault Refusal := .next (perLane entryFe (laneFe (fun a b => a ||| b)) w s)
/-- FECLR (R138). -/
def execFeclr (w : IWord) (s : State) : Host.Outcome State Fault Refusal := .next (perLane entryFe (laneFe (fun a b => a &&& ~~~b)) w s)

end Sys2Proof.Machine
end

