-- ==== Sys2Proof/Machine/Debug.lean ====
section
/-! DEFINITION. The debug group (spec/21 R391 to R404). -/

namespace Sys2Proof.Machine

/-! ### BKPT (R384, R390, R392) -/

def entryBkpt : Entry := { tOk := tIn [.b32], b := [.g, .imm], xOk := xZero }

/-- A debugger is attached to a context. -/
def attached (s : State) (ctx : Nat) : Bool := flg (s.mreg ⟨.dbgctl, ctx, 0⟩) 0

/-- BKPT in one lane: BREAKPOINT without a debugger, else the lane goes past it and is marked for the stop that follows. -/
def laneBkpt (w : IWord) (k : LaneId) (l : Lane) (s : State) : LaneOut :=
  withSrcs s k l w .none .b32 .none (fun s _ b _ =>
    if attached s (laneCtx s k) then .ok (s.setLane k { (l.advance s) with stopped := true })
    else .trap (TrapInfo.plain .breakpoint (BitVec.ofNat 32 (b % 256))))

/-- The BKPT code of a lane in the state in which it issued. -/
def bkptCode (w : IWord) (s : State) (k : LaneId) : Nat :=
  match s.lane? k with
  | some l => (match readSrc s k l w w.b w.wb .b32 with | .val _ b => b % 256 | _ => 0)
  | none => 0

/-- The lanes that BKPT has just stopped get their record, one per warp and PC with the code of its lowest lane, and the rest of their
group stops under R385. -/
def bkptStop (w : IWord) (s0 s : State) : State :=
  let hit := s0.cur.lanes.filter (fun k => match s0.lane? k, s.lane? k with | some a, some b => !a.stopped && b.stopped | _, _ => false)
  match hit with
  | [] => s
  | k0 :: _ =>
    let s := hit.foldl (fun s k => match s.lane? k with | some l => s.setLane k { l with stopped := false } | none => s) s
    let s := (warpsOf hit).foldl (fun s v =>
      let here := hit.filter (fun k => LaneId.wid k == v)
      let pcs := (here.filterMap (fun k => (s.lane? k).map (fun l => l.pc))).firsts
      pcs.foldl (fun s pc =>
        let at_ := here.filter (fun k => match s.lane? k with | some l => l.pc == pc | none => false)
        stopLanes s at_ .breakpoint 0 (bkptCode w s0 (at_.headD k0)) (some s0.cur.pc)) s) s
    stopRest s (LaneId.grp k0)

/-- BKPT (R384, R390, R392). -/
def execBkpt (w : IWord) (s : State) : Host.Outcome State Fault Refusal := .next (bkptStop w s (perLane entryBkpt laneBkpt w s))

/-! ### WATCH and UNWATCH (R393, R404) -/

def entryWatch : Entry :=
  { a := [.g], b := [.g], more := fun n w => match w.a with | .g r => decide (r < n) && (flg w.x 4 || r % 2 == 0) | _ => false
    xOk := fun w => fld w.x 31 5 == 0 }
def entryUnwatch : Entry := { xOk := fun w => fld w.x 31 4 == 0 }

/-- WATCH and UNWATCH are closed to a lane outside the handler while UW is 0 (R393, R404). -/
def watchClosed (s : State) (k : LaneId) (l : Lane) : Bool := !l.inHandler && !flg (s.mreg ⟨.dbgctl, laneCtx s k, 0⟩) 2

/-- Set a watched region of a context: a base, a length, and the scratchpad that it lies in with its first byte there. -/
def setRegion (s : State) (ctx n base len : Nat) (spad : Option (GroupId × Nat)) : State :=
  let s := (s.setMreg ⟨.wrbase, ctx, n⟩ (BitVec.ofNat 64 base)).setMreg ⟨.wrlen, ctx, n⟩ (BitVec.ofNat 64 len)
  { s with spWatch := match spad with | some p => mset s.spWatch (ctx, n) p | none => mdel s.spWatch (ctx, n) }

/-- WATCH (R393). -/
def laneWatch (w : IWord) (k : LaneId) (l : Lane) (s : State) : LaneOut :=
  if watchClosed s k l then .trap (TrapInfo.plain .privileged 0)
  else
    let spad := flg w.x 4
    withSrcs s k l w (if spad then .b32 else .b64) .b32 .none (fun s a b _ =>
      let ctx := laneCtx s k
      let n := fld w.x 3 0
      if b = 0 then goOn (setRegion s ctx n 0 0 none) k
      else if spad then
        match spadResolve s (LaneId.grp k) a b with
        | some p => goOn (setRegion s ctx n a b (some p)) k
        | none => .trap (accTrap .spadBounds (BitVec.ofNat 64 a) (accInfo w.d.code .spad false 1 false))
      else
        let va : Addr := BitVec.ofNat 64 a
        let last : Addr := BitVec.ofNat 64 (a + (b - 1))
        if !canonical va || !canonical last then .trap (accTrap .noncanonical va (accInfo w.d.code .flat false 1 false))
        else if inPrivate va || inPrivate last then .trap (accTrap .permission va (accInfo w.d.code .priv false 1 false))
        else goOn (setRegion s ctx n a b none) k)

/-- UNWATCH (R393). -/
def laneUnwatch (w : IWord) (k : LaneId) (l : Lane) (s : State) : LaneOut :=
  if watchClosed s k l then .trap (TrapInfo.plain .privileged 0)
  else goOn (setRegion s (laneCtx s k) (fld w.x 3 0) 0 0 none) k

/-- WATCH (R393). -/
def execWatch (w : IWord) (s : State) : Host.Outcome State Fault Refusal := .next (perLane entryWatch laneWatch w s)
/-- UNWATCH (R393). -/
def execUnwatch (w : IWord) (s : State) : Host.Outcome State Fault Refusal := .next (perLane entryUnwatch laneUnwatch w s)

/-! ### CNTR, CNTRST and TMARK (R400, R401) -/

def entryCntr : Entry := { tOk := tIn [.b64], d := [.even], b := [.g, .imm], xOk := xZero }

/-- A counter of a core's bank for a context (R399, R400). -/
def lcbRead (s : State) (core ctx bin cnt : Nat) : Nat :=
  if 64 < bin ∨ 6 < cnt ∨ (cnt = 6 ∧ bin ≠ 64) then 0 else mget (s.core core).lcb (ctx, bin, cnt) 0

/-- CNTR (R400). -/
def laneCntr (w : IWord) (k : LaneId) (l : Lane) (s : State) : LaneOut :=
  withSrcs s k l w .none .b32 .none (fun s _ b _ =>
    finish s k w .b64 (lcbRead s (laneCore s k) (laneCtx s k) (b / 8 % 128) (b % 8)) 0)

/-- CNTRST (R400). -/
def laneCntrst (_ : IWord) (k : LaneId) (_ : Lane) (s : State) : LaneOut :=
  let c := s.core (laneCore s k)
  goOn (s.setCore (laneCore s k) { c with lcb := c.lcb.filter (fun p => p.1.1 != laneCtx s k) }) k

def entryTmark : Entry := { tOk := tIn [.b32], b := [.g, .imm], xOk := xZero }

/-- TMARK (R401, R402). -/
def laneTmark (w : IWord) (k : LaneId) (l : Lane) (s : State) : LaneOut :=
  withSrcs s k l w .none .b32 .none (fun s _ b _ =>
    let ctx := laneCtx s k
    let core := laneCore s k
    let gi := match s.gang? k.gang with | some g => g.index | none => 0
    let cs : List RField := (List.range 7).map (fun i => (0xA8 + 8 * i, 8, lcbRead s core ctx 64 i))
    if !flg (s.mreg ⟨.dbgctl, ctx, 0⟩) 3 then goOn s k
    else
      goOn (emitRing s (dieOf core) (.trace (dieOf core)) 0x52 ctx
        ([(0x90, 8, s.cur.pc.toNat), (0x98, 4, b), (0x9C, 1, ctx), (0xA0, 4, gi), (0xA4, 1, k.group), (0xA5, 1, k.warp), (0xA6, 1, k.lane)] ++ cs)
        [(0x90, 12), (0xA0, 64)] 0xE0) k)

/-- CNTR (R400). -/
def execCntr (w : IWord) (s : State) : Host.Outcome State Fault Refusal := .next (perLane entryCntr laneCntr w s)
/-- CNTRST (R400). -/
def execCntrst (w : IWord) (s : State) : Host.Outcome State Fault Refusal := .next (perLane {} laneCntrst w s)
/-- TMARK (R401). -/
def execTmark (w : IWord) (s : State) : Host.Outcome State Fault Refusal := .next (perLane entryTmark laneTmark w s)

end Sys2Proof.Machine
end

