-- ==== Sys2Proof/Machine/Memory.lean ====
section
/-! DEFINITION. The memory group and the speculation-and-queue group (spec/08 R183 to R212): LD, ST, LDS, STS, LDC, PREF, FENCE, TRY,
COMMIT, ABORT, TSTAT, QCFG, QLEN and QRST. -/

namespace Sys2Proof.Machine

/-! ### Flat memory (R186 to R191, R205) -/

def loadTypes : List Ty := [.b8, .b16, .b32, .b64, .b128, .i8, .i16]
def storeTypes : List Ty := [.b8, .b16, .b32, .b64, .b128]

def entryLd : Entry := { tOk := tIn loadTypes, d := [.gT, .z], a := [.even], xOk := xMem [0, 1, 4] true true true }
def entrySt : Entry := { tOk := tIn storeTypes, a := [.even], b := [.gT, .q, .z, .absent, .imm], xOk := xMem [0, 2, 4] true true true }

/-- A flat load in a try whose bytes all stand in the lane's store buffer is served from it and goes to no memory (R205): where it lies. Its address
is translated as that of any load. -/
def bufferHit (s : State) (k : LaneId) (l : Lane) (sp : Space) (va : Addr) (n : Nat) : Option (State × Nat) :=
  match l.spec, translate s (laneDie s k) (laneCtx s k) (privAddr s k l va) .load with
  | some t, (u, .leaf e level) =>
    if xfOf e ≠ 0 then none
    else
      match locate u (leafPa e level (privAddr s k l va)) with
      | some (loc, _) => if t.holds sp 0 loc n then some (u, loc) else none
      | none => none
  | _, _ => none

/-- A load's bytes, seen through the lane's open try, are on their way to D, and the line is tracked (R205). -/
def loaded (w : IWord) (k : LaneId) (l : Lane) (s : State) (va : Addr) (sp : Space) (loc : Nat) (bs : List Byte) (remote : Bool) : LaneOut :=
  let dst := destRegs w.d w.t
  match tryLoad l sp 0 loc bs with
  | none => .abort s 3 0
  | some (l, bs) =>
    let p := { pendOf s .load dst (some (loadVals w.t bs)) with addr := va, info := accInfo w.d.code sp false (tyBytes w.t) false, remote := remote }
    goOn (if dst.isEmpty && !p.remote then s.setLane k l else addPend (s.setLane k l) k p) k

/-- A flat load of `n` bytes at `va` into D (R188 to R190); `k` is the lane, its sources read. -/
def flatLoad (w : IWord) (k : LaneId) (l : Lane) (s : State) (va : Addr) : LaneOut :=
  let n := tyBytes w.t
  let sp := spaceOf va
  let info := accInfo w.d.code sp false n false
  let dst := destRegs w.d w.t
  match preFault s k l va n with
  | some c => memFault l s (accTrap c va info)
  | none =>
    match bufferHit s k l sp va n with
    | some (s, loc) => loaded w k l s va sp loc (List.replicate n 0#8) false
    | none =>
      match vread s (laneDie s k) (laneCtx s k) (privAddr s k l va) n .load with
      | (s, .bytes bs loc home) => loaded w k l s va sp loc bs (isRemote s home)
      | (s, .fault c level mal) => transFault s k l va info 0 dst c level mal
      | (s, .failed f) => failLater s k l .load dst va info f
      | (_, _) => .wait

/-- LD (R188): LD.sc follows FENCE.sc (spec/12 R245). -/
def laneLd (w : IWord) (k : LaneId) (l : Lane) (s : State) : LaneOut :=
  match readSrc s k l w w.a w.wa .b64 with
  | .wait => .wait
  | .trap t => .trap t
  | .val s a =>
    if !(l.quiet && destReady s k l w w.t) then .wait
    else if ordOf w = 4 then
      let s := fenceSc s (scpOf w)
      match s.lane? k with
      | some l => flatLoad w k l s (flatAddr w a)
      | none => .wait
    else flatLoad w k l s (flatAddr w a)

/-- A flat store of a value (R188 to R190); one that travels to another module may still fail there (spec/10 R216). A store to the private window is
no flat write (spec/12 R239). -/
def flatStore (w : IWord) (k : LaneId) (l : Lane) (s : State) (va : Addr) (v : Nat) : LaneOut :=
  let n := tyBytes w.t
  let sp := spaceOf va
  let info := accInfo w.b.code sp true n false
  let bs := bytesLE n v
  match preFault s k l va n with
  | some c => memFault l s (accTrap c va info)
  | none =>
    match vplace s (laneDie s k) (laneCtx s k) (privAddr s k l va) .store with
    | (s, .place loc home) =>
      (match l.spec with
       | some t =>
         (match tryStore t sp 0 loc va.toNat bs with
          | .error c => .abort s c 0
          | .ok t => goOn (s.setLane k { l with spec := some t }) k)
       | none =>
         let cells := bs.zipIdx.map (fun p => (loc + p.2, p.1))
         let s' := if sp = .priv then privWrite s cells
                   else flatWrite s (laneDie s k) cells (laneTag s k 0 ((List.range n).map (fun i => va.toNat + i)))
         let p := { pendOf s .store [] (some []) with addr := va, info := info, remote := true }
         goOn (if isRemote s home then addPend s' k p else s') k)
    | (s, .fault c level mal) => transFault s k l va info 1 [] c level mal
    | (s, .failed f) => failLater s k l .store [] va info f
    | (_, _) => .wait

/-- ST (R188): ST.sc is followed by FENCE.sc (spec/12 R245). -/
def laneSt (w : IWord) (k : LaneId) (l : Lane) (s : State) : LaneOut :=
  match queueTrap s k w with
  | some t => .trap t
  | none => withSrcs s k l w .b64 w.t .none (fun s a b _ =>
      if !l.quiet then .wait
      else
        match flatStore w k l s (flatAddr w a) b with
        | .ok s => .ok (if ordOf w = 4 then fenceSc s (scpOf w) else s)
        | o => o)

/-- LD (R188). -/
def execLd (w : IWord) (s : State) : Host.Outcome State Fault Refusal := .next (perLane entryLd laneLd w s)
/-- ST (R188). -/
def execSt (w : IWord) (s : State) : Host.Outcome State Fault Refusal := .next (perLane entrySt laneSt w s)

/-! ### Scratchpad (R194 to R196) -/

def entryLds : Entry := { tOk := tIn loadTypes, d := [.gT, .z], a := [.g, .z], xOk := xMem [0] false false true }
def entrySts : Entry := { tOk := tIn storeTypes, a := [.g, .z], b := [.gT, .q, .z, .absent, .imm], xOk := xMem [0] false false true }

/-- Where a scratchpad access goes, or the cause it raises (R194, R195; spec/13 R270). -/
def spadPlace (s : State) (k : LaneId) (o n : Nat) : Except Cause (GroupId × Nat) :=
  if o % n ≠ 0 then .error .misaligned
  else
    match spadResolve s (LaneId.grp k) o n with
    | none => .error .spadBounds
    | some (g, b) => if roadSpad s (laneDie s k) (laneCtx s k) g b n then .error .roadworks else .ok (g, b)

/-- LDS (R194). For a scratchpad fault R195 names no xinfo: it has the fields of R191, REG, SPC 1, ST and SZ, the model's choice (log 44). -/
def laneLds (w : IWord) (k : LaneId) (l : Lane) (s : State) : LaneOut :=
  match readSrc s k l w w.a w.wa .b32 with
  | .wait => .wait
  | .trap t => .trap t
  | .val s a =>
    if !(l.acquired && destReady s k l w w.t) then .wait
    else
      let n := tyBytes w.t
      let o := spadOff w a
      match spadPlace s k o n with
      | .error c => memFault l s (accTrap c (BitVec.ofNat 64 o) (accInfo w.d.code .spad false n false))
      | .ok (g, b) =>
        match tryLoad l .spad g.group b (spadRead s g b n) with
        | none => .abort s 3 0
        | some (l, bs) =>
          let dst := destRegs w.d w.t
          goOn (if dst.isEmpty then s.setLane k l else addPend (s.setLane k l) k (pendOf s .lds dst (some (loadVals w.t bs)))) k

/-- STS (R194). -/
def laneSts (w : IWord) (k : LaneId) (l : Lane) (s : State) : LaneOut :=
  match queueTrap s k w with
  | some t => .trap t
  | none => withSrcs s k l w .b32 w.t .none (fun s a v _ =>
      let n := tyBytes w.t
      let o := spadOff w a
      if !l.acquired then .wait
      else match spadPlace s k o n with
      | .error c => memFault l s (accTrap c (BitVec.ofNat 64 o) (accInfo w.b.code .spad true n false))
      | .ok (g, b) =>
        match l.spec with
        | some t =>
          (match tryStore t .spad g.group b b (bytesLE n v) with
           | .error c => .abort s c 0
           | .ok t => goOn (s.setLane k { l with spec := some t }) k)
        | none => goOn (spadWrite s g b (bytesLE n v) (laneTag s k 0 [])) k)

/-- LDS (R194). -/
def execLds (w : IWord) (s : State) : Host.Outcome State Fault Refusal := .next (perLane entryLds laneLds w s)
/-- STS (R194). -/
def execSts (w : IWord) (s : State) : Host.Outcome State Fault Refusal := .next (perLane entrySts laneSts w s)

/-! ### The constant window (R197) -/

/-- LDC (R197). xaddr of CONST_BOUNDS and MISALIGNED is the offset in the window: the model's choice, since R197 gives CBASE + o for translation and
delivery faults alone (log 37). -/
def laneLdc (w : IWord) (k : LaneId) (l : Lane) (s : State) : LaneOut :=
  match readSrc s k l w w.a w.wa .b32 with
  | .wait => .wait
  | .trap t => .trap t
  | .val s a =>
    if !destReady s k l w w.t then .wait
    else
      let n := tyBytes w.t
      let o := spadOff w a
      let (base, size) := match s.grid? (gangGrid s k.gang) with | some g => (g.cbase, g.csize) | none => (0, 0)
      let info := accInfo w.d.code .const false n false
      let dst := destRegs w.d w.t
      if size < o + n then memFault l s (accTrap .constBounds (BitVec.ofNat 64 o) info)
      else if o % n ≠ 0 then memFault l s (accTrap .misaligned (BitVec.ofNat 64 o) info)
      else
        let va : Addr := BitVec.ofNat 64 (base + o)
        match vread s (laneDie s k) (laneCtx s k) va n .load with
        | (s, .bytes bs _ home) =>
          let p := { pendOf s .ldc dst (some (loadVals w.t bs)) with addr := va, info := info, remote := isRemote s home }
          goOn (if dst.isEmpty && !p.remote then s else addPend s k p) k
        | (s, .fault c level mal) => transFault s k l va info 0 dst c level mal
        | (s, .failed f) => failLater s k l .ldc dst va info f
        | (_, _) => .wait

/-- LDC (R197). -/
def execLdc (w : IWord) (s : State) : Host.Outcome State Fault Refusal := .next (perLane entryLds laneLdc w s)

/-! ### PREF and FENCE (R192, R193) -/

def entryPref : Entry := { a := [.even], xOk := xMem [0] false true true }
def entryFence : Entry := { xOk := xMem [1, 2, 3, 4] true false false }

/-- PREF (R193): no result, no wait, no fault. -/
def execPref (w : IWord) (s : State) : Host.Outcome State Fault Refusal := .next (perLane entryPref laneStep w s)
where
  laneStep (_ : IWord) (k : LaneId) (_ : Lane) (s : State) : LaneOut := goOn s k

/-- FENCE (R192; spec/12 R245, R246): the lane's accesses are performed in program order at issue, so that only its Square and set
operations are waited for, and only `.sc` orders more. -/
def laneFence (w : IWord) (k : LaneId) (l : Lane) (s : State) : LaneOut :=
  if !l.quiet then .wait else goOn (if ordOf w = 4 then fenceSc s (scpOf w) else s) k

/-- FENCE (R192). -/
def execFence (w : IWord) (s : State) : Host.Outcome State Fault Refusal := .next (perLane entryFence laneFence w s)

/-! ### Speculation (R204 to R211) -/

/-- The first register and the length of a TRY's range (R204). -/
def tryRange (w : IWord) : Nat × Nat := (match w.a with | .g r => r | _ => 0, fld w.x 6 0 + 1)

def entryTry : Entry :=
  { a := [.g], more := fun n w => decide ((tryRange w).1 + (tryRange w).2 ≤ n), xOk := fun w => fld w.x 15 7 == 0 }
def entryCommit : Entry := {}
def entryAbort : Entry := { tOk := tIn [.b32], b := [.g, .imm], xOk := xZero }
def entryTstat : Entry := { tOk := tIn [.b32], d := [.g] }

/-- A lane's bits in m0 to m11. -/
def maskBits (s : State) (k : LaneId) : List Bool :=
  match s.warp? (LaneId.wid k) with | some x => x.masks.map (fun m => flg m k.lane) | none => []

/-- TRY (R204): the outermost waits until every register of its range is full, one that a failed delivery left empty too. -/
def laneTry (w : IWord) (k : LaneId) (l : Lane) (s : State) : LaneOut :=
  match l.spec with
  | some t =>
    if t.depth = 4 then .trap (TrapInfo.plain .specIllegal 0)
    else goOn (s.setLane k { l with spec := some { t with depth := t.depth + 1 } }) k
  | none =>
    let (base, n) := tryRange w
    let rs := (List.range n).map (base + ·)
    if !rs.all (fun r => (l.reg r).full) then .wait
    else
      let t : Try :=
        { depth := 1, base := base, regs := rs.map (fun r => (l.reg r).val), masks := maskBits s k, loops := l.loops, lcs := l.lc,
          fflags := l.fflags, target := nextPc s + BitVec.ofNat 64 (wrapInt 64 (sext 16 (fld w.x 31 16))), at_ := s.cur.pc, stores := [],
          lines := [], conflict := false }
      goOn (s.setLane k { l with spec := some t, tsCode := 0, tsUser := 0 }) k

/-- A store of a COMMIT that its memory fails, or that travels to another module, is a delivery that fails, or may fail (R190; spec/10 R216). Its
entry is its access (log 21). -/
def pendStore (s : State) (k : LaneId) (e : StoreEnt) (bad : Option Cause) : State :=
  let far := isRemote s (homeOfLoc s (16 * e.block))
  if bad.isNone && !far then s
  else
    addPend s k { pendOf s .store [] (if bad.isSome then none else some []) with
      addr := BitVec.ofNat 64 e.va, info := accInfo 0xFF e.space true 16 bad.isSome, remote := far, fail := bad.map FailInfo.plain }

/-- How the memory of an entry of the store buffer fails it. -/
def StoreEnt.error (e : StoreEnt) (s : State) : Option Cause := if e.space = .spad then none else memError s (16 * e.block) 16 true

/-- Apply a store buffer as one causal event (R209; spec/12 R250): its flat bytes as one write, its private bytes, its scratchpad bytes with
it; the entries that their memory fails are not written (R190). -/
def applyStores (s : State) (k : LaneId) (es : List StoreEnt) : State :=
  let good := es.filter (fun e => (e.error s).isNone)
  let cells := fun (sp : Space) => (good.filter (fun e => decide (e.space = sp))).flatMap (fun e => e.bytes.map (fun p => (16 * e.block + p.1, p.2, e.va + p.1)))
  let priv := (cells .priv).map (fun c => (c.1, c.2.1))
  let t := flatWrite s (laneDie s k) ((cells .flat).map (fun c => (c.1, c.2.1))) (laneTag s k 5 ((cells .flat).map (fun c => c.2.2)))
  let t := if priv.isEmpty then t else privWrite t priv
  let t := (good.filter (fun e => decide (e.space = .spad))).foldl (fun t e =>
    spadCells t ⟨k.gang, e.grp⟩ (e.bytes.map (fun p => (16 * e.block + p.1, p.2))) (laneTag s k 5 [])) t
  (es.filter (fun e => decide (e.space ≠ .spad))).foldl (fun t e => pendStore t k e (e.error s)) t

/-- COMMIT (R209): writes on their way to the die are applied first, so that every conflict has been checked. -/
def laneCommit (_ : IWord) (k : LaneId) (l : Lane) (s : State) : LaneOut :=
  match l.spec with
  | none => .trap (TrapInfo.plain .specIllegal 0)
  | some t =>
    if 1 < t.depth then goOn (s.setLane k { l with spec := some { t with depth := t.depth - 1 } }) k
    else if !l.quiet then .wait
    else
      let s := drainTo s (laneDie s k)
      let hit := match s.lane? k with
        | some l => (match l.spec with | some t => t.conflict | none => false)
        | none => false
      if hit then .abort s 4 0
      else
        match s.lane? k with
        | some l => goOn (applyStores (s.setLane k { l with spec := none, pend := l.pend.map (fun p => { p with inTry := false }) }) k t.stores) k
        | none => .ok s

/-- ABORT (R210). -/
def laneAbort (w : IWord) (k : LaneId) (l : Lane) (s : State) : LaneOut :=
  if l.spec.isNone then .trap (TrapInfo.plain .specIllegal 0)
  else
    match readSrc s k l w w.b w.wb .b32 with
    | .wait => .wait
    | .trap t => .trap t
    | .val s b => .abort s 1 (BitVec.ofNat 8 b)

/-- TSTAT (R211): the value is fixed at its delivery. -/
def laneTstat (w : IWord) (k : LaneId) (l : Lane) (s : State) : LaneOut :=
  if !destReady s k l w .b32 then .wait else goOn (addPend s k (pendOf s .tstat (destRegs w.d .b32) none)) k

/-- TRY (R204). -/
def execTryOpen (w : IWord) (s : State) : Host.Outcome State Fault Refusal := .next (perLane entryTry laneTry w s)
/-- COMMIT (R209). -/
def execCommit (w : IWord) (s : State) : Host.Outcome State Fault Refusal := .next (perLane entryCommit laneCommit w s)
/-- ABORT (R210). -/
def execAbortTry (w : IWord) (s : State) : Host.Outcome State Fault Refusal := .next (perLane entryAbort laneAbort w s)
/-- TSTAT (R211). -/
def execTstat (w : IWord) (s : State) : Host.Outcome State Fault Refusal := .next (perLane entryTstat laneTstat w s)

/-! ### Queues (R199, R202): events of the scratchpad order (R196), which a Square operation with `.acq` precedes (spec/12 R246; spec/16 R314) -/

def entryQcfg : Entry := { d := [.q], xOk := fun w => fld w.x 31 16 != 0, sync := true, moves := false }
def entryQlen : Entry := { tOk := tIn [.b32], d := [.g], a := [.q, .port 13, .port 15], moves := false }
def entryQrst : Entry := { d := [.q], sync := true, moves := false }

/-- The number of a queue operand. -/
def queueNo : Operand → Nat
  | .q n => n
  | _ => 0

/-- QCFG (R199). -/
def laneQcfg (w : IWord) (k : LaneId) (l : Lane) (s : State) : LaneOut :=
  let g := LaneId.grp k
  let n := queueNo w.d
  let cap := fld w.x 31 16 + 1
  let base := fld w.x 15 0 * 64
  let size := match s.group? g with | some x => x.scratch | none => 0
  if size < base + 4 * cap then .trap (accTrap .spadBounds (BitVec.ofNat 64 base) (accInfo w.d.code .spad false 1 false))
  else if !l.acquired then .wait
  else
    let same := match queueOf s g n with | some q => q.base == base && q.cap == cap | none => false
    goOn (if same then s else setQueue s g n (some { base := base, cap := cap, head := 0, count := 0 })) k

/-- The entries that QLEN counts (R202). -/
def queueCount (s : State) (k : LaneId) (n : Nat) : Nat :=
  if n < 12 then (match queueOf s (LaneId.grp k) n with | some q => q.count | none => 0)
  else if n = 13 then (s.core (laneCore s k)).mx.mr.length
  else match s.warp? (LaneId.wid k) with | some x => x.cd.length | none => 0

/-- QLEN (R202). -/
def laneQlen (w : IWord) (k : LaneId) (l : Lane) (s : State) : LaneOut :=
  match queueTrap s k w with
  | some t => .trap t
  | none =>
    if !(l.acquired && destReady s k l w .b32) then .wait
    else goOn (addPend s k (pendOf s .qlen (destRegs w.d .b32) (some [BitVec.ofNat 32 (queueCount s k (queueNo w.a))]))) k

/-- QRST (R202). -/
def laneQrst (w : IWord) (k : LaneId) (l : Lane) (s : State) : LaneOut :=
  match queueTrap s k w with
  | some t => .trap t
  | none =>
    if !l.acquired then .wait else
    let g := LaneId.grp k
    goOn (match queueOf s g (queueNo w.d) with
      | some q => setQueue s g (queueNo w.d) (some { q with head := 0, count := 0 })
      | none => s) k

/-- QCFG (R199). -/
def execQcfg (w : IWord) (s : State) : Host.Outcome State Fault Refusal := .next (perLane entryQcfg laneQcfg w s)
/-- QLEN (R202). -/
def execQlen (w : IWord) (s : State) : Host.Outcome State Fault Refusal := .next (perLane entryQlen laneQlen w s)
/-- QRST (R202). -/
def execQrst (w : IWord) (s : State) : Host.Outcome State Fault Refusal := .next (perLane entryQrst laneQrst w s)

end Sys2Proof.Machine
end

