-- ==== Sys2Proof/Machine/System.lean ====
section
/-! DEFINITION. The system group (spec/20 R378 to R382) and fault words (spec/02 R39, R40). -/

namespace Sys2Proof.Machine

def clsGI : List Cls := [.g, .imm]

/-! ### TRAP and fault words -/

/-- The entry of TRAP (R378). -/
def entryTrap : Entry := { tOk := tIn [.b32], b := clsGI, xOk := xZero }
/-- TRAP (R379). -/
def laneTrap (w : IWord) (k : LaneId) (l : Lane) (s : State) : LaneOut :=
  withSrcs s k l w .none .b32 .none (fun _ _ b _ => .trap (TrapInfo.plain .softTrap (BitVec.ofNat 32 (b % 256))))
/-- TRAP (R379). -/
def execTrap (w : IWord) (s : State) : Host.Outcome State Fault Refusal := .next (perLane entryTrap laneTrap w s)

/-- What a fault word raises (spec/02 R39; spec/08 R433). -/
def wordFault (s : State) (cause : Cause) (off len : Nat) : TrapInfo :=
  let u := match mfind (s.core s.cur.core).icUnder (gangCtx s s.cur.gang, s.cur.pc) with
    | some u => u
    | none => (cause, 0xFF, false, 0)
  { cause := cause, xaddr := if cause = .fetchFault then s.cur.pc + BitVec.ofNat 64 off else s.cur.pc, xinfo := BitVec.ofNat 32 (off + 16 * len)
    perLane := none, level := u.2.1, malformed := u.2.2.1, attempts := u.2.2.2, under := u.1 }

/-- A FETCH_FAULT word leaves the instruction cache when it traps (spec/02 R40). -/
def dropWord (s : State) (cause : Cause) : State :=
  if cause = .fetchFault then
    let c := s.core s.cur.core
    let key := (gangCtx s s.cur.gang, s.cur.pc)
    s.setCore s.cur.core { c with icache := mdel c.icache key, icUnder := mdel c.icUnder key }
  else s

/-- A fault word: every lane of the bundle traps, whatever its guard; a conflict of an open try comes first (spec/02 R39; spec/08 R206). -/
def execFaultWord (cause : Cause) (off len : Nat) (s : State) : Host.Outcome State Fault Refusal :=
  let t := wordFault s cause off len
  .next (dropWord (runLanes (fun _ l s =>
    if l.inConflict then .abort s 4 0 else .trap t) s) cause)

/-! ### Return from an exception (R379) -/

def entryTret (mode : Nat) : Entry := { xOk := fun w => w.x == BitVec.ofNat 32 mode, priv := true }

/-- A cause that a fault word raises (spec/02 R38). -/
def fromFaultWord (c : Cause) : Bool := c == .illOpcode || c == .illEncoding || c == .fetchFault

/-- Where TRET MODE 0 and 1 go (R379; spec/02 R40). -/
def tretPc (h : Handler) (skip : Bool) : Addr :=
  if !skip then h.pc
  else if fromFaultWord h.orig then h.pc + BitVec.ofNat 64 (fld h.info 8 4)
  else h.pc + BitVec.ofNat 64 h.len

/-- One lane returns from the handler (R379, R375; spec/21 R390). -/
def laneTret (skip : Bool) (_ : IWord) (k : LaneId) (l : Lane) (s : State) : LaneOut :=
  match l.hx with
  | some h => .ok (clearSubs (s.setLane k (l.leaveHandler (tretPc h skip) (flg h.info 31) (if skip then [] else h.cmp))) (LaneId.wid k))
  | none => .wait

/-- TRET MODE 2: every lane of the group exits as under R371, its accesses parked for a missing page given up, and these exits trigger (R379, R382). -/
def laneTretEndg (_ : IWord) (k : LaneId) (_ : Lane) (s : State) : LaneOut :=
  .ok (exitLanes (forsakeLanes s (fun p => LaneId.grp p == LaneId.grp k)) ((gangLanes s k.gang).filter (fun p => LaneId.grp p == LaneId.grp k)) true)

/-- TRET MODE 3: the grid ends with ST 1 and the cause in xcause (R379). -/
def laneTretEndr (_ : IWord) (k : LaneId) (l : Lane) (s : State) : LaneOut :=
  .ok (endGrid s (gangGrid s k.gang) 1 (Cause.ofCode l.handler.cause.toNat))

/-- TRET MODE 0 (R379). -/
def execTret (w : IWord) (s : State) : Host.Outcome State Fault Refusal := .next (perLane (entryTret 0) (laneTret false) w s)
/-- TRET MODE 1 (R379). -/
def execTretSkip (w : IWord) (s : State) : Host.Outcome State Fault Refusal := .next (perLane (entryTret 1) (laneTret true) w s)
/-- TRET MODE 2 (R379): the first lane's turn ends the whole group; the others of the bundle have then exited. -/
def execTretEndg (w : IWord) (s : State) : Host.Outcome State Fault Refusal :=
  let went := fun (k : LaneId) (l : Lane) => l.st == .exited && (s.lane? k).any (fun m => m.st != .exited)
  .next (runLanes (fun k l t => if went k l then .ok t else gated (entryTret 2) w (laneTretEndg w) k l t) s)
/-- TRET MODE 3 (R379). -/
def execTretEndr (w : IWord) (s : State) : Host.Outcome State Fault Refusal := .next (perLane (entryTret 3) laneTretEndr w s)

/-! ### System registers (R380) -/

/-- X names a system register. -/
def xSreg (w : IWord) : Bool := fld w.x 31 8 == 0 && fld w.x 7 0 < 8

/-- The value of a system register (R380). -/
def sregRead (s : State) (k : LaneId) (l : Lane) (n : Nat) : Nat :=
  let c := laneCtx s k
  let g := s.group? (LaneId.grp k)
  match n with
  | 0 => (s.mreg ⟨.ctxctl, c, 0⟩).toNat
  | 1 => (s.mreg ⟨.wdog, c, 0⟩).toNat
  | 2 => (s.mreg ⟨.drainb, c, 0⟩).toNat
  | 3 => (s.mreg ⟨.vector, c, 0⟩).toNat
  | 4 => l.handler.len
  | 5 => l.handler.seq
  | 6 => (match g with | some x => x.issues | none => 0)
  | _ => (match g with | some x => x.expect | none => 0)

/-- A write of a system register; those marked RO ignore it (R380, R357). -/
def sregWrite (s : State) (k : LaneId) (n v : Nat) : State :=
  let c := laneCtx s k
  match n with
  | 0 => regStore s ⟨.ctxctl, c, 0⟩ v
  | 1 => regStore s ⟨.wdog, c, 0⟩ v
  | 2 => regStore s ⟨.drainb, c, 0⟩ v
  | 7 => (match s.group? (LaneId.grp k) with | some g => s.setGroup (LaneId.grp k) { g with expect := v } | none => s)
  | _ => s

def entryMfs : Entry := { tOk := tIn [.b32, .b64], d := [.gT], xOk := xSreg, priv := true }
def entryMts : Entry := { tOk := tIn [.b32, .b64], a := [.gT], xOk := xSreg, priv := true }

/-- MFS (R380). -/
def laneMfs (w : IWord) (k : LaneId) (l : Lane) (s : State) : LaneOut := finish s k w w.t (sregRead s k l (fld w.x 7 0)) 0
/-- MTS (R380). -/
def laneMts (w : IWord) (k : LaneId) (l : Lane) (s : State) : LaneOut :=
  withSrcs s k l w w.t .none .none (fun s a _ _ => goOn (sregWrite s k (fld w.x 7 0) a) k)
/-- MFS (R380). -/
def execMfs (w : IWord) (s : State) : Host.Outcome State Fault Refusal := .next (perLane entryMfs laneMfs w s)
/-- MTS (R380). -/
def execMts (w : IWord) (s : State) : Host.Outcome State Fault Refusal := .next (perLane entryMts laneMts w s)

/-! ### LNCH (R381) -/

def entryLnch : Entry := { tOk := tIn [.b32], d := [.g, .z], a := [.g], b := clsGI, xOk := xZero, sync := true }

/-- The faults of a ring access that no translation decides (R315, R381): its words are aligned to 8 bytes, and all `n` bytes of it are kept
from a registered range. -/
def ringFault (s : State) (k : LaneId) (va : Addr) (n : Nat) : Option Cause :=
  match sqFault s k va 8 with
  | some c => some c
  | none => if roadFlat s (laneDie s k) (laneCtx s k) va.toNat n then some .roadworks else none

/-- Where the 128 bytes of a record go: both of its lines must take a write; with the address of the one that does not (R381; spec/08 R190). -/
def placeRecord (s : State) (d ctx : Nat) (va : Addr) : State × VRes × Addr :=
  match vplace s d ctx va .square with
  | (s, .place loc home) =>
    (match vplace s d ctx (va + 64) .square with
     | (s, .place _ _) => (s, .place loc home, va)
     | (s, r) => (s, r, va + 64))
  | (s, r) => (s, r, va)

/-- The append at the Square that homes TAIL, once it is ready: T and H are read, and the record and the new TAIL are one flat write of that
die, or the queue is full (R381). The lane's die has then applied what the words that were read follow (spec/12 R241 item 3). -/
def lnchAppend (s : State) (k : LaneId) (w : IWord) (q : Nat) (bs : List Byte) : LaneOut :=
  let base : Addr := s.mreg ⟨.lqbase, q, 0⟩
  let n := 2 ^ fld (s.mreg ⟨.lqctl, q, 0⟩) 3 0
  let ctx := laneCtx s k
  let info := accInfo w.d.code .flat true 8 false
  match s.lane? k with
  | none => .ok s
  | some l =>
    match ringFault s k base 16 with
    | some x => memFault l s (accTrap x base info)
    | none =>
      match vplace s (laneDie s k) ctx base .square with
      | (s, .place loc home) =>
        let d := localDie s home
        if !squareUp s (homeSquare s home) then .wait else
        let s := drainTo s d
        let tail := ofBytesLE (viewRead s d loc 8)
        let head := ofBytesLE (viewRead s d (loc + 8) 8)
        if (tail + 2 ^ 64 - head) % 2 ^ 64 = n then finish (drainTo s (laneDie s k)) k w .b32 1 0
        else
          let rva := base + BitVec.ofNat 64 (0x80 + 128 * (tail % n))
          (match ringFault s k rva 128 with
           | some x => memFault l s (accTrap x rva info)
           | none =>
             match placeRecord s (laneDie s k) ctx rva with
             | (s, .place rloc _, _) =>
               let cells := bs.zipIdx.map (fun p => (rloc + p.2, p.1)) ++ (bytesLE 8 (tail + 1)).zipIdx.map (fun p => (loc + p.2, p.1))
               let vas := (List.range bs.length).map (fun i => rva.toNat + i) ++ (List.range 8).map (fun i => base.toNat + i)
               finish (drainTo (flatWrite s d cells (laneTag s k 3 vas)) (laneDie s k)) k w .b32 0 0
             | (s, .fault x level mal, va) => transFault s k l va info 3 [] x level mal
             | (s, .failed f, va) => failLater s k l .square [] va info f
             | _ => .wait)
      | (s, .fault x level mal) => transFault s k l base info 3 [] x level mal
      | (s, .failed f) => failLater s k l .square [] base info f
      | (_, _) => .wait

/-- LNCH (R381). -/
def laneLnch (w : IWord) (k : LaneId) (l : Lane) (s : State) : LaneOut :=
  withSrcs s k l w .b32 .b32 .none (fun s a b _ =>
    if !(l.quiet && destReady s k l w .b32) then .wait
    else
      let q := b % 64
      let info := accInfo w.d.code .spad false 128 false
      if a % 64 ≠ 0 then .trap (accTrap .misaligned (BitVec.ofNat 64 a) info)
      else
        match spadResolve s (LaneId.grp k) a 128 with
        | none => .trap (accTrap .spadBounds (BitVec.ofNat 64 a) info)
        | some (g, o) =>
          let ctl := s.mreg ⟨.lqctl, q, 0⟩
          if !flg ctl 15 ∨ fld ctl 13 8 ≠ laneCtx s k then .trap (TrapInfo.plain .launchFault (BitVec.ofNat 32 q))
          else lnchAppend s k w q (spadRead s g o 128))
/-- LNCH (R381). -/
def execLnch (w : IWord) (s : State) : Host.Outcome State Fault Refusal := .next (perLane entryLnch laneLnch w s)

/-! ### LTRIG and IDEM (R382, R367) -/

/-- LTRIG: it follows the Square and set operations that the lane has issued (R382; spec/12 R241, R252). -/
def laneLtrig (_ : IWord) (k : LaneId) (_ : Lane) (s : State) : LaneOut := if outstanding s k then .wait else goOn (trigger s k) k
/-- LTRIG (R382). -/
def execLtrig (w : IWord) (s : State) : Host.Outcome State Fault Refusal := .next (perLane {} laneLtrig w s)
/-- IDEM (R367, R382). -/
def execIdem (w : IWord) (s : State) : Host.Outcome State Fault Refusal :=
  .next (perLane {} (fun _ k _ s => goOn (clearIdem s (LaneId.grp k)) k) w s)

end Sys2Proof.Machine
end

