-- ==== Sys2Proof/Machine/Dispatch.lean ====
section
/-! DEFINITION. The dispatch: one arm for each row of the table of operations and events, each one direct call of its meaning. -/

namespace Sys2Proof.Machine

/-- The meaning of an instruction or event in a state. -/
def exec (i : Instr) (s : State) : Host.Outcome State Fault Refusal :=
  match i with
  | .nop w => Sys2Proof.Machine.execNop w s
  | .bra w => Sys2Proof.Machine.execBra w s
  | .brx w => Sys2Proof.Machine.execBrx w s
  | .call w => Sys2Proof.Machine.execCall w s
  | .callx w => Sys2Proof.Machine.execCallx w s
  | .ret w => Sys2Proof.Machine.execRet w s
  | .exit w => Sys2Proof.Machine.execExit w s
  | .join w => Sys2Proof.Machine.execJoin w s
  | .leave w => Sys2Proof.Machine.execLeave w s
  | .waitm w => Sys2Proof.Machine.execWaitm w s
  | .mset w => Sys2Proof.Machine.execMset w s
  | .mget w => Sys2Proof.Machine.execMget w s
  | .mand w => Sys2Proof.Machine.execMand w s
  | .mor w => Sys2Proof.Machine.execMor w s
  | .mnot w => Sys2Proof.Machine.execMnot w s
  | .yield w => Sys2Proof.Machine.execYield w s
  | .loop w => Sys2Proof.Machine.execLoop w s
  | .loopx w => Sys2Proof.Machine.execLoopx w s
  | .lbrk w => Sys2Proof.Machine.execLbrk w s
  | .barg w => Sys2Proof.Machine.execBarg w s
  | .barn w => Sys2Proof.Machine.execBarn w s
  | .feset w => Sys2Proof.Machine.execFeset w s
  | .feclr w => Sys2Proof.Machine.execFeclr w s
  | .mov w => Sys2Proof.Machine.execMov w s
  | .movi w => Sys2Proof.Machine.execMovi w s
  | .iadd w => Sys2Proof.Machine.execIadd w s
  | .isub w => Sys2Proof.Machine.execIsub w s
  | .ineg w => Sys2Proof.Machine.execIneg w s
  | .iabs w => Sys2Proof.Machine.execIabs w s
  | .imul w => Sys2Proof.Machine.execImul w s
  | .imulh w => Sys2Proof.Machine.execImulh w s
  | .imad w => Sys2Proof.Machine.execImad w s
  | .imadw w => Sys2Proof.Machine.execImadw w s
  | .idiv w => Sys2Proof.Machine.execIdiv w s
  | .irem w => Sys2Proof.Machine.execIrem w s
  | .imin w => Sys2Proof.Machine.execImin w s
  | .imax w => Sys2Proof.Machine.execImax w s
  | .iset w => Sys2Proof.Machine.execIset w s
  | .sel w => Sys2Proof.Machine.execSel w s
  | .and w => Sys2Proof.Machine.execAnd w s
  | .or w => Sys2Proof.Machine.execOr w s
  | .xor w => Sys2Proof.Machine.execXor w s
  | .not w => Sys2Proof.Machine.execNot w s
  | .shl w => Sys2Proof.Machine.execShl w s
  | .shr w => Sys2Proof.Machine.execShr w s
  | .sar w => Sys2Proof.Machine.execSar w s
  | .rot w => Sys2Proof.Machine.execRot w s
  | .bfx w => Sys2Proof.Machine.execBfx w s
  | .bfi w => Sys2Proof.Machine.execBfi w s
  | .popc w => Sys2Proof.Machine.execPopc w s
  | .clz w => Sys2Proof.Machine.execClz w s
  | .ctz w => Sys2Proof.Machine.execCtz w s
  | .brev w => Sys2Proof.Machine.execBrev w s
  | .prmb w => Sys2Proof.Machine.execPrmb w s
  | .lea w => Sys2Proof.Machine.execLea w s
  | .fadd w => Sys2Proof.Machine.execFadd w s
  | .fsub w => Sys2Proof.Machine.execFsub w s
  | .fmul w => Sys2Proof.Machine.execFmul w s
  | .ffma w => Sys2Proof.Machine.execFfma w s
  | .fmin w => Sys2Proof.Machine.execFmin w s
  | .fmax w => Sys2Proof.Machine.execFmax w s
  | .fabs w => Sys2Proof.Machine.execFabs w s
  | .fneg w => Sys2Proof.Machine.execFneg w s
  | .fset w => Sys2Proof.Machine.execFset w s
  | .fclass w => Sys2Proof.Machine.execFclass w s
  | .fdot2 w => Sys2Proof.Machine.execFdot2 w s
  | .hadd2 w => Sys2Proof.Machine.execHadd2 w s
  | .hmul2 w => Sys2Proof.Machine.execHmul2 w s
  | .hfma2 w => Sys2Proof.Machine.execHfma2 w s
  | .cvt w => Sys2Proof.Machine.execCvt w s
  | .qgrp w => Sys2Proof.Machine.execQgrp w s
  | .dqgrp w => Sys2Proof.Machine.execDqgrp w s
  | .amxrec w => Sys2Proof.Machine.execAmxrec w s
  | .amxget w => Sys2Proof.Machine.execAmxget w s
  | .bexp w => Sys2Proof.Machine.execBexp w s
  | .absent w => Sys2Proof.Machine.execAbsent w s
  | .absentMk w => Sys2Proof.Machine.execAbsentMk w s
  | .rcp w => Sys2Proof.Machine.execRcp w s
  | .rsq w => Sys2Proof.Machine.execRsq w s
  | .sqrt w => Sys2Proof.Machine.execSqrt w s
  | .exp2 w => Sys2Proof.Machine.execExp2 w s
  | .log2 w => Sys2Proof.Machine.execLog2 w s
  | .sinpi w => Sys2Proof.Machine.execSinpi w s
  | .cospi w => Sys2Proof.Machine.execCospi w s
  | .tanh w => Sys2Proof.Machine.execTanh w s
  | .padd w => Sys2Proof.Machine.execPadd w s
  | .psub w => Sys2Proof.Machine.execPsub w s
  | .pmin w => Sys2Proof.Machine.execPmin w s
  | .pmax w => Sys2Proof.Machine.execPmax w s
  | .pavg w => Sys2Proof.Machine.execPavg w s
  | .pabd w => Sys2Proof.Machine.execPabd w s
  | .psad w => Sys2Proof.Machine.execPsad w s
  | .pmad w => Sys2Proof.Machine.execPmad w s
  | .pshr w => Sys2Proof.Machine.execPshr w s
  | .ppack w => Sys2Proof.Machine.execPpack w s
  | .punpk w => Sys2Proof.Machine.execPunpk w s
  | .pclmp w => Sys2Proof.Machine.execPclmp w s
  | .shfi w => Sys2Proof.Machine.execShfi w s
  | .shfu w => Sys2Proof.Machine.execShfu w s
  | .shfd w => Sys2Proof.Machine.execShfd w s
  | .shfx w => Sys2Proof.Machine.execShfx w s
  | .bcst w => Sys2Proof.Machine.execBcst w s
  | .qswh w => Sys2Proof.Machine.execQswh w s
  | .qswv w => Sys2Proof.Machine.execQswv w s
  | .qswd w => Sys2Proof.Machine.execQswd w s
  | .qbcst w => Sys2Proof.Machine.execQbcst w s
  | .vany w => Sys2Proof.Machine.execVany w s
  | .vall w => Sys2Proof.Machine.execVall w s
  | .vbal w => Sys2Proof.Machine.execVbal w s
  | .scani w => Sys2Proof.Machine.execScani w s
  | .scane w => Sys2Proof.Machine.execScane w s
  | .redw w => Sys2Proof.Machine.execRedw w s
  | .matchLanes w => Sys2Proof.Machine.execMatchLanes w s
  | .elect w => Sys2Proof.Machine.execElect w s
  | .ld w => Sys2Proof.Machine.execLd w s
  | .st w => Sys2Proof.Machine.execSt w s
  | .lds w => Sys2Proof.Machine.execLds w s
  | .sts w => Sys2Proof.Machine.execSts w s
  | .ldc w => Sys2Proof.Machine.execLdc w s
  | .pref w => Sys2Proof.Machine.execPref w s
  | .fence w => Sys2Proof.Machine.execFence w s
  | .aadd w => Sys2Proof.Machine.execAadd w s
  | .amin w => Sys2Proof.Machine.execAmin w s
  | .amax w => Sys2Proof.Machine.execAmax w s
  | .aand w => Sys2Proof.Machine.execAand w s
  | .aor w => Sys2Proof.Machine.execAor w s
  | .axor w => Sys2Proof.Machine.execAxor w s
  | .axch w => Sys2Proof.Machine.execAxch w s
  | .acas w => Sys2Proof.Machine.execAcas w s
  | .aincb w => Sys2Proof.Machine.execAincb w s
  | .aincw w => Sys2Proof.Machine.execAincw w s
  | .adecz w => Sys2Proof.Machine.execAdecz w s
  | .aaddl w => Sys2Proof.Machine.execAaddl w s
  | .radd w => Sys2Proof.Machine.execRadd w s
  | .rmin w => Sys2Proof.Machine.execRmin w s
  | .rmax w => Sys2Proof.Machine.execRmax w s
  | .dqpush w => Sys2Proof.Machine.execDqpush w s
  | .dqpop w => Sys2Proof.Machine.execDqpop w s
  | .dqsteal w => Sys2Proof.Machine.execDqsteal w s
  | .marm w => Sys2Proof.Machine.execMarm w s
  | .mwait w => Sys2Proof.Machine.execMwait w s
  | .snew w => Sys2Proof.Machine.execSnew w s
  | .sfree w => Sys2Proof.Machine.execSfree w s
  | .sins w => Sys2Proof.Machine.execSins w s
  | .sdel w => Sys2Proof.Machine.execSdel w s
  | .shas w => Sys2Proof.Machine.execShas w s
  | .scard w => Sys2Proof.Machine.execScard w s
  | .suni w => Sys2Proof.Machine.execSuni w s
  | .sint w => Sys2Proof.Machine.execSint w s
  | .sdif w => Sys2Proof.Machine.execSdif w s
  | .scpy w => Sys2Proof.Machine.execScpy w s
  | .sclr w => Sys2Proof.Machine.execSclr w s
  | .snext w => Sys2Proof.Machine.execSnext w s
  | .srank w => Sys2Proof.Machine.execSrank w s
  | .sload w => Sys2Proof.Machine.execSload w s
  | .sstor w => Sys2Proof.Machine.execSstor w s
  | .scost w => Sys2Proof.Machine.execScost w s
  | .srep w => Sys2Proof.Machine.execSrep w s
  | .macq w => Sys2Proof.Machine.execMacq w s
  | .mrel w => Sys2Proof.Machine.execMrel w s
  | .mcfg w => Sys2Proof.Machine.execMcfg w s
  | .mwld w => Sys2Proof.Machine.execMwld w s
  | .mstr w => Sys2Proof.Machine.execMstr w s
  | .mspr w => Sys2Proof.Machine.execMspr w s
  | .mdrn w => Sys2Proof.Machine.execMdrn w s
  | .mzer w => Sys2Proof.Machine.execMzer w s
  | .mlda w => Sys2Proof.Machine.execMlda w s
  | .msta w => Sys2Proof.Machine.execMsta w s
  | .mcnt w => Sys2Proof.Machine.execMcnt w s
  | .msync w => Sys2Proof.Machine.execMsync w s
  | .mstat w => Sys2Proof.Machine.execMstat w s
  | .cpy w => Sys2Proof.Machine.execCpy w s
  | .cpyw w => Sys2Proof.Machine.execCpyw w s
  | .cpywClr w => Sys2Proof.Machine.execCpywClr w s
  | .cpyt w => Sys2Proof.Machine.execCpyt w s
  | .chwp w => Sys2Proof.Machine.execChwp w s
  | .swait w => Sys2Proof.Machine.execSwait w s
  | .swaitAll w => Sys2Proof.Machine.execSwaitAll w s
  | .iscfg w => Sys2Proof.Machine.execIscfg w s
  | .isgo w => Sys2Proof.Machine.execIsgo w s
  | .isstp w => Sys2Proof.Machine.execIsstp w s
  | .itdef w => Sys2Proof.Machine.execItdef w s
  | .sweep w => Sys2Proof.Machine.execSweep w s
  | .srd w => Sys2Proof.Machine.execSrd w s
  | .tryOpen w => Sys2Proof.Machine.execTryOpen w s
  | .commit w => Sys2Proof.Machine.execCommit w s
  | .abortTry w => Sys2Proof.Machine.execAbortTry w s
  | .tstat w => Sys2Proof.Machine.execTstat w s
  | .qcfg w => Sys2Proof.Machine.execQcfg w s
  | .qlen w => Sys2Proof.Machine.execQlen w s
  | .qrst w => Sys2Proof.Machine.execQrst w s
  | .trap w => Sys2Proof.Machine.execTrap w s
  | .tret w => Sys2Proof.Machine.execTret w s
  | .tretSkip w => Sys2Proof.Machine.execTretSkip w s
  | .tretEndg w => Sys2Proof.Machine.execTretEndg w s
  | .tretEndr w => Sys2Proof.Machine.execTretEndr w s
  | .mfs w => Sys2Proof.Machine.execMfs w s
  | .mts w => Sys2Proof.Machine.execMts w s
  | .lnch w => Sys2Proof.Machine.execLnch w s
  | .ltrig w => Sys2Proof.Machine.execLtrig w s
  | .idem w => Sys2Proof.Machine.execIdem w s
  | .bkpt w => Sys2Proof.Machine.execBkpt w s
  | .watch w => Sys2Proof.Machine.execWatch w s
  | .unwatch w => Sys2Proof.Machine.execUnwatch w s
  | .cntr w => Sys2Proof.Machine.execCntr w s
  | .cntrst w => Sys2Proof.Machine.execCntrst w s
  | .tmark w => Sys2Proof.Machine.execTmark w s
  | .faultWord cause offset len => Sys2Proof.Machine.execFaultWord cause offset len s
  | .instructionFill core ctx va => Sys2Proof.Machine.execInstructionFill core ctx va s
  | .overdue w => Sys2Proof.Machine.execOverdue w s
  | .pathTimerExpiry w => Sys2Proof.Machine.execPathTimerExpiry w s
  | .warpSwapOut out => Sys2Proof.Machine.execWarpSwapOut out s
  | .activeSetAging w => Sys2Proof.Machine.execActiveSetAging w s
  | .delivery l k => Sys2Proof.Machine.execDelivery l k s
  | .failedDelivery l k cause => Sys2Proof.Machine.execFailedDelivery l k cause s
  | .trapDelivery g => Sys2Proof.Machine.execTrapDelivery g s
  | .replay w => Sys2Proof.Machine.execReplay w s
  | .watchdog g => Sys2Proof.Machine.execWatchdog g s
  | .admissionGrant die => Sys2Proof.Machine.execAdmissionGrant die s
  | .admissionTimeout die k => Sys2Proof.Machine.execAdmissionTimeout die k s
  | .mwaitTimeout l => Sys2Proof.Machine.execMwaitTimeout l s
  | .writeApply die k => Sys2Proof.Machine.execWriteApply die k s
  | .squareOperation die => Sys2Proof.Machine.execSquareOperation die s
  | .setOperation die => Sys2Proof.Machine.execSetOperation die s
  | .cqCommand l => Sys2Proof.Machine.execCqCommand l s
  | .copyChunk core ticket chunk => Sys2Proof.Machine.execCopyChunk core ticket chunk s
  | .sweepRetire core ticket => Sys2Proof.Machine.execSweepRetire core ticket s
  | .indirectStreamPush core ticket => Sys2Proof.Machine.execIndirectStreamPush core ticket s
  | .streamCompletion core ticket => Sys2Proof.Machine.execStreamCompletion core ticket s
  | .cdEntryDelivery core => Sys2Proof.Machine.execCdEntryDelivery core s
  | .matrixCommand core => Sys2Proof.Machine.execMatrixCommand core s
  | .nvmeCompletion ctx binding cid => Sys2Proof.Machine.execNvmeCompletion ctx binding cid s
  | .nvmeTimeout core ticket => Sys2Proof.Machine.execNvmeTimeout core ticket s
  | .remoteTimeout l k => Sys2Proof.Machine.execRemoteTimeout l k s
  | .launchRecord q => Sys2Proof.Machine.execLaunchRecord q s
  | .gridReady q => Sys2Proof.Machine.execGridReady q s
  | .priorityAging q => Sys2Proof.Machine.execPriorityAging q s
  | .gangPlacement gang close => Sys2Proof.Machine.execGangPlacement gang close s
  | .gangRetire gang => Sys2Proof.Machine.execGangRetire gang s
  | .launchPreempt waiting victim => Sys2Proof.Machine.execLaunchPreempt waiting victim s
  | .drainDeadline gang => Sys2Proof.Machine.execDrainDeadline gang s
  | .save gang => Sys2Proof.Machine.execSave gang s
  | .preempt ctx => Sys2Proof.Machine.execPreempt ctx s
  | .kill ctx => Sys2Proof.Machine.execKill ctx s
  | .destroy ctx => Sys2Proof.Machine.execDestroy ctx s
  | .xinv die value => Sys2Proof.Machine.execXinv die value s
  | .xreplay die value => Sys2Proof.Machine.execXreplay die value s
  | .promote engine => Sys2Proof.Machine.execPromote engine s
  | .demote engine => Sys2Proof.Machine.execDemote engine s
  | .engineResetStream core => Sys2Proof.Machine.execEngineResetStream core s
  | .engineResetMatrix core => Sys2Proof.Machine.execEngineResetMatrix core s
  | .engineResetSquare die => Sys2Proof.Machine.execEngineResetSquare die s
  | .engineResetSkim engine => Sys2Proof.Machine.execEngineResetSkim engine s
  | .mrst => Sys2Proof.Machine.execMrst s
  | .pcieConventionalReset => Sys2Proof.Machine.execPcieConventionalReset s
  | .functionLevelReset => Sys2Proof.Machine.execFunctionLevelReset s
  | .modctlAbort ctx byHost => Sys2Proof.Machine.execModctlAbort ctx byHost s
  | .selfTest bit passed => Sys2Proof.Machine.execSelfTest bit passed s
  | .firmwareVerify result svn => Sys2Proof.Machine.execFirmwareVerify result svn s
  | .squareReady die value => Sys2Proof.Machine.execSquareReady die value s
  | .junctionAboveThot die => Sys2Proof.Machine.execJunctionAboveThot die s
  | .thermalHalt => Sys2Proof.Machine.execThermalHalt s
  | .machineCheck die unit => Sys2Proof.Machine.execMachineCheck die unit s
  | .attestationReport => Sys2Proof.Machine.execAttestationReport s
  | .identityCertificate => Sys2Proof.Machine.execIdentityCertificate s
  | .keyLoad => Sys2Proof.Machine.execKeyLoad s
  | .keyUnload => Sys2Proof.Machine.execKeyUnload s
  | .halt ctx => Sys2Proof.Machine.execHalt ctx s
  | .go ctx => Sys2Proof.Machine.execGo ctx s
  | .dbgstep ctx value => Sys2Proof.Machine.execDbgstep ctx value s
  | .dbgselRead ctx value => Sys2Proof.Machine.execDbgselRead ctx value s
  | .dbgselWrite ctx value => Sys2Proof.Machine.execDbgselWrite ctx value s
  | .dbgdump ctx value => Sys2Proof.Machine.execDbgdump ctx value s
  | .trdropRead die => Sys2Proof.Machine.execTrdropRead die s
  | .registerWrite r value => Sys2Proof.Machine.execRegisterWrite r value s
  | .junctionBelowThot die => Sys2Proof.Machine.execJunctionBelowThot die s
  | .spuriousWake l => Sys2Proof.Machine.execSpuriousWake l s
  | .fabricError l k => Sys2Proof.Machine.execFabricError l k s
  | .admresChange die units => Sys2Proof.Machine.execAdmresChange die units s
  | .routingTableUpdate module dsize signed => Sys2Proof.Machine.execRoutingTableUpdate module dsize signed s
  | .badcmd engine => Sys2Proof.Machine.execBadcmd engine s

end Sys2Proof.Machine
end

