-- ==== Sys2Proof/Machine/Sched.lean ====
section
/-! DEFINITION. An issue (spec/03 R64 to R69; spec/20 R367): who is ready, comparators and steps around an issue (spec/21 R384, R388, R390),
the lane-cycle record (spec/09 R214), and what the Crossing notes of it. -/

namespace Sys2Proof.Machine

/-- Apply a function to a next state. -/
def onNext (o : Host.Outcome State Fault Refusal) (f : State → State) : Host.Outcome State Fault Refusal :=
  match o with
  | .next s => .next (f s)
  | .fault r => .fault r
  | .refused r => .refused r

/-! ### Readiness (R64): the next instruction of a lane is tried by the lane alone, in a state that is then dropped -/

/-- The state in which a bundle's instruction executes. -/
def beginIssue (s : State) (b : Bundle) : State := { s with cur := b }

/-- The lane would not issue its next instruction now: it would wait, or its code cannot be read yet (spec/22 R410). -/
def wouldWait (s : State) (k : LaneId) (l : Lane) : Bool :=
  match fillCache s (laneCore s k) (laneCtx s k) l.pc with
  | (_, none) => true
  | (u, some f) =>
    let b : Bundle := { core := laneCore s k, part := 0, gang := k.gang, group := k.group, pc := l.pc, len := (filledInstr f).2, lanes := [k] }
    match exec (filledInstr f).1 (beginIssue { u with blocked := [] } b) with
    | .next t => t.blocked.contains k && t.lane? k == some l
    | _ => false

/-- The producers whose registers a lane waits for in short wait (R64). -/
def PKind.short : PKind → Bool
  | .lds | .ldc | .qlen | .tstat => true
  | _ => false

/-- The lane as the deliveries of its short producers would leave it. -/
def Lane.afterShort (l : Lane) : Lane :=
  let l' := (l.pend.filter (fun p => p.kind.short)).foldl (fun (l : Lane) p => p.dst.foldl (fun (l : Lane) r => l.setReg r (l.reg r).val) l) l
  { l' with pend := l.pend.filter (fun p => !p.kind.short) }

/-- A lane that waits is in short wait: it waits for nothing but registers of short producers (R64). One that waits for such a register and for
something else fits both rows of R64 and is in long wait: the model's choice (log 4). -/
def awaitsShort (s : State) (k : LaneId) (l : Lane) : Bool :=
  l.pend.any (fun p => p.kind.short) && !sqHeld s k && !gangWaits s k.gang && !wouldWait (s.setLane k l.afterShort) k l.afterShort

/-- The running lanes that are not ready (R64): those of a restored gang that waits for its tokens (spec/01 R30), those whose access is parked at a
Square, and those whose next instruction would wait. -/
def waitingLanes (s : State) : List (LaneId × Lane) :=
  s.lanes.filter (fun p => p.2.st == .run && !p.2.stopped &&
    (gangWaits s p.1.gang || (gangRuns s p.1.gang && (sqHeld s p.1 || wouldWait s p.1 p.2))))

/-- The parked lanes of a bundle would act at their collective now: it issues, aborts their tries, or turns some of them away (R79, R81). -/
def collActs (s : State) (b : Bundle) : Bool :=
  match fillCache s b.core (gangCtx s b.gang) b.pc with
  | (_, none) => false
  | (u, some f) =>
    match exec (filledInstr f).1 (beginIssue { u with blocked := [] } { b with len := (filledInstr f).2 }) with
    | .next t => b.lanes.any (fun k => t.lane? k != s.lane? k)
    | _ => false

/-- The bundles of the collectives that would issue, in the order of the warps (R77, R79). -/
def metBundles (s : State) : List Bundle :=
  s.warps.flatMap (fun p => if gangRuns s p.1.gang then (collBundles s p.1 p.2).filter (collActs s) else [])

/-- Find who waits, and how, as the state stands (R64). -/
def refresh (s : State) : State :=
  let ws := waitingLanes s
  { s with blocked := ws.map Prod.fst, shorts := (ws.filter (fun p => awaitsShort s p.1 p.2)).map Prod.fst
           met := (metBundles s).flatMap (fun b => b.lanes) }

/-! ### Comparators (spec/21 R384, R390) -/

/-- The lowest enabled comparator of a context that matches a PC, those of `but` apart (R384). -/
def comparator (s : State) (ctx : Nat) (pc : Addr) (but : List Nat) : Option Nat :=
  (List.range 8).find? (fun n => flg (s.mreg ⟨.dbgpcen, ctx, 0⟩) n && s.mreg ⟨.dbgpc, ctx, n⟩ == pc && !but.contains n)

/-- Lanes that comparator `n` keeps from a bundle (R384, R390): they stop, or raise BREAKPOINT. -/
def comparatorHits (s : State) (b : Bundle) (n : Nat) (hit : List LaneId) : State :=
  if flg (s.mreg ⟨.dbgctl, gangCtx s b.gang, 0⟩) 0 then
    let s := stopLanes s hit .breakpoint (8 + n) 0 none
    hit.foldl (fun s k => match s.lane? k with | some l => s.setLane k { l with cmpSkip := l.cmpSkip ++ [n] } | none => s) s
  else formTraps s b.pc b.len (hit.map (fun k => (k, TrapInfo.plain .breakpoint (BitVec.ofNat 32 (2 ^ 8 + n * 2 ^ 9)))))

/-- The comparators keep from a bundle the lanes that would issue in it, each lane by the lowest comparator that fires for it (R384, R390).
The lanes left issue; in all-stop mode none does. -/
def comparators (s : State) (b : Bundle) (i : Instr) : State × Bundle :=
  let ctx := gangCtx s b.gang
  if (comparator s ctx b.pc []).isNone then (s, b)
  else
    let willIssue := fun k => match exec i { s with cur := { b with lanes := [k] }, blocked := [] } with
      | .next t => !t.blocked.contains k
      | _ => true
    let hits := b.lanes.filterMap (fun k => match s.lane? k with
      | some l => if willIssue k then (comparator s ctx b.pc l.cmpSkip).map (fun n => (k, n)) else none
      | none => none)
    let b' := { b with lanes := b.lanes.filter (fun k => !hits.any (fun p => p.1 == k)) }
    if hits.isEmpty then (s, b)
    else
      let stops := flg (s.mreg ⟨.dbgctl, ctx, 0⟩) 0
      let s := (List.range 8).foldl (fun s n =>
        let hit := (hits.filter (fun p => p.2 == n)).map Prod.fst
        if hit.isEmpty then s else comparatorHits s b n hit) s
      if stops && !flg (s.mreg ⟨.dbgctl, ctx, 0⟩) 1 then (stopRest s ⟨b.gang, b.group⟩, { b' with lanes := [] }) else (s, b')

/-! ### The lane-cycle record (spec/09 R214; spec/21 R399) -/

/-- A quad exchange (spec/07 R172). -/
def quadExchange : Instr → Bool
  | .qswh _ | .qswv _ | .qswd _ | .qbcst _ => true
  | _ => false

/-- The number of a collective's mask (spec/03 R79; spec/07 R167; spec/14 R281). -/
def collMask (i : Instr) : Option Nat :=
  match i.op, i.word with
  | some n, some v => if 0x140 ≤ n ∧ n < 0x180 then some (mskOf v) else if 0x240 ≤ n ∧ n < 0x280 then some 0 else none
  | _, _ => none

/-- A lane stands outside the participation mask of a collective (spec/07 R170). -/
def outsideMask (s : State) (i : Instr) (k : LaneId) : Bool :=
  match collMask i, s.warp? (LaneId.wid k) with
  | some m, some x => !flg (x.masks.getD m 0#32) k.lane
  | _, _ => false

/-- Count an issued bundle (R214, R399): `s0` is the state before it, `issued` its lanes that issued. A helper lane and a live lane outside
the participation mask count as masked by divergence; a live lane of a touched quad whose guard is false, which R82 counts so too, is predicated
off, as R170 has it (spec/03 R82; spec/07 R170; log 36). A lane that its own turn leaves waiting is absent (spec/01 R20), and one whose try its own turn aborts stands
at another PC when the bundle issues (spec/08 R206, R208). -/
def countBundle (s0 s : State) (b : Bundle) (i : Instr) (issued : List LaneId) : State :=
  let ctx := gangCtx s0 b.gang
  if !flg (s0.mreg ⟨.dbgctl, ctx, 0⟩) 4 then s
  else
    let ws := warpsOf issued
    let off := fun (k : LaneId) => match i.word, s0.lane? k with
      | some v, some l => guardOf v l == some false
      | _, _ => false
    let cat := fun (n : Nat) =>
      match issued.find? (fun k => k.lane == n) with
      | some k => if off k then 2 else 0
      | none =>
        let ls := ws.filterMap (fun v => (s0.lane? ⟨v.gang, v.group, v.warp, n⟩).map (fun l => ((⟨v.gang, v.group, v.warp, n⟩ : LaneId), l)))
        let live := ls.filter (fun p => p.2.st != .exited)
        let there := fun (k : LaneId) => (match s.lane? k with | some l => l.pc == b.pc | none => true)
        let left := fun (k : LaneId) => b.lanes.contains k && there k
        let gone := fun (k : LaneId) => b.lanes.contains k && !there k
        if live.any (fun p => p.2.pc == b.pc && (!ready s0 p.1 p.2 || left p.1) && !outsideMask s0 i p.1) then 3
        else if live.any (fun p => p.2.pc != b.pc || outsideMask s0 i p.1 || gone p.1) then 1
        else if quadExchange i && issued.any (fun k => k.lane / 4 == n / 4 && !off k) then 1
        else 4
    let cats := (List.range 32).map cat
    let bins := 64 :: (List.range 64).filter (fun n =>
      decide ((s0.mreg ⟨.lcblo, ctx, n⟩).toNat ≤ b.pc.toNat ∧ b.pc.toNat < (s0.mreg ⟨.lcbhi, ctx, n⟩).toNat))
    let x := bins.foldl (fun x bin =>
      lcbAdd ((List.range 5).foldl (fun x c => lcbAdd x ctx bin c (cats.filter (· == c)).length) x) ctx bin 5 1) (s.core b.core)
    s.setCore b.core x

/-! ### An issue -/

/-- An instruction whose issue clears the group's idempotence flag (spec/20 R367). -/
def clearsIdem (i : Instr) : Bool :=
  match i.op with
  | some n => decide (0x1C0 ≤ n ∧ n < 0x240) || ([0x280, 0x281, 0x282, 0x286, 0x289, 0x28A, 0x240, 0x304] : List Nat).contains n
  | none => false

/-- The lanes of a bundle that issued: those that did not wait or abort before the issue, and those of a collective that it completed; lanes
outside the mask of a collective do not issue it (spec/07 R170). -/
def issuedLanes (s0 s : State) (b : Bundle) (i : Instr) : List LaneId :=
  let went := fun (k : LaneId) => !s.blocked.contains k && !outsideMask s0 i k &&
    (match s.lane? k with | some l => !l.st.atColl && l.st != .adm | none => true)
  let done := (s0.lanes.filter (fun p => p.2.st.atColl && p.2.pc == b.pc && (warpsOf b.lanes).contains (LaneId.wid p.1) && went p.1)).map Prod.fst
  b.lanes.filter (fun k => went k && !done.contains k) ++ done

/-- What the Crossing notes of an issue: paths, whose timer a split, or an issue off the path, restarts (R67, R69; spec/09), issue counts (spec/20
R367), the latest issues (R66, R69), and the counts that an issue ends (R68). -/
def noteIssue (s : State) (b : Bundle) (i : Instr) (issued : List LaneId) : State :=
  let ws := warpsOf issued
  let s := ws.foldl (fun s w =>
    match s.warp? w with
    | some x =>
      let mine := issued.filter (fun k => LaneId.wid k == w)
      let low := mine.foldl (fun m k => min m k.lane) 32
      let goesOn := fun (l : Lane) => (match l.st with | .exited => false | .trapped => false | .replay _ _ => false | _ => true)
      let pcs := (mine.filterMap (fun k => match s.lane? k with | some l => if goesOn l then some l.pc else none | none => none)).firsts
      let path := (s.lane? ⟨w.gang, w.group, w.warp, low⟩).map (fun l => l.pc)
      s.setWarp w { x with path := path, timer := if pcs.length ≤ 1 ∧ x.path = some b.pc then x.timer else 0, lastIssue := s.clock + 1, starved := 0, overdue := false
                           issuedAt := mset x.issuedAt b.pc s.clock }
    | none => s) s
  let s := issued.foldl (fun s k => match s.lane? k with | some l => s.setLane k { l with since := 0 } | none => s) s
  let g : GroupId := ⟨b.gang, b.group⟩
  let s := match s.group? g with
    | some x => s.setGroup g { x with issues := x.issues + 1, idem := x.idem && !clearsIdem i }
    | none => s
  let x := s.core b.core
  s.setCore b.core { x with keyIssues := mset x.keyIssues (b.part, g, b.pc) s.clock }

/-- A lane stands in a wait that its instruction began and that ends by itself, with the lane past it. -/
def TState.begun : TState → Bool
  | .waitm _ _ | .barg _ _ | .barn _ _ | .mwait _ _ _ | .macq _ _ => true
  | _ => false

/-- SINGLE_STEP for lanes of a core that a handler stepped, each at the PC where it stands (spec/21 R390). -/
def stepTraps (s : State) (due : List LaneId) : State :=
  let s := due.foldl (fun s k => match s.lane? k with | some l => s.setLane k { l with stepTrap := false, stepDue := false } | none => s) s
  let pcs := (due.filterMap (fun k => (s.lane? k).map (fun l => l.pc))).firsts
  pcs.foldl (fun s pc =>
    let here := due.filter (fun k => match s.lane? k with | some l => l.pc == pc | none => false)
    (warpsOf here).foldl (fun s w =>
      formTraps s pc (lenAt s w pc) ((here.filter (fun k => LaneId.wid k == w)).map (fun k => (k, TrapInfo.plain .singleStep 0)))) s) s

/-- Before a core's partitions issue: a stepped lane whose instruction began a wait raises SINGLE_STEP once that is over (R390), and a lane under
the debugger's single step that cannot issue has entered a wait, which ends its step (R388; log 31). -/
def settleSteps (s : State) (core : Nat) : State :=
  let mine := s.lanes.filter (fun p => gangRuns s p.1.gang && !p.2.stopped && (match s.group? (LaneId.grp p.1) with | some g => g.core == core | none => false))
  let due := (mine.filter (fun p => p.2.stepDue && p.2.st == .run)).map Prod.fst
  let waits := (mine.filter (fun p => p.2.stepping && p.2.st != .trapped && p.2.st != .exited && !wantsIn s p.1 p.2)).map Prod.fst
  if due.isEmpty && waits.isEmpty then s else stopLanes (stepTraps s due) waits .singleStep 0 0 none

/-- Lanes under single step: a step ends at one issue, a park or a wait (spec/21 R388); a handler's step request raises SINGLE_STEP
after the next instruction that completes, behind the wait that it begins (R390, log 31). The step of a lane whose try aborts before its issue goes on at
the try's target: it has not issued, parked or begun a wait (R388; spec/08 R206). `s0` is the state in which the bundle executed: what TRET requests in it holds
for the issue that follows. -/
def endSteps (s0 s : State) (b : Bundle) (issued : List LaneId) : State :=
  let spec := fun (u : State) (k : LaneId) => match u.lane? k with | some l => l.spec.isSome | none => false
  let aborted := fun (k : LaneId) => !issued.contains k && spec s0 k && !spec s k
  let stepped := (b.lanes ++ issued).firsts.filter (fun k => !aborted k && (match s.lane? k with | some l => l.stepping | none => false))
  let s := stopLanes s stepped .singleStep 0 0 none
  let asked := fun (k : LaneId) => match s0.lane? k with | some l0 => l0.stepTrap | none => false
  let due := issued.filter (fun k => asked k && (match s.lane? k with | some l => l.st == .run | none => false))
  let s := issued.foldl (fun s k => match s0.lane? k, s.lane? k with
    | some l0, some l =>
      s.setLane k { l with stepTrap := if l0.stepTrap && (l.st == .run || l.st.begun) then false else l.stepTrap
                           stepDue := l.stepDue || (l0.stepTrap && l.st.begun)
                           cmpSkip := if l0.hx.isSome && l.hx.isNone then l.cmpSkip else [] }
    | _, _ => s) s
  stepTraps s due

/-- The lanes of a bundle that executed YIELD: their guards are true, and they raised no trap (spec/05 R118, R127). -/
def yielders (s0 s : State) (i : Instr) (issued : List LaneId) : List LaneId :=
  match i with
  | .yield w => issued.filter (fun k => guardOn w s0 k && (match s.lane? k with | some l => l.st == .run | none => false))
  | _ => []

/-- The path of each warp that yields moves (R69, R127). -/
def yieldPaths (s : State) (ks : List LaneId) : State :=
  (warpsOf ks).foldl (fun s w => yieldPath s w ((ks.filter (fun k => LaneId.wid k == w)).filterMap (fun k => (s.lane? k).map (fun l => l.pc)))) s

/-- A lane that issued without the token it was granted gives it back, with the ranges it held (spec/01 R28). -/
def dropToken (s : State) (k : LaneId) : State :=
  match s.lane? k with
  | some l =>
    if l.token = 0 then s
    else (releaseUnits (dropRoads s (laneCore s k) false (laneOwner k)) (laneCore s k) l.token).setLane k { l with token := 0 }
  | none => s

/-- What follows the instruction of a bundle: `s0` is the state in which it executed. -/
def endIssue (s0 : State) (i : Instr) (s : State) : State :=
  let b := s0.cur
  let issued := issuedLanes s0 s b i
  if issued.isEmpty then endSteps s0 s b []
  else
    let s := issued.foldl dropToken (noteIssue (countBundle s0 s b i issued) b i issued)
    let s := yieldPaths s (yielders s0 s i issued)
    { endSteps s0 s b issued with blocked := [], shorts := [], met := [] }

/-- The lanes of a bundle all found waiting while their stack is not ready. -/
def blockAll (s : State) (b : Bundle) : State := notIssued s b.lanes

/-- Issue a bundle (spec/03 R66.5): fetch, comparators, the instruction itself, and what the Crossing notes of it. -/
def issueBundle (b : Bundle) (s : State) : Host.Outcome State Fault Refusal :=
  match fillCache s b.core (gangCtx s b.gang) b.pc with
  | (s, none) => .next (blockAll s b)
  | (s, some f) =>
    let i := (filledInstr f).1
    let r := comparators s { b with len := (filledInstr f).2 } i
    if r.2.lanes.isEmpty then .next r.1
    else
      let s0 := beginIssue r.1 r.2
      onNext (exec i s0) (endIssue s0 i)

/-- The lanes of a placed program's first bundle that stand at it. -/
def stillThere (s : State) (b : Bundle) : Bundle :=
  { b with lanes := b.lanes.filter (fun k => match s.lane? k with
      | some l => l.pc == b.pc && !l.stopped && gangRuns s k.gang && l.st == .run
      | none => false) }

/-- The first bundle of a placed program has a cycle of its core to itself (log 17). -/
def issueForced (b : Bundle) (s : State) : Host.Outcome State Fault Refusal :=
  if (stillThere s b).lanes.isEmpty then .next s
  else onNext (issueBundle (stillThere s b) (tick s b.core)) (endCycle b.core)

end Sys2Proof.Machine
end

