-- ==== Sys2Proof/Machine/Auto.lean ====
section
/-! DEFINITION. What the outside does to the module (spec/12 R253, spec/22 R407), and what the device does next by itself (log 2). -/

namespace Sys2Proof.Machine

/-! ### The outside -/

/-- Where an access of BAR2 goes: the window's 1 GiB of local physical addresses from HWBASE, piece by piece (spec/22 R405). -/
def windowPieces (s : State) (off n : Nat) : List (Nat × Nat) :=
  if 2 ^ 30 < off + n then []
  else (pieces (n / 4096 + 2) (BitVec.ofNat 64 ((s.mreg ⟨.hwbase, 0, 0⟩).toNat + off)) n).map (fun p => (p.1.toNat, p.2))

/-- A write through BAR2 (spec/22 R405; spec/12 R253); what lies beyond the window, or at no memory, has no effect. -/
def windowWrite (s : State) (off : Nat) (bytes : List Byte) : State :=
  ((windowPieces s off bytes.length).foldl (fun (a : State × Nat) p =>
    match locate a.1 p.1 with
    | some (loc, _) => (hostDo a.1 (.write loc ((bytes.drop a.2).take p.2)), a.2 + p.2)
    | none => (a.1, a.2 + p.2)) (s, 0)).1

/-- A read through BAR2, answered as a whole (spec/22 R405; spec/12 R253); one that lies beyond the window, or at no memory, is unsupported. -/
def windowRead (s : State) (off n : Nat) : State :=
  let ps := (windowPieces s off n).map (fun p => (locate s p.1).map (fun q => (q.1, p.2)))
  if 2 ^ 30 < off + n ∨ ps.any Option.isNone then { s with hostGot := none } else hostDo s (.read (ps.filterMap id))

/-- A cause fits the memory it is said of: any memory may hold an uncorrectable error or poison, the capacity tier fails by its own cause, and
another module's memory by FABRIC_ERROR (spec/08 R190; spec/10 R216). REMOTE_TIMEOUT comes of waits alone (spec/22 R413). -/
def errorFits (s : State) (line : Nat) (c : Cause) : Bool :=
  let l := 64 * line % 2 ^ 45
  match c with
  | .uncorrectable | .poison => true
  | .capacityTierError => decide (64 * line < 2 ^ 48 ∧ 0x010000000000 ≤ l ∧ l < 0x028000000000)
  | .fabricError => isRemote s (homeOfLoc s (64 * line))
  | _ => false

/-- Reads, or writes, of a line of memory begin to fail, or cease to (spec/08 R190; log 41). -/
def setError (s : State) (line : Nat) (write : Bool) (c : Option Cause) : State :=
  match c with
  | none => woke { s with errs := mdel s.errs (line, write) }
  | some c => if errorFits s line c then woke { s with errs := mset s.errs (line, write) c } else s

/-- A set's block reads back with an uncorrectable error from now on (spec/17 R352). -/
def setBlockError (s : State) (d slot block : Nat) : State :=
  if (s.die d).itemBytes (slot, block) = 0 then s
  else s.setDie d { s.die d with badBlk := (slot, block) :: (s.die d).badBlk.filter (· != (slot, block)) }

/-- A write cannot reach a die behind a port: the port's fault record, of a kind and layout that are the model's (spec/12 R244; log 28). A domain
of one module has no such die. -/
def portRecord (s : State) (port : Nat) (timeout : Bool) : State :=
  if fld (s.mreg ⟨.modid, 0, 0⟩) 6 4 = 0 then s
  else emit s (.io (0x110 + port)) 0x70 [(0x90, 1, (if timeout then Cause.remoteTimeout else .fabricError).code)]

/-- Go on from a next state. -/
def andThen (o : Host.Outcome State Fault Refusal) (f : State → Host.Outcome State Fault Refusal) : Host.Outcome State Fault Refusal :=
  match o with
  | .next s => f s
  | .fault r => .fault r
  | .refused r => .refused r

/-- A cached translation is dropped (spec/10 R222). -/
def evict (s : State) (d k : Nat) : State := s.setDie d { s.die d with tlb := (s.die d).tlb.eraseIdx k }

/-- What a write of a register is (spec/22 R407): the row of the table whose action it starts, else a plain write. Of two actions that one write
starts (spec/00 R4), ABORT comes before MRST and GO before HALT: the model's choice (log 25). -/
def barAct (r : MReg) (v : BitVec 64) (s : State) : Host.Outcome State Fault Refusal :=
  match r.name with
  | .modctl =>
    let abort := fun (s : State) => if flg v 8 then execModctlAbort (fld v 5 0) true s else .next s
    if flg v 31 then andThen (abort s) execMrst else if flg v 8 then abort s else execRegisterWrite r v s
  | .attgo =>
    if fld v 1 0 = 1 then execAttestationReport s else if fld v 1 0 = 2 then execIdentityCertificate s else execRegisterWrite r v s
  | .klgo => if flg v 0 then (if asksUnload s then execKeyUnload s else execKeyLoad s) else execRegisterWrite r v s
  | .xinv => if flg v 0 then execXinv r.i v s else execRegisterWrite r v s
  | .xreplay => if flg v 6 then execXreplay r.i v s else execRegisterWrite r v s
  | .sqovsize => execSquareReady r.i v s
  | .engrst =>
    if flg v 63 then
      match resetUnit s v with
      | some (.stream c) => execEngineResetStream c s
      | some (.matrix c) => execEngineResetMatrix c s
      | some (.square d) => execEngineResetSquare d s
      | some (.skim e) => execEngineResetSkim e s
      | none => execRegisterWrite r v s
    else execRegisterWrite r v s
  | .ctxop =>
    if fld v 2 0 = 1 then execPreempt r.i s
    else if fld v 2 0 = 2 then execKill r.i s
    else if fld v 2 0 = 3 then execDestroy r.i s
    else execRegisterWrite r v s
  | .dbgrun =>
    let go := fun (s : State) => if flg v 0 then execGo r.i s else .next s
    if flg v 1 then andThen (go s) (execHalt r.i) else if flg v 0 then go s else execRegisterWrite r v s
  | .dbgsel =>
    if flg v 63 then (if flg v 62 then execDbgselWrite r.i v s else execDbgselRead r.i v s) else execRegisterWrite r v s
  | .dbgstep => execDbgstep r.i v s
  | .dbgdump => execDbgdump r.i v s
  | _ => execRegisterWrite r v s

/-- The upper half of a register has no field, and a 4-byte write of it no effect (spec/00 R5): of those whose writes act as such. -/
def halfEmpty (r : MReg) : Bool := r.name == .ctxop || r.name == .sqovsize

/-- A write of `size` bytes to the management block; any but an aligned access of 4 or 8 bytes has no effect (spec/22 R407). -/
def barWrite (off size : Nat) (value : BitVec 64) (s : State) : Host.Outcome State Fault Refusal :=
  if (size = 4 ∨ size = 8) ∧ off % size = 0 then
    match regAt off with
    | some r =>
      let v := regMerge s r off size value
      if halfEmpty r ∧ off % 8 ≠ 0 then .next s else onNext (barAct r v s) (if off % 8 ≠ 0 then noteHalf r v else id)
    | none => .next s
  else .next s

/-- A read of `size` bytes of the management block: the register's bytes, 0 where none stands, and no answer to any but an aligned access of 4 or 8
bytes, which is unsupported (spec/22 R407). A read of TRDROP clears it (spec/21 R383). -/
def barRead (off size : Nat) (s : State) : Host.Outcome State Fault Refusal :=
  if (size = 4 ∨ size = 8) ∧ off % size = 0 then
    let v := match regAt (off / 8 * 8) with | some r => (regRead s r).toNat | none => 0
    let s := { s with hostGot := some (bytesLE size (v / 2 ^ (8 * (off % 8)))) }
    match regAt (off / 8 * 8) with
    | some ⟨.trdrop, d, _⟩ => if off % 8 = 0 then execTrdropRead d s else .next s
    | _ => .next s
  else .next { s with hostGot := none }

/-- An event of the device, as against an instruction that only a bundle performs. -/
def deviceEvent (i : Instr) : Bool :=
  match i with
  | .faultWord _ _ _ => false
  | i => i.word.isNone

/-! ### The device by itself (log 2) -/

/-- Something that the device may do. -/
abbrev Act := State → Host.Outcome State Fault Refusal

/-- Deliveries that may be due for a lane, and replies that are overdue (spec/22 R413). -/
def laneActs (s : State) (k : LaneId) (l : Lane) : List Act :=
  (l.pend.zipIdx.map (fun p => match p.1.fail with
    | some f => execFailedDelivery k p.2 f.cause
    | none => if p.1.remote && replyLate s p.1 then execRemoteTimeout k p.2 else execDelivery k p.2)) ++ [execMwaitTimeout k]

/-- Work that may be due at a core's engines. -/
def engineActs (c : Nat) (x : Core) : List Act :=
  (x.cmds.flatMap (fun k =>
    (((List.range (copyChunks k)).find? (fun i => !k.done.contains i)).toList.map (fun i => execCopyChunk c k.ticket i)) ++
      [execSweepRetire c k.ticket, execIndirectStreamPush c k.ticket, execCopyChunk c k.ticket 0, execNvmeTimeout c k.ticket, execStreamCompletion c k.ticket])) ++
    [execCdEntryDelivery c, execMatrixCommand c]

/-- What may be due at a die. -/
def dieActs (s : State) (d : Nat) : List Act :=
  [execAdmissionGrant d] ++ (List.range (s.die d).admq.length).map (execAdmissionTimeout d) ++
    (List.range (flightsTo s d).length).map (execWriteApply d)

/-- What may be due of gangs and grids. -/
def gangActs (s : State) : List Act :=
  let names := s.grids.filterMap (fun p => gridHead s p.1 p.2)
  (s.gangs.flatMap (fun p => [execGangRetire p.1, execDrainDeadline p.1, execSave p.1])) ++
    (List.range 64).flatMap (fun q => [execLaunchRecord q, execGridReady q]) ++
    names.flatMap (fun n => (List.range 48).map (execGangPlacement n)) ++
    names.flatMap (fun n => s.gangs.map (fun p => execLaunchPreempt n p.1))

/-- What may be due of groups and warps. -/
def crossingActs (s : State) : List Act :=
  (s.groups.flatMap (fun p => [execTrapDelivery p.1, execWatchdog p.1])) ++
    s.warps.flatMap (fun p => [execReplay p.1, execOverdue p.1, execPathTimerExpiry p.1, execWarpSwapOut p.1, execActiveSetAging p.1])

/-- Every event that may be due, in the order in which the device looks at them. -/
def dueActs (s : State) : List Act :=
  s.lanes.flatMap (fun p => laneActs s p.1 p.2) ++ crossingActs s ++ (List.range 4).flatMap (dieActs s) ++
    s.nvme.filterMap (fun p => (nvmeEntry s p.1).map (fun w => execNvmeCompletion p.1.1 p.1.2 (BitVec.ofNat 16 w))) ++
    s.cores.flatMap (fun p => engineActs p.1 p.2) ++ gangActs s ++
    (if s.mreg ⟨.klgo, 0, 0⟩ = 0 then [] else [execKeyLoad, execKeyUnload]) ++
    (if s.mreg ⟨.attgo, 0, 0⟩ = 1 then [execAttestationReport] else if s.mreg ⟨.attgo, 0, 0⟩ = 2 then [execIdentityCertificate] else []) ++
    [execPromote 0, execPromote 1, execDemote 0, execDemote 1, execBadcmd 0, execBadcmd 1]

/-- An event changes something beside what was found waiting. -/
def changes (s : State) (f : Act) : Bool :=
  match f s with
  | .next t => woke t != woke s
  | _ => false

/-- The requests at Squares that are not parked. -/
def openRequests (s : State) : Nat :=
  (s.dies.map (fun p => (p.2.sqq.filter (fun r => !r.parked)).length + (p.2.setq.filter (fun r => !r.parked)).length)).foldl (· + ·) 0

/-- A Square's event takes a request off. -/
def serves (s : State) (f : Act) : Bool :=
  match f s with
  | .next t => decide (openRequests t < openRequests s)
  | _ => false

/-- The collective of an active warp that issues at a partition's next slot, before any key: of several, that of the lowest resident slot and then
PC (spec/03 R65, R77, R79; log 36). -/
def dueColl (s : State) (core part : Nat) : Option Bundle :=
  if (s.core core).halted then none
  else
    let cs := ((partWarps s core part).filter (fun p => p.2.active)).flatMap (fun p =>
      ((collBundles s p.1 p.2).filter (fun b => b.lanes.all (fun k => s.met.contains k))).map (fun b => (p.2.slot, b)))
    match cs with
    | [] => none
    | c :: r => some (r.foldl (fun a b => if b.1 < a.1 || (b.1 == a.1 && b.2.pc.toNat < a.2.pc.toNat) then b else a) c).2

/-- A partition issues, where it has something to issue: a collective that is due, else the bundle of its best key (spec/03 R66, R77). -/
def issuePart (core part : Nat) (s : State) : Host.Outcome State Fault Refusal :=
  match dueColl s core part <|> pickBundle s core part with
  | some b => issueBundle b s
  | none => .next s

/-- The partitions of a core issue one after another in ascending order, and what an earlier one did decides who is ready for a later one: the
model's choice, since R66 gives no order within a cycle (log 4). -/
def issueParts (core : Nat) : List Nat → State → Host.Outcome State Fault Refusal
  | [], s => .next s
  | p :: ps, s => andThen (issuePart core p s) (fun t => issueParts core ps (if t.blocked.isEmpty then refresh t else t))

/-- A cycle of a core (spec/03 R66 to R74): steps that end, end, what is due of its warps takes place, paths are brought up to date, the cycle is counted, and each
partition issues (waits of the engines: spec/22 R413). -/
def coreCycle (core : Nat) (s : State) : Host.Outcome State Fault Refusal :=
  let s := (List.range 4).foldl (fun s p => repathPart s core p) (punctual (settleSteps s core) core)
  onNext (issueParts core (List.range 4) (tickEngines (tick s core) core)) (endCycle core)

/-- Cycles of cores, in order. -/
def cycleAll : List Nat → State → Host.Outcome State Fault Refusal
  | [], s => .next s
  | c :: cs, s => andThen (coreCycle c s) (cycleAll cs)

/-- The device's own next step: the first event that is due, else a cycle of every core that holds groups and of the I/O die. -/
def auto (s : State) : Host.Outcome State Fault Refusal :=
  match (dueActs s).find? (changes s) with
  | some f => f s
  | none =>
    let away := (s.dies.map Prod.fst).filter (fun d => decide (4 ≤ d))
    match ((List.range 4).flatMap (fun d => [execSquareOperation d, execSetOperation d]) ++ away.map execSquareOperation).find? (serves s) with
    | some f => f s
    | none => onNext (cycleAll ((s.groups.map (fun p => p.2.core)).firsts) s) ioCycle

end Sys2Proof.Machine
end

