-- ==== Sys2Proof/Machine/Step.lean ====
section
/-! DEFINITION. One step of the module: the next entry of the agenda, else the bundle that must issue, else what the device does by
itself (log 1, 2, 4). -/

namespace Sys2Proof.Machine

/-- The next thing to happen, by the agenda. -/
def choose (c : Choice) (s : State) : Host.Outcome State Fault Refusal :=
  match c with
  | .event i => if !i.wf then .fault .noSuchUnit else if deviceEvent i then exec i s else .next s
  | .cycles core n =>
    if 192 ≤ core then .fault .noSuchUnit
    else
      match n with
      | 0 => .next s
      | m + 1 => onNext (coreCycle core s) (fun t => if m = 0 then t else { t with agenda := .cycles core m :: t.agenda })
  | .hostWrite loc bytes => .next (woke (hostDo s (.write loc bytes)))
  | .hostRead loc n => .next (hostDo s (.read [(loc, n)]))
  | .barWrite off size value => barWrite off size value s
  | .barRead off size => barRead off size s
  | .windowWrite off bytes => .next (windowWrite s off bytes)
  | .windowRead off n => .next (windowRead s off n)
  | .ioCycles n =>
    match n with
    | 0 => .next s
    | m + 1 => .next (let t := ioCycle s; if m = 0 then t else { t with agenda := .ioCycles m :: t.agenda })
  | .evict die k => if 4 ≤ die then .fault .noSuchUnit else .next (evict s die k)
  | .memErr line write cause => .next (setError s line write cause)
  | .blockErr die slot block => if 4 ≤ die then .fault .noSuchUnit else .next (setBlockError s die slot block)
  | .portError port timeout => if 16 ≤ port then .fault .noSuchUnit else .next (portRecord s port timeout)

/-- One step: a bundle that must issue issues first (spec/03 R77, R79); else what earlier steps left to be done is done, and the next thing
happens. -/
def step (s : State) : Host.Outcome State Fault Refusal :=
  match s.forced with
  | b :: r => issueForced b { s with forced := r }
  | [] =>
    match s.agenda with
    | c :: r => choose c (refresh (settleWork { s with agenda := r }))
    | [] => auto (refresh (settleWork s))

/-- `s` with the instruction whose bits are `w` placed as a program, about to issue (log 17). -/
def State.withFetchWord (s : State) (nbits w : Nat) : State := boot s (bytesLE maxLen (w % 2 ^ nbits)) (List.range 32)

end Sys2Proof.Machine
end

