-- ==== Sys2Proof/Claims.lean ====
section
/-! DEFINITION. The vocabulary of the statements: what it is for a lane to issue alone, to read its operands and to deliver a result, and
the rows that name an instruction's entry, operand types and result. -/

namespace Sys2Proof.Claims

open Sys2Proof.Machine

/-- What a step answers. -/
abbrev Answer := Host.Outcome State Fault Refusal

/-- Lane `k`, whose record is `l`, is the one lane of the bundle that issues (spec/03 R65). -/
def alone (s : State) (k : LaneId) (l : Lane) : Prop := s.cur.lanes = [k] ∧ s.lane? k = some l

/-- The operands A, B and C are read in that order as types `ta`, `tb` and `tc` (spec/01 R19): their values are `a`, `b` and `c`, and `u`
is the state after the queue entries they took, if any. -/
def reads (s : State) (k : LaneId) (l : Lane) (w : IWord) (ts : Tys) (u : State) (a b c : Nat) : Prop :=
  ∃ s1 s2, readSrc s k l w w.a w.wa ts.a = .val s1 a ∧ readSrc s1 k l w w.b w.wb ts.b = .val s2 b ∧
    readSrc s2 k l w w.c w.wc ts.c = .val u c

/-- The lane after it raised flags, filled general registers and went on (spec/01 R13, R15; spec/04 R106; spec/05 R130). -/
def filled (s : State) (l : Lane) (fl : Flags) (r : Nat) (vs : List Word) : Lane := ((l.raise fl).fillRegs r vs).advance s

/-- The state after lane `k` delivered the value `v` of type `t` with flags `fl` to D and went on; none where it has to wait or traps: a
general register of D waits for a delivery, D is a queue register without room, or an enabled flag is raised (spec/01 R15, R18 to R20; spec/04
R108). -/
def delivered (s : State) (k : LaneId) (w : IWord) (t : Ty) (v : Nat) (fl : Flags) : Option State :=
  match s.lane? k with
  | none => none
  | some l =>
    if l.te &&& fl ≠ 0 then none
    else
      match w.d with
      | .g r =>
        if l.regsFull (destRegs w.d t) then some (s.setLane k (filled s l fl r (partsOf (tyRegs t) (extend t v)))) else none
      | .sr n => some (s.setLane k (((l.raise fl).srWrite n v).advance s))
      | .q n =>
        (match pushQ s k n (List.replicate (tyRegs t) 0#32) w.b.code with
         | .wait => none
         | _ =>
           match pushQ (s.setLane k (l.raise fl)) k n (partsOf (tyRegs t) (extend t v)) w.b.code with
           | .issued u _ => (u.lane? k).map (fun m => u.setLane k (m.advance u))
           | _ => none)
      | _ => some (s.setLane k ((l.raise fl).advance s))

/-- No operand is a queue register. -/
def noQueue (w : IWord) : Bool := !(isQ w.d || isQ w.a || isQ w.b || isQ w.c)

/-- An instruction that computes one value: its word, its entry, the types of its operands, and its result from the lane and the
operands. -/
structure Row where
  w : IWord
  e : Entry
  ts : Tys
  f : Lane → Nat → Nat → Nat → Res

/-- No lane of a gang is parked at a mask, a collective or a barrier (spec/03 R64). -/
def noneParked (s : State) (gang : Nat) : Prop :=
  ∀ p ∈ s.lanes, p.1.gang = gang → p.2.st.parked = false

/-- The integer and address group (spec/06 R144 to R151): the word, its entry, the types of its operands and its result. -/
def integerRow : Instr → Option Row
  | .mov w => some ⟨w, entryMov, tysT w, fun _ a _ _ => (a, 0)⟩
  | .movi w => some ⟨w, entryMovi, tysT w, fun _ _ b _ => (b, 0)⟩
  | .iadd w => some ⟨w, entryIadd, tysT w, fun _ a b _ => intBin w.t (aiOf w) [0, 0] (fun x y => x + y) a b⟩
  | .isub w => some ⟨w, entryIsub, tysT w, fun _ a b _ => intBin w.t (aiOf w) [0, 0] (fun x y => x - y) a b⟩
  | .ineg w => some ⟨w, entryIneg, tysT w, fun _ a _ _ => intUn w.t (fun x => -x) a⟩
  | .iabs w => some ⟨w, entryIabs, tysT w, fun _ a _ _ => intUn w.t (fun x => (x.natAbs : Int)) a⟩
  | .imul w => some ⟨w, entryImul, tysT w, fun _ a b _ => intBin w.t (aiOf w) [1, 1] (fun x y => x * y) a b⟩
  | .imulh w => some ⟨w, entryImulh, tysT w, fun _ a b _ => imulhVal w.t a b⟩
  | .imad w => some ⟨w, entryImad, tysT w, fun _ a b c => imadVal w.t (aiOf w) a b c⟩
  | .imadw w => some ⟨w, entryImadw, tysImadw w, fun _ a b c => imadwVal w.t a b c⟩
  | .imin w => some ⟨w, entryImin, tysT w, fun _ a b _ => intBin w.t (aiOf w) [maxCodeI w.t, maxCodeI w.t] min a b⟩
  | .imax w => some ⟨w, entryImax, tysT w, fun _ a b _ => intBin w.t (aiOf w) [minCodeI w.t, minCodeI w.t] max a b⟩
  | .iset w => some ⟨w, entryIset, tysD32 w, fun _ a b _ => isetVal w.t (cndOf w) a b⟩
  | .sel w => some ⟨w, entrySel, tysC32 w, fun _ a b c => (if c % 2 = 1 then a else b, 0)⟩
  | .and w => some ⟨w, entryAnd, tysT w, fun _ a b _ => (Nat.land a b, 0)⟩
  | .or w => some ⟨w, entryOr, tysT w, fun _ a b _ => (Nat.lor a b, 0)⟩
  | .xor w => some ⟨w, entryXor, tysT w, fun _ a b _ => (Nat.xor a b, 0)⟩
  | .not w => some ⟨w, entryNot, tysT w, fun _ a _ _ => (2 ^ tyWidth w.t - 1 - a, 0)⟩
  | .shl w => some ⟨w, entryShl, tysB32 w, fun _ a b _ => (shlVal (tyWidth w.t) a b, 0)⟩
  | .shr w => some ⟨w, entryShr, tysB32 w, fun _ a b _ => (shrVal (tyWidth w.t) a b, 0)⟩
  | .sar w => some ⟨w, entrySar, tysB32 w, fun _ a b _ => (sarVal (tyWidth w.t) a b, 0)⟩
  | .rot w => some ⟨w, entryRot, tysB32 w, fun _ a b _ => (rotVal (tyWidth w.t) a b, 0)⟩
  | .bfx w => some ⟨w, entryBfx, tysB32 w, fun _ a b _ => (bfxVal w.t a b, 0)⟩
  | .bfi w => some ⟨w, entryBfi, tysC32 w, fun _ a b c => (bfiVal (tyWidth w.t) a b c, 0)⟩
  | .popc w => some ⟨w, entryPopc, tysD32 w, fun _ a _ _ => (popcount (tyWidth w.t) a, 0)⟩
  | .clz w => some ⟨w, entryClz, tysD32 w, fun _ a _ _ => (clzVal (tyWidth w.t) a, 0)⟩
  | .ctz w => some ⟨w, entryCtz, tysD32 w, fun _ a _ _ => (ctzVal (tyWidth w.t) a, 0)⟩
  | .brev w => some ⟨w, entryBrev, tysT w, fun _ a _ _ => (brevVal (tyWidth w.t) a, 0)⟩
  | .prmb w => some ⟨w, entryPrmb, tysT w, fun _ a b c => (prmbVal a b c, 0)⟩
  | .lea w => some ⟨w, entryLea, tysB32 w, fun _ a b _ => (leaVal (w.b == .imm) (flg (modsOf w) 3) (fld (modsOf w) 2 0) a b, 0)⟩
  | _ => none

/-- The float and packed float groups (spec/06 R152 to R156): the word, its entry, the types of its operands and its result. -/
def floatRow : Instr → Option Row
  | .fadd w => some ⟨w, entryFadd, tysT w, fun l a b _ => faddVal .f32 (modeOf w l) (satOf w) (aiOf w) a b⟩
  | .fsub w => some ⟨w, entryFsub, tysT w, fun l a b _ => fsubVal .f32 (modeOf w l) (satOf w) (aiOf w) a b⟩
  | .fmul w => some ⟨w, entryFmul, tysT w, fun l a b _ => fmulVal .f32 (modeOf w l) (satOf w) (aiOf w) a b⟩
  | .ffma w => some ⟨w, entryFfma, tysT w, fun l a b c => ffmaVal .f32 (modeOf w l) (satOf w) (aiOf w) a b c⟩
  | .fmin w => some ⟨w, entryFmin, tysT w, fun _ a b _ => fminVal .f32 false (aiOf w) a b⟩
  | .fmax w => some ⟨w, entryFmax, tysT w, fun _ a b _ => fminVal .f32 true (aiOf w) a b⟩
  | .fabs w => some ⟨w, entryFabs, tysT w, fun _ a _ _ => fsignVal .f32 false a⟩
  | .fneg w => some ⟨w, entryFneg, tysT w, fun _ a _ _ => fsignVal .f32 true a⟩
  | .fset w => some ⟨w, entryFset, tysD32 w, fun _ a b _ => fsetVal .f32 (cndOf w) a b⟩
  | .fclass w => some ⟨w, entryFclass, tysD32 w, fun _ a _ _ => (fclassVal w.t a, 0)⟩
  | .fdot2 w => some ⟨w, entryFdot2, tysFdot2 w, fun l a b c => fdot2Val w.t (modeOf w l) (satOf w) a b c⟩
  | .hadd2 w => some ⟨w, entryHadd2, tysT w, fun l a b _ => packed w.t (fun i => faddVal (tyElem w.t) (modeOf w l) (satOf w) (aiOf w) (elemOf w.t i a) (elemOf w.t i b))⟩
  | .hmul2 w => some ⟨w, entryHmul2, tysT w, fun l a b _ => packed w.t (fun i => fmulVal (tyElem w.t) (modeOf w l) (satOf w) (aiOf w) (elemOf w.t i a) (elemOf w.t i b))⟩
  | .hfma2 w => some ⟨w, entryHfma2, tysT w, fun l a b c => packed w.t (fun i => ffmaVal (tyElem w.t) (modeOf w l) (satOf w) (aiOf w) (elemOf w.t i a) (elemOf w.t i b) (elemOf w.t i c))⟩
  | _ => none

/-- Conversion, quantisation and the absent test and make (spec/06 R157, R158, R161): the word, its entry, the types of its operands and its result. -/
def conversionRow : Instr → Option Row
  | .cvt w => some ⟨w, entryCvt, tysCvt w, fun l a b _ => convert (cvtSrc w) w.t (RMode.ofCode (fld w.x 2 0) l.rm) (flg w.x 3) a (cvtScale w b)⟩
  | .qgrp w => some ⟨w, entryQgrp, tysQgrp w, fun l a b _ => quantise w.t (modeOf w l) a (b % 2 ^ 16) (groupZp w.t b)⟩
  | .dqgrp w => some ⟨w, entryDqgrp, tysDqgrp w, fun _ a b _ => dqgrpVal w.t a b⟩
  | .absent w => some ⟨w, entryAbsent, tysD32 w, fun _ a _ _ => (absentTest w.t a, 0)⟩
  | .absentMk w => some ⟨w, entryAbsentMk, tysB32 w, fun _ a b _ => (absentMake w.t a b, 0)⟩
  | _ => none

/-- The special functions (spec/06 R162): the word, its entry, the types of its operands and its result. -/
def specialRow : Instr → Option Row
  | .rcp w => some ⟨w, entryRcp, tysT w, fun l a _ _ => rcpVal (modeOf w l) (satOf w) a⟩
  | .rsq w => some ⟨w, entryRsq, tysT w, fun _ a _ _ => rsqVal (satOf w) a⟩
  | .sqrt w => some ⟨w, entrySqrt, tysT w, fun l a _ _ => sqrtVal (modeOf w l) (satOf w) a⟩
  | .exp2 w => some ⟨w, entryExp2, tysT w, fun _ a _ _ => exp2Val (satOf w) a⟩
  | .log2 w => some ⟨w, entryLog2, tysT w, fun _ a _ _ => log2Val (satOf w) a⟩
  | .sinpi w => some ⟨w, entrySinpi, tysT w, fun _ a _ _ => sinpiVal (satOf w) a⟩
  | .cospi w => some ⟨w, entryCospi, tysT w, fun _ a _ _ => cospiVal (satOf w) a⟩
  | .tanh w => some ⟨w, entryTanh, tysT w, fun _ a _ _ => tanhVal (satOf w) a⟩
  | _ => none

/-- The pixel group (spec/06 R163, R164): the word, its entry, the types of its operands and its result. -/
def pixelRow : Instr → Option Row
  | .padd w => some ⟨w, entryPadd, tysT w, fun _ a b _ => pixBin (aiOf w) [0, 0] (fun x y => x + y) a b⟩
  | .psub w => some ⟨w, entryPsub, tysT w, fun _ a b _ => pixBin (aiOf w) [0, 0] (fun x y => x - y) a b⟩
  | .pmin w => some ⟨w, entryPmin, tysT w, fun _ a b _ => pixBin (aiOf w) [maxCodeI .n16, maxCodeI .n16] min a b⟩
  | .pmax w => some ⟨w, entryPmax, tysT w, fun _ a b _ => pixBin (aiOf w) [minCodeI .n16, minCodeI .n16] max a b⟩
  | .pavg w => some ⟨w, entryPavg, tysT w, fun _ a b _ => pixPair (aiOf w) (fun x y => (x + y + 1) / 2) a b⟩
  | .pabd w => some ⟨w, entryPabd, tysT w, fun _ a b _ => pixPair (aiOf w) (fun x y => ((x - y).natAbs : Int)) a b⟩
  | .psad w => some ⟨w, entryPsad, tysPsad w, fun _ a b c => psadVal a b c⟩
  | .pmad w => some ⟨w, entryPmad, tysT w, fun _ a b c => pmadVal a b c⟩
  | .pshr w => some ⟨w, entryPshr, tysB32 w, fun _ a b _ => (pshrVal a b, 0)⟩
  | .ppack w => some ⟨w, entryPpack, tysPpack w, fun _ a b _ => ppackVal a b⟩
  | .punpk w => some ⟨w, entryPunpk, tysPunpk w, fun _ a b _ => (punpkVal a b, 0)⟩
  | .pclmp w => some ⟨w, entryPclmp, tysT w, fun _ a b c => (pclmpVal a b c, 0)⟩
  | _ => none


/-! ### Exact values (spec/04) -/

/-- The number that a finite float value stands for, and its sign (spec/04 R90). -/
def numOf : FVal → ℚ
  | .fin neg m e => (if neg then -1 else 1) * (m : ℚ) * (2 : ℚ) ^ e
  | _ => 0

def negOf : FVal → Bool
  | .fin neg _ _ | .inf neg => neg
  | _ => false

/-- A float value that is a number. -/
def isFin : FVal → Bool
  | .fin _ _ _ => true
  | _ => false

/-- A float value's place in the order of numbers: an infinity lies beyond every f32 number (spec/04 R90). -/
def rankOf : FVal → ℚ
  | .inf neg => if neg then -(2 : ℚ) ^ (200 : ℤ) else (2 : ℚ) ^ (200 : ℤ)
  | v => numOf v

/-- `k` is `x` rounded to an integer in a mode (spec/04 R99). -/
def isRounding (mode : RMode) (x : ℚ) (k : ℤ) : Prop :=
  match mode with
  | .rne => 2 * |x - k| ≤ 1 ∧ (2 * |x - k| = 1 → k % 2 = 0)
  | .rz => |(k : ℚ)| ≤ |x| ∧ |x| < |(k : ℚ)| + 1 ∧ 0 ≤ (k : ℚ) * x
  | .ru => (k : ℚ) - 1 < x ∧ x ≤ k
  | .rd => (k : ℚ) ≤ x ∧ x < k + 1

/-- `r` is the nonzero number `x` rounded once to a float type, with the flags of that: to the type's precision, or to the step of its
subnormals; inexact where it changed, underflow where it is tiny too; beyond the largest number it overflows to that number or, where the
mode, the type and SAT let it, to an infinity (spec/04 R92, R99, R100). -/
def roundsTo (t : Ty) (mode : RMode) (sat : Bool) (x : ℚ) (r : Res) : Prop :=
  let f := ffmt t
  let largest := numOf (fval t f.maxCode)
  let neg := decide (x < 0)
  r.1 < 2 ^ tyWidth t ∧
  ∃ ex k j : ℤ, (2 : ℚ) ^ ex ≤ |x| ∧ |x| < (2 : ℚ) ^ (ex + 1) ∧
    let q := max (ex - f.mb) f.qmin
    let v := (k : ℚ) * (2 : ℚ) ^ q
    let free := (j : ℚ) * (2 : ℚ) ^ (ex - (f.mb : ℤ))
    isRounding mode (x / (2 : ℚ) ^ q) k ∧ isRounding mode (x / (2 : ℚ) ^ (ex - (f.mb : ℤ))) j ∧
    (|v| ≤ largest → isFin (fval t r.1) = true ∧ numOf (fval t r.1) = v ∧ negOf (fval t r.1) = neg ∧
      r.2 = if v = x then 0 else if |free| < (2 : ℚ) ^ (1 - (f.bias : ℤ)) then NX ||| UF else NX) ∧
    (largest < |v| → r.2 = OF ||| NX ∧
      let toInf := f.hasInf = true ∧ sat = false ∧ (mode = .rne ∨ (mode = .ru ∧ 0 < x) ∨ (mode = .rd ∧ x < 0))
      (toInf → fval t r.1 = .inf neg) ∧ (¬ toInf → numOf (fval t r.1) = if x < 0 then -largest else largest))

/-- `r` is a number `x` rounded once to a float type; an exact zero takes the sign given and raises no flag. -/
def roundsOnce (t : Ty) (mode : RMode) (sat : Bool) (x : ℚ) (zero : Bool) (r : Res) : Prop :=
  (x ≠ 0 → roundsTo t mode sat x r) ∧ (x = 0 → r = (if zero then 2 ^ (tyWidth t - 1) else 0, 0))

/-- `r` is a number rounded once to an integer type and clamped to its range: invalid where that changed it, else inexact where rounding did
(spec/04 R99, R101, R103). -/
def roundsToInt (t : Ty) (mode : RMode) (x : ℚ) (r : Res) : Prop :=
  let w := tyWidth t
  let lo : ℤ := if tyKind t = .int then 1 - 2 ^ (w - 1) else 0
  let hi : ℤ := if tyKind t = .int then 2 ^ (w - 1) - 1 else 2 ^ w - 2
  ∃ k : ℤ, isRounding mode x k ∧
    let c := max lo (min hi k)
    r = ((BitVec.ofInt w c).toNat, if c ≠ k then NV else if (k : ℚ) ≠ x then NX else 0)

/-- The sign of an exact zero sum of two terms (spec/04 R99). -/
def zeroSign (mode : RMode) (a b : Bool) : Bool := if a = b then a else mode == .rd

/-! ### Values of the arithmetic groups (spec/04, spec/06) -/

/-- A row gives the operands `a`, `b` and `c` of a lane a result of which `p` holds. -/
def gives (row : Instr → Option Row) (i : Instr) (l : Lane) (a b c : Nat) (p : Res → Prop) : Prop :=
  ∃ r, (row i).map (fun x => x.f l a b c) = some r ∧ p r

/-- The lane's patterns for an f32 infinity, or what SAT makes of it, with the flags of an operation that raises `fl` for it (spec/04 R100). -/
def infinite (sat neg : Bool) (fl : Flags) : Res :=
  if sat then (if neg then 0xFF7FFFFF else 0x7F7FFFFF, OF ||| NX ||| fl) else (if neg then 0xFF800000 else 0x7F800000, fl)

/-- POPC counts the ones, CLZ the zeros above the highest one and CTZ those below the lowest, BREV reverses the bits, and each byte of PRMB is the byte
of B and A that C's nibble names, or bit 7 of that byte eight times (spec/06 R144, R149). -/
def bitValues : Prop :=
  ∀ (w : IWord) (l : Lane),
    (∀ (n : Nat) (a : BitVec n) (b c : Nat), tyWidth w.t = n →
      gives integerRow (.popc w) l a.toNat b c (· = (((List.range n).filter (fun i => a.getLsbD i)).length, 0)) ∧
      gives integerRow (.clz w) l a.toNat b c (fun r => r.2 = 0 ∧ r.1 ≤ n ∧ (∀ i < n, n - r.1 ≤ i → a.getLsbD i = false) ∧
        (r.1 < n → a.getLsbD (n - 1 - r.1) = true)) ∧
      gives integerRow (.ctz w) l a.toNat b c (fun r => r.2 = 0 ∧ r.1 ≤ n ∧ (∀ i < r.1, a.getLsbD i = false) ∧ (r.1 < n → a.getLsbD r.1 = true)) ∧
      gives integerRow (.brev w) l a.toNat b c (fun r => r.2 = 0 ∧ r.1 < 2 ^ n ∧ ∀ i < n, natBit r.1 i = a.getLsbD (n - 1 - i))) ∧
    ∀ a b c : Word, gives integerRow (.prmb w) l a.toNat b.toNat c.toNat (fun r => r.2 = 0 ∧ r.1 < 2 ^ 32 ∧ ∀ i < 4, ∀ j < 8,
      let n := fld c (4 * i + 3) (4 * i)
      natBit r.1 (8 * i + j) = (b ++ a).getLsbD (8 * (n % 8) + if n < 8 then j else 7))

/-- Pixel `i` of a px2 value; the value of two pixels, with the flags of both; a pixel's code for a number, clamped to 0 to 0xFFFE; and the rule of
absent pixels, with or without `.ai` and the identities of the two places (spec/04 R91, R95, R101). -/
def pixel (a : Word) (i : Nat) : BitVec 16 := a.extractLsb' (16 * i) 16
def pixels (f : Nat → BitVec 16 × Flags) : Res := (((f 1).1 ++ (f 0).1).toNat, (f 0).2 ||| (f 1).2)
def pixelSat (x : Int) : BitVec 16 × Flags := if 0xFFFE < x then (0xFFFE#16, OF) else if x < 0 then (0#16, OF) else (BitVec.ofInt 16 x, 0)
def pixelTwo (ai : Bool) (x y ix iy : BitVec 16) (f : Int → Int → Int) : BitVec 16 × Flags :=
  let nodata := 0xFFFF#16
  if x = nodata ∧ y = nodata then (nodata, 0)
  else if x = nodata then (if ai then pixelSat (f ix.toNat y.toNat) else (nodata, AP))
  else if y = nodata then (if ai then pixelSat (f x.toNat iy.toNat) else (nodata, AP))
  else pixelSat (f x.toNat y.toNat)

/-- What the pixel group computes, pixel by pixel (spec/06 R163, R164). -/
def pixelValues : Prop :=
  ∀ (w : IWord) (l : Lane) (a b c : Word),
    let nodata := 0xFFFF#16
    let is := fun (i : Instr) (r : Res) => gives pixelRow i l a.toNat b.toNat c.toNat (· = r)
    let two := fun (ix iy : Nat → BitVec 16) (f : Int → Int → Int) => pixels (fun i => pixelTwo (aiOf w) (pixel a i) (pixel b i) (ix i) (iy i) f)
    let both := (List.range 2).filter (fun i => pixel a i != nodata && pixel b i != nodata)
    let apart := fun (i : Nat) => |((pixel a i).toNat : Int) - (pixel b i).toNat|
    is (.padd w) (two (fun _ => 0) (fun _ => 0) (· + ·)) ∧ is (.psub w) (two (fun _ => 0) (fun _ => 0) (· - ·)) ∧
    is (.pmin w) (two (fun _ => 0xFFFE) (fun _ => 0xFFFE) min) ∧ is (.pmax w) (two (fun _ => 0) (fun _ => 0) max) ∧
    is (.pavg w) (two (pixel b) (pixel a) (fun x y => (x + y + 1) / 2)) ∧ is (.pabd w) (two (pixel b) (pixel a) (fun x y => |x - y|)) ∧
    is (.psad w)
      (if both = [] ∧ c = 0xFFFFFFFF#32 then (0xFFFFFFFF, 0)
       else
         let sum := (both.map apart).sum + if c = 0xFFFFFFFF#32 then 0 else (c.toNat : Int)
         if 0xFFFFFFFE < sum then (0xFFFFFFFE, OF) else (sum.toNat, 0)) ∧
    is (.pmad w) (pixels (fun i =>
      if pixel a i = nodata ∧ pixel b i = nodata ∧ pixel c i = nodata then (nodata, 0)
      else if pixel a i = nodata ∨ pixel b i = nodata ∨ pixel c i = nodata then (nodata, AP)
      else pixelSat (((pixel a i).toNat * (pixel b i).toNat + 128) / 256 + (pixel c i).toNat))) ∧
    is (.pshr w) (pixels (fun i => (if pixel a i = nodata then nodata else pixel a i >>> (b.toNat % 16), 0))) ∧
    is (.ppack w) (pixels (fun i =>
      let x := if i = 0 then a else b
      if x = 0xFFFFFFFF#32 then (nodata, 0) else if 0xFFFE < x.toNat then (0xFFFE, NV) else (x.setWidth 16, 0))) ∧
    is (.punpk w) (if pixel a (b.toNat % 2) = nodata then 0xFFFFFFFF else (pixel a (b.toNat % 2)).toNat, 0) ∧
    is (.pclmp w) (pixels (fun i =>
      let low := if pixel b i = nodata then (pixel a i).toNat else max (pixel a i).toNat (pixel b i).toNat
      (if pixel a i = nodata then nodata else BitVec.ofNat 16 (if pixel c i = nodata then low else min low (pixel c i).toNat), 0)))

/-- The exact cases of the special functions and their flags, the correctly rounded values of RCP and SQRT, and inexact for every other result, with no
flag but overflow and underflow beside it (spec/06 R162). Of RCP at ±2^127 whether underflow is raised is left out. -/
def specialValues : Prop :=
  ∀ (w : IWord) (l : Lane) (a : Word) (b c : Nat),
    let x := fval .f32 a.toNat
    let v := numOf x
    let neg := a.getLsbD 31
    let mode := modeOf w l
    let sat := satOf w
    let is := fun (i : Instr) (p : Res → Prop) => gives specialRow i l a.toNat b c p
    let nan : Res := (0x7FC00000, NV)
    let zero := fun (n : Bool) => ((if n then 0x80000000 else 0, 0) : Res)
    let one := fun (n : Bool) => ((if n then 0xBF800000 else 0x3F800000, 0) : Res)
    let open_ := fun (r : Res) => r.2 &&& NX = NX ∧ r.2 &&& (NV ||| DZ ||| AP) = 0
    let all := [Instr.rcp w, .sqrt w, .rsq w, .exp2 w, .log2 w, .sinpi w, .cospi w, .tanh w]
    (x = .absent → ∀ i ∈ all, is i (· = (0xFFFFFFFF, 0))) ∧
    (x.isNan = true → ∀ i ∈ all, is i (· = (0x7FC00000, if x.isSig then NV else 0))) ∧
    (x = .inf neg →
      is (.rcp w) (· = zero neg) ∧ is (.tanh w) (· = one neg) ∧ is (.sinpi w) (· = nan) ∧ is (.cospi w) (· = nan) ∧
      is (.sqrt w) (· = if neg then nan else infinite sat false 0) ∧ is (.rsq w) (· = if neg then nan else zero false) ∧
      is (.exp2 w) (· = if neg then zero false else infinite sat false 0) ∧ is (.log2 w) (· = if neg then nan else infinite sat false 0)) ∧
    (isFin x = true → v = 0 →
      is (.rcp w) (· = infinite sat neg DZ) ∧ is (.sqrt w) (· = zero neg) ∧ is (.rsq w) (· = infinite sat neg DZ) ∧
      is (.log2 w) (· = infinite sat true DZ) ∧ is (.tanh w) (· = zero neg)) ∧
    (isFin x = true → v < 0 → is (.sqrt w) (· = nan) ∧ is (.rsq w) (· = nan) ∧ is (.log2 w) (· = nan)) ∧
    (isFin x = true → v ≠ 0 → |v| ≠ (2 : ℚ) ^ 127 → is (.rcp w) (fun r => ∃ q, roundsTo .f32 mode sat (1 / v) q ∧ r = (q.1, q.2 ||| NX))) ∧
    (isFin x = true → 0 < v →
      is (.sqrt w) (fun r => r.2 = NX ∧ r.1 < 2 ^ 31 ∧ ∃ k e : ℤ, isFin (fval .f32 r.1) = true ∧
        let ulp := (2 : ℚ) ^ (e - 23)
        let root := (k : ℚ) * ulp
        numOf (fval .f32 r.1) = root ∧ (2 : ℚ) ^ (2 * e) ≤ v ∧ v < (2 : ℚ) ^ (2 * e + 2) ∧ 0 < k ∧
        match mode with
        | .rne => (root - ulp / 2) ^ 2 < v ∧ v < (root + ulp / 2) ^ 2
        | .ru => (root - ulp) ^ 2 < v ∧ v ≤ root ^ 2
        | _ => root ^ 2 ≤ v ∧ v < (root + ulp) ^ 2) ∧
      is (.rsq w) open_) ∧
    (isFin x = true →
      (∀ n : ℤ, v = n → is (.exp2 w) (roundsTo .f32 .rne sat ((2 : ℚ) ^ n)) ∧ is (.sinpi w) (· = zero neg) ∧
        is (.cospi w) (· = one (n % 2 == 1))) ∧
      (∀ n : ℤ, v = n + 1 / 2 → is (.sinpi w) (· = one (n % 2 == 1)) ∧ is (.cospi w) (· = zero false)) ∧
      (∀ n : ℤ, v = (2 : ℚ) ^ n → is (.log2 w) (fun r => r.2 = 0 ∧ r.1 < 2 ^ 32 ∧ isFin (fval .f32 r.1) = true ∧ numOf (fval .f32 r.1) = n)) ∧
      ((∀ n : ℤ, v ≠ n) → is (.exp2 w) open_) ∧
      ((∀ n : ℤ, 2 * v ≠ n) → is (.sinpi w) open_ ∧ is (.cospi w) open_) ∧
      (0 < v → (∀ n : ℤ, v ≠ (2 : ℚ) ^ n) → is (.log2 w) open_) ∧
      (v ≠ 0 → is (.tanh w) open_))

/-- The sign of an exact zero sum of terms of which `negs` gives the signs (spec/04 R99). -/
def zeroSum (mode : RMode) (negs : List Bool) : Bool :=
  if negs.all (! ·) then false else if negs.all id then true else mode == .rd

/-- HADD2, HMUL2 and HFMA2 give for each pair of elements that are numbers the sum, the product or the product and sum, rounded once to the element's
type, and where an element of an operand is absent, without `.ai`, an absent one; the flags are those of both elements. FDOT2 adds the products whose
elements are both present and C where it is, rounded once to f32, and is absent where nothing is present (spec/06 R143, R152, R156; spec/04 R95,
R97). -/
def packedValues : Prop :=
  ∀ (w : IWord) (l : Lane) (e : Ty) (a b c : Word), (w.t = .h2 ∧ e = .f16) ∨ (w.t = .bh2 ∧ e = .bf16) →
    let mode := modeOf w l
    let sat := satOf w
    let val := fun (x : Word) (i : Nat) => fval e (pixel x i).toNat
    let num := fun (x : Word) (i : Nat) => numOf (val x i)
    let neg := fun (x : Word) (i : Nat) => negOf (val x i)
    let gone := fun (x : Word) (i : Nat) => pixel x i == 0xFFFF#16
    let fins := fun (xs : List Word) => xs.all (fun x => (List.range 2).all (fun i => isFin (val x i) || gone x i))
    let each := fun (i : Instr) (xs : List Word) (p : Nat → Res → Prop) => fins xs = true → aiOf w = false →
      gives floatRow i l a.toNat b.toNat c.toNat (fun r => ∃ x y : BitVec 16 × Flags, r = ((y.1 ++ x.1).toNat, x.2 ||| y.2) ∧
        ∀ n < 2, let z := if n = 0 then x else y
          if xs.all (gone · n) then z = (0xFFFF#16, 0) else if xs.any (gone · n) then z = (0xFFFF#16, AP) else p n (z.1.toNat, z.2))
    let there := (List.range 2).filter (fun i => !gone a i && !gone b i)
    each (.hadd2 w) [a, b] (fun i r => roundsOnce e mode sat (num a i + num b i) (zeroSign mode (neg a i) (neg b i)) r) ∧
    each (.hmul2 w) [a, b] (fun i r => roundsOnce e mode sat (num a i * num b i) (neg a i != neg b i) r) ∧
    each (.hfma2 w) [a, b, c]
      (fun i r => roundsOnce e mode sat (num a i * num b i + num c i) (zeroSign mode (neg a i != neg b i) (neg c i)) r) ∧
    (fins [a, b] = true → (isFin (fval .f32 c.toNat) = true ∨ c = 0xFFFFFFFF#32) →
      gives floatRow (.fdot2 w) l a.toNat b.toNat c.toNat (fun r =>
        let z := if c = 0xFFFFFFFF#32 then [] else [fval .f32 c.toNat]
        if there = [] ∧ z = [] then r = (0xFFFFFFFF, 0)
        else roundsOnce .f32 mode sat ((there.map (fun i => num a i * num b i)).sum + (z.map numOf).sum)
          (zeroSum mode (there.map (fun i => neg a i != neg b i) ++ z.map negOf)) r))

/-- QGRP gives the code of a number divided by the scale, rounded once, with the zero point added, clamped to 0 to the greatest code, and R105's codes
for the special quotients; DQGRP gives the scale times the code less the zero point (spec/04 R104, R105; spec/06 R158). -/
def groupValues : Prop :=
  ∀ (w : IWord) (l : Lane) (a b : Word) (c bits : Nat), (w.t = .q4 ∧ bits = 4) ∨ (w.t = .q8 ∧ bits = 8) →
    let code := fval .f32 a.toNat
    let s := fval .f16 (fld b 15 0)
    let zp : Int := fld b (15 + bits) 16
    let most : Int := 2 ^ bits - 2
    let gone : Nat := 2 ^ bits - 1
    let is := fun (p : Res → Prop) => gives conversionRow (.qgrp w) l a.toNat b.toNat c p
    let end_ := if negOf code = negOf s then most.toNat else 0
    (code = .absent ∨ s = .absent → is (· = (gone, 0))) ∧
    (code ≠ .absent → s ≠ .absent →
      (code.isNan = true ∨ s.isNan = true → is (· = (0, NV))) ∧
      ((∃ m n, code = .inf m ∧ s = .inf n) → is (· = (0, NV))) ∧
      ((∃ m, code = .inf m) → isFin s = true → is (· = (end_, NV))) ∧
      (isFin code = true → (∃ n, s = .inf n) → is (· = if most < zp then (most.toNat, NV) else (zp.toNat, 0))) ∧
      (isFin code = true → isFin s = true →
        (numOf s = 0 → numOf code = 0 → is (· = (0, NV))) ∧
        (numOf s = 0 → numOf code ≠ 0 → is (· = (end_, NV))) ∧
        (numOf s ≠ 0 → is (fun r => ∃ k : ℤ, isRounding (modeOf w l) (numOf code / numOf s) k ∧
          let q := max 0 (min most (k + zp))
          r = (q.toNat, if q ≠ k + zp then NV else if (k : ℚ) ≠ numOf code / numOf s then NX else 0))))) ∧
    ∀ q : Nat, q ≤ gone →
      let back := fun (p : Res → Prop) => gives conversionRow (.dqgrp w) l q b.toNat c p
      let k : Int := q - zp
      (q = gone ∨ s = .absent → back (· = (0xFFFFFFFF, 0))) ∧
      (q < gone →
        (isFin s = true → back (fun r => r.2 = 0 ∧ r.1 < 2 ^ 32 ∧ isFin (fval .f32 r.1) = true ∧ numOf (fval .f32 r.1) = numOf s * k ∧
          negOf (fval .f32 r.1) = (negOf s != decide (k < 0)))) ∧
        (∀ n, s = .inf n → back (· = if k = 0 then (0x7FC00000, NV) else infinite false (n != decide (k < 0)) 0)) ∧
        (s.isNan = true → back (· = (0x7FC00000, if s.isSig then NV else 0))))

/-! ### Values of the matrix engines (spec/04 R104, R113, R114; spec/14 R291, R296 to R300) -/

/-- The weights that MWLD latches: the code of row `k` and column `n`, and of its group the scale and the zero point (spec/14 R291). -/
def latchedValues : Prop :=
  ∀ (t : Ty) (rows cols gs : Nat) (area scales : List Byte),
    let w := latch t rows cols gs area scales
    let groups := ceilDiv rows gs
    let word := fun (bs : List Byte) (a n : Nat) => ofBytesLE ((List.range n).map (fun i => byteAt bs (a + i)))
    w.fmt = t ∧ w.gs = gs ∧
    (∀ k < rows, ∀ n < cols,
      let i := k * cols + n
      (t = .q4 → w.w.getD i 0 = (byteAt area (i / 2)).toNat / 16 ^ (i % 2) % 16) ∧
      (t ≠ .q4 → w.w.getD i 0 = word area (tyBytes t * i) (tyBytes t))) ∧
    (0 < gs → ∀ j < groups, ∀ n < cols,
      let i := j * cols + n
      w.scales.getD i 0 = word scales (2 * i) 2 ∧
      w.zps.getD i 0 = (byteAt scales (2 * groups * cols + i)).toNat % (if t = .q4 then 16 else 256))

/-- A finite zero. -/
def isNull (v : FVal) : Bool := isFin v && decide (numOf v = 0)

/-- A chunk's activations and weight factors `ps`, its group scale `g` and the activation scale 2^`gact` come to `c`, the value to add and its flags, or to
nothing: an absent activation or weight is left out, MSPR (`sparse`) skips a product of which a side is ±0, and the exact sum of the products times
the scales is rounded once (spec/04 R113; spec/14 R295, R296). -/
def chunkComes (sparse : Bool) (gact : ℤ) (g : FVal) (ps : List (FVal × FVal)) (c : Option Res) : Prop :=
  let there := ps.filter (fun p => g != .absent && p.1 != .absent && p.2 != .absent)
  let used := there.filter (fun p => !(sparse && (isNull p.1 || isFin g && (isNull g || isNull p.2))))
  let num := fun (p : FVal × FVal) => numOf p.1 * numOf p.2
  let neg := fun (p : FVal × FVal) => negOf p.1 != negOf p.2
  let sum := (used.map num).sum
  let bad := fun (p : FVal × FVal) => p.1.isSig || p.2.isSig || (!(isFin p.1) && !p.1.isNan && isNull p.2) || (!(isFin p.2) && !p.2.isNan && isNull p.1)
  (used = [] → c = none) ∧
  (used ≠ [] → ∃ r, c = some r ∧
    ((∀ p ∈ used, isFin p.1 = true ∧ isFin p.2 = true) → isFin g = true →
      roundsOnce .f32 .rne false (sum * numOf g * (2 : ℚ) ^ gact) ((if sum = 0 then zeroSum .rne (used.map neg) else decide (sum < 0)) != negOf g) r) ∧
    ((∃ p ∈ used, p.1.isNan = true ∨ p.2.isNan = true ∨ bad p = true) →
      r = (0x7FC00000, if used.any bad || g.isSig then NV else 0)) ∧
    ((∀ p ∈ used, p.1.isNan = false ∧ p.2.isNan = false ∧ bad p = false) →
      (∃ p ∈ used, (isFin p.1 && isFin p.2) = false ∧ neg p = true) → (∃ p ∈ used, (isFin p.1 && isFin p.2) = false ∧ neg p = false) →
      r = (0x7FC00000, NV)))

/-- One accumulation step takes an entry from `e` to `e'` with flags `fl`: its chunks of 32 are taken in ascending order, each added to the value with one
rounding; its count goes up by one, up to 65,535, where a chunk has a product that is present, and overflow is raised where it stood there (spec/04
R113, R114). -/
def accumulates (sparse : Bool) (gact : ℤ) (w : Weights) (rows cols n : Nat) (row : List FVal) (e e' : Word × Nat) (fl : Flags) : Prop :=
  let chunks := ceilDiv rows 32
  let ks := fun (j : Nat) => (List.range rows).filter (fun k => k / 32 == j)
  let scale := fun (j : Nat) => if w.gs = 0 then FVal.fin false 1 0 else fval .f16 (w.scales.getD (32 * j / w.gs * cols + n) 0)
  let factor := fun (k : Nat) =>
    let q := w.w.getD (k * cols + n) 0
    if w.gs = 0 then elemVal w.fmt q else if isAbsent w.fmt q then .absent
    else
      let d : Int := q - (w.zps.getD (k / w.gs * cols + n) 0 : Nat)
      .fin (decide (d < 0)) d.natAbs 0
  let products := fun (j : Nat) => (ks j).map (fun k => (row.getD k .absent, factor k))
  let present := (List.range chunks).any (fun j => (products j).any (fun p => scale j != .absent && p.1 != .absent && p.2 != .absent))
  ∃ (vals : Nat → Word) (cs : Nat → Option Res) (fls : Nat → Flags), vals 0 = e.1 ∧ e'.1 = vals chunks ∧
    (∀ j < chunks, chunkComes sparse gact (scale j) (products j) (cs j) ∧
      (cs j = none → vals (j + 1) = vals j ∧ fls j = 0) ∧
      ∀ c f, cs j = some (c, f) →
        let v := fval .f32 (vals j).toNat
        isFin v = true → isFin (fval .f32 c) = true → ∃ r, roundsOnce .f32 .rne false (numOf v + numOf (fval .f32 c))
          (zeroSum .rne [negOf v, negOf (fval .f32 c)]) ((vals (j + 1)).toNat, r) ∧ fls j = f ||| r) ∧
    fl = ((List.range chunks).foldl (fun f j => f ||| fls j) 0 ||| if present = true ∧ e.2 = 65535 then OF else 0) ∧
    e'.2 = if present then min (e.2 + 1) 65535 else e.2

/-- A row of a stream is one accumulation step of each column in use, and no other entry changes (spec/14 R294). -/
def streamedValues : Prop :=
  ∀ (m : Matrix) (sparse : Bool) (gact : ℤ) (cfg : MCfg) (w : Weights) (row : List FVal) (r : Nat),
    let y := m.streamRow sparse gact cfg w row r
    y = { m with acc := y.acc, fl := y.fl } ∧ (∀ q n, (q ≠ r ∨ cfg.n ≤ n) → y.entry q n = m.entry q n) ∧
    ∃ fls : Nat → Flags, y.fl = (List.range cfg.n).foldl (fun f n => f ||| fls n) m.fl ∧
      ∀ n < cfg.n, accumulates sparse gact w cfg.k cfg.n n row (m.entry r n) (y.entry r n) (fls n)

/-- The value that a drain gives for each column, and the flags of all of them; the row that MLDA loads (spec/14 R298, R300). -/
def drainedValues : Prop :=
  ∀ (m : Matrix) (r : Nat),
    (∀ (t : Ty) (mean : Bool) (emp cols : Nat), t ∈ [Ty.f32, .f16, .bf16] →
      let out := m.drainRow t mean emp cols r
      out.1.length = cols ∧ ∃ fls : Nat → Flags, out.2 = (List.range cols).foldl (fun f n => f ||| fls n) 0 ∧
      ∀ n < cols,
        let e := m.entry r n
        let v := fval .f32 e.1.toNat
        let d : Res := (out.1.getD n 0, fls n)
        let empty := e.2 = 0 ∧ (emp = 1 ∨ emp = 2)
        (empty → d = (if emp = 1 then absentOf t else 0, 0)) ∧
        (¬ empty →
          (v.isNan = true → d = (if t = .f32 then 0x7FC00000 else if t = .f16 then 0x7E00 else 0x7FC0, if v.isSig then NV else 0)) ∧
          (∀ neg, v = .inf neg → fval t d.1 = .inf neg ∧ d.1 < 2 ^ tyWidth t ∧ d.2 = 0) ∧
          (isFin v = true → (t = .f32 → ¬ (mean = true ∧ 0 < e.2) → d = (e.1.toNat, 0)) ∧
            roundsOnce t .rne false (if mean = true ∧ 0 < e.2 then numOf v / e.2 else numOf v) (negOf v) d))) ∧
    ∀ bs : List Byte,
      let y := m.loadRow r bs
      let word := fun (a n : Nat) => ofBytesLE ((List.range n).map (fun i => byteAt bs (a + i)))
      y = { m with acc := y.acc } ∧ (∀ q n, (q ≠ r ∨ 64 ≤ n) → y.entry q n = m.entry q n) ∧
      ∀ n < 64, y.entry r n = if word (4 * n) 4 = 2 ^ 32 - 1 then (0#32, 0) else (BitVec.ofNat 32 (word (4 * n) 4), word (256 + 2 * n) 2)

/-! ### Collectives (spec/07) -/

/-- A cross-lane instruction: its word, its entry, the type of its result, and the result of a receiving lane from the participants and the
active ones. -/
structure CrossRow where
  w : IWord
  e : Entry
  td : Ty
  f : State → List LaneId → List LaneId → LaneId → Res

/-- Shuffles, quad exchanges, votes, ELECT, reductions, scans and MATCH (spec/07 R171 to R177). -/
def crossRow : Instr → Option CrossRow
  | .shfi w => some ⟨w, entryShuffle, w.t, shuffleFrom w (srcShfi w)⟩
  | .shfu w => some ⟨w, entryShuffle, w.t, shuffleFrom w (srcShfu w)⟩
  | .shfd w => some ⟨w, entryShuffle, w.t, shuffleFrom w (srcShfd w)⟩
  | .shfx w => some ⟨w, entryShuffle, w.t, shuffleFrom w (srcShfx w)⟩
  | .bcst w => some ⟨w, entryShuffle, w.t, shuffleFrom w (srcBcst w)⟩
  | .qswh w => some ⟨w, entryQuad, w.t, fun s _ _ k => (peekA s w (sibling k (Nat.xor (k.lane % 32) 1)), 0)⟩
  | .qswv w => some ⟨w, entryQuad, w.t, fun s _ _ k => (peekA s w (sibling k (Nat.xor (k.lane % 32) 2)), 0)⟩
  | .qswd w => some ⟨w, entryQuad, w.t, fun s _ _ k => (peekA s w (sibling k (Nat.xor (k.lane % 32) 3)), 0)⟩
  | .qbcst w => some ⟨w, entryShuffle, w.t, fun s _ _ k => (peekA s w (sibling k (k.lane / 4 * 4 + idxOf s w k % 4)), 0)⟩
  | .vany w => some ⟨w, entryVote, .b32, fun s _ act _ => (if act.any (fun k => peekA s w k != 0) then 1 else 0, 0)⟩
  | .vall w => some ⟨w, entryVote, .b32, fun s _ act _ => (if act.all (fun k => peekA s w k != 0) then 1 else 0, 0)⟩
  | .vbal w => some ⟨w, entryVote, .b32, fun s _ act _ => ((maskOf ((act.filter (fun k => peekA s w k != 0)).map (·.lane))).toNat, 0)⟩
  | .elect w => some ⟨w, entryElect, .b32, fun _ _ act k => (if act.head? = some k then 1 else 0, 0)⟩
  | .redw w => some ⟨w, entryReduce, w.t, redTo w (fun _ _ => true) (absentOf w.t)⟩
  | .scani w => some ⟨w, entryReduce, w.t, redTo w (fun j l => decide (j ≤ l)) (redIdentity (fld w.x 11 8) w.t)⟩
  | .scane w => some ⟨w, entryReduce, w.t, redTo w (fun j l => decide (j < l)) (redIdentity (fld w.x 11 8) w.t)⟩
  | .matchLanes w => some ⟨w, entryMatch, .b32, matchTo w⟩
  | _ => none

/-- The lanes of mask `m` of warp `v`, all of them the bundle's lanes `ks` and none in a try, stopped or parked at a Square, reach a collective
together: those
of `act` have a true guard and ready operands, the others a false guard and a readable A; no other lane of the warp stands at a
collective (spec/07 R169). -/
structure together (r : CrossRow) (s : State) (v : WarpId) (x : Warp) (ks act : List LaneId) : Prop where
  warp : s.warp? v = some x
  lanes : s.cur.lanes = ks
  mask : ks = (setBits 32 (x.masks.getD (mskOf r.w) 0#32)).map (fun i => (⟨v.gang, v.group, v.warp, i⟩ : LaneId))
  some_ : ks ≠ []
  free : ∀ k ∈ ks, sqHeld s k = false
  act_ : act = ks.filter (guardOn r.w s)
  ready : ∀ k ∈ ks, ∃ l, s.lane? k = some l ∧ l.pc = s.cur.pc ∧ l.st = .run ∧ l.stopped = false ∧ l.spec = none ∧
    ((gate r.e r.w k l s = .go ∧ crossOn r.w r.td k l s = .go) ∨
     (gate r.e r.w k l s = .skip ∧ wordTrap r.e (laneRegs s k) l.inHandler r.w = none ∧ crossOff r.w k l s = .go))
  others : ∀ p ∈ warpLanes s v, (⟨v.gang, v.group, v.warp, p.1⟩ : LaneId) ∉ ks → p.2.st.atColl = false


/-! ### Lanes that go on, wait for a delivery, or trap -/

/-- Lane `k` goes on at the next instruction, and nothing else changes. -/
def onward (s : State) (k : LaneId) : State :=
  match s.lane? k with
  | some l => s.setLane k (l.advance s)
  | none => s

/-- Lane `k`, whose record is `l`, issued a delivery: its destinations are empty, the delivery is pending and the lane goes on (spec/01
R13). -/
def awaiting (s : State) (k : LaneId) (l : Lane) (p : Pend) : State :=
  ({ s with uid := s.uid + 1 } : State).setLane k (({ l.emptyRegs p.dst with pend := l.pend ++ [{ p with id := s.uid, inTry := l.spec.isSome }] } : Lane).advance s)

/-- Lane `k` alone raised a trap at the bundle's PC, `u` being the state that its sources left (spec/03 R83). -/
def raised (u : State) (k : LaneId) (t : TrapInfo) : State := parkSub u (LaneId.wid k) u.cur.pc u.cur.len [(k.lane, t)]

/-- The byte at a location in a die's view (spec/12 R244). -/
def byteAtDie (s : State) (d loc : Nat) : Byte := memRead (s.die d).view loc

/-- The byte at an offset of a group's scratchpad allocation (spec/08 R194). -/
def byteAtGroup (s : State) (g : GroupId) (off : Nat) : Byte := match s.group? g with | some x => memRead x.spad off | none => 0#8

/-- An instruction in one lane leaves the state `t` whenever its checks pass: it is the lane's own effect at issue. -/
def issues (i : Instr) (w : IWord) (e : Entry) (s : State) (k : LaneId) (l : Lane) (t : State) : Prop :=
  alone s k l → gate e w k l s = .go → exec i s = .next t

/-! ### Requests to Squares (spec/16, spec/17) -/

/-- The Square instructions but MWAIT: the word, its entry and the shape of its request (spec/16 R313, R315, R316). -/
def squareRow : Instr → Option (IWord × Entry × SqShape)
  | .aadd w => some (w, entryAtomic sqAll, ⟨0x1C0, tyBytes w.t, destRegs w.d w.t, true⟩)
  | .amin w => some (w, entryAtomic sqInts, ⟨0x1C1, tyBytes w.t, destRegs w.d w.t, true⟩)
  | .amax w => some (w, entryAtomic sqInts, ⟨0x1C2, tyBytes w.t, destRegs w.d w.t, true⟩)
  | .aand w => some (w, entryAtomic sqBits, ⟨0x1C3, tyBytes w.t, destRegs w.d w.t, true⟩)
  | .aor w => some (w, entryAtomic sqBits, ⟨0x1C4, tyBytes w.t, destRegs w.d w.t, true⟩)
  | .axor w => some (w, entryAtomic sqBits, ⟨0x1C5, tyBytes w.t, destRegs w.d w.t, true⟩)
  | .axch w => some (w, entryAtomic sqBits, ⟨0x1C6, tyBytes w.t, destRegs w.d w.t, true⟩)
  | .acas w => some (w, entryCas, ⟨0x1C7, tyBytes w.t, destRegs w.d w.t, true⟩)
  | .aincb w => some (w, entryAtomic sqInts, ⟨0x1C8, tyBytes w.t, destRegs w.d w.t, true⟩)
  | .aincw w => some (w, entryAtomic sqInts, ⟨0x1C9, tyBytes w.t, destRegs w.d w.t, true⟩)
  | .adecz w => some (w, entryDecz, ⟨0x1CA, tyBytes w.t, destRegs w.d w.t, true⟩)
  | .aaddl w => some (w, entryAaddl, ⟨0x1CB, 16, regSpan w.d 2, true⟩)
  | .radd w => some (w, entryRed sqAll, ⟨0x1CC, tyBytes w.t, [], true⟩)
  | .rmin w => some (w, entryRed sqInts, ⟨0x1CD, tyBytes w.t, [], true⟩)
  | .rmax w => some (w, entryRed sqInts, ⟨0x1CE, tyBytes w.t, [], true⟩)
  | .dqpush w => some (w, entryDqpush, ⟨0x1CF, 32, regSpan w.d 1, true⟩)
  | .dqpop w => some (w, entryDqpop, ⟨0x1D0, 32, regSpan w.d 4, true⟩)
  | .dqsteal w => some (w, entryDqpop, ⟨0x1D1, 32, regSpan w.d 4, true⟩)
  | .marm w => some (w, entryMarm, ⟨0x1D2, tyBytes w.t, destRegs w.d w.t, false⟩)
  | _ => none

/-- The set instructions: the word, its entry and its operation (spec/17 R333, R342 to R350). -/
def setRow : Instr → Option (IWord × Entry × Nat)
  | .snew w => some (w, entrySnew, 0x200)
  | .sfree w => some (w, entrySfree, 0x201)
  | .sins w => some (w, entryElem, 0x202)
  | .sdel w => some (w, entryElem, 0x203)
  | .shas w => some (w, entryElem, 0x204)
  | .scard w => some (w, entrySet1, 0x205)
  | .suni w => some (w, entrySet3, 0x206)
  | .sint w => some (w, entrySet3, 0x207)
  | .sdif w => some (w, entrySet3, 0x208)
  | .scpy w => some (w, entryScpy, 0x209)
  | .sclr w => some (w, entrySet1, 0x20A)
  | .snext w => some (w, entryNext, 0x20B)
  | .srank w => some (w, entryNext, 0x20C)
  | .sload w => some (w, entryArr, 0x20D)
  | .sstor w => some (w, entryArr, 0x20E)
  | .scost w => some (w, entryScost, 0x20F)
  | .srep w => some (w, entryElem, 0x210)
  | _ => none

/-- The lane that a Square's request names has no open try, no lane of its gang is parked or waits to trigger, and no Stipple region of the
request's context watches: what the operation leaves concerns that lane alone. -/
structure calm (s : State) (q : SqReq) (l : Lane) : Prop where
  lane : s.lane? q.lane = some l
  spec : l.spec = none
  idle : noneParked s q.lane.gang
  late : ∀ p ∈ s.lanes, p.1.gang = q.lane.gang → p.2.trigDue = false
  watch : flg (s.mreg ⟨.dbgctl, q.ctx, 0⟩) 3 = false

/-- The one request of die `d`'s ready Square is `q`, of the lane `q.lane` whose record is `l`: the die has seen the writes that it follows, its
translation stands and its memory answers (spec/16 R312, R315). -/
structure squareAlone (s : State) (d : Nat) (q : SqReq) (l : Lane) : Prop extends calm s q l where
  die : d < 4
  up : squareUp s d = true
  queue : (s.die d).sqq = [q]
  parked : q.parked = false
  stale : q.stale = false
  sc : q.sc = false
  seen : Vec.le q.needs (s.die d).vec = true
  good : placeError s q.loc 1 q.kind = none

/-- The vector and the stamp of die `d`'s next write (spec/12 R242). -/
def nextVec (s : State) (d : Nat) : Vec := (s.die d).vec.set (domId s d) ((s.die d).vec.getD (domId s d) 0 + 1)
def nextStamp (s : State) (d : Nat) : Stamp := ⟨Vec.sum (nextVec s d), domId s d⟩

/-- The one request of die `d`'s ready Square for a set is `q`, of the lane `q.lane` whose record is `l`: neither it nor its gang waits for
anything else, and the die has seen the writes that the operation follows (spec/17 R335, R345, R355). -/
structure setAlone (s : State) (d : Nat) (q : SetReq) (l : Lane) : Prop where
  die : d < 4
  up : squareUp s d = true
  queue : (s.die d).setq = [q]
  parked : q.parked = false
  seen : Vec.le q.needs (s.die d).vec = true
  others : ∀ e ∈ operandDies s q, Vec.le (s.die e).vec (s.die d).vec = true
  lane : s.lane? q.lane = some l
  mon : l.mon = none
  spec : l.spec = none
  idle : noneParked s q.lane.gang
  late : ∀ p ∈ s.lanes, p.1.gang = q.lane.gang → p.2.trigDue = false

/-- A lane whose delivery `pid` has its answer (spec/01 R13). -/
def answered (l : Lane) (pid : Nat) (vals : Option (List Word)) (needs : Vec) : Lane :=
  { l with pend := l.pend.map (fun (p : Pend) => if p.id = pid then
      { p with vals := vals, needs := needs, fail := none, remote := p.remote && p.kind != .set && p.kind != .setArr, far := none }
      else p) }

/-- A lane whose delivery `pid` fails (spec/08 R190). -/
def unanswered (l : Lane) (pid : Nat) (f : FailInfo) : Lane :=
  { l with pend := l.pend.map (fun (p : Pend) => if p.id = pid then
      { p with vals := none, needs := Vec.zero, fail := some f, info := p.info ||| 0x10000#32
               remote := p.remote && p.kind != .set && p.kind != .setArr, far := none }
      else p) }

/-- An instruction of these rows delivers the result of its row, with its flags, once its checks pass, its operands are read and D can take
it, and goes on; nothing else changes but the queue entries it takes or pushes. -/
def delivers (row : Instr → Option Row) : Prop :=
  ∀ (i : Instr) (r : Row) (s u t : State) (k : LaneId) (l : Lane) (a b c : Nat), row i = some r → alone s k l →
    gate r.e r.w k l s = .go → queueTrap s k r.w = none → reads s k l r.w r.ts u a b c →
    delivered u k r.w r.ts.d (r.f l a b c).1 (r.f l a b c).2 = some t → exec i s = .next t

/-! ### Matrix instructions (spec/14) -/

/-- Warp `v`, whole and its 32 lanes the bundle's, none in a try, stopped or parked at a Square, reaches a matrix instruction: `on` are its lanes with a true
guard, `k` the lowest of them and `l` its record (spec/14 R281; spec/03 R81). -/
structure gathered (w : IWord) (e : Entry) (s : State) (v : WarpId) (on : List LaneId) (k : LaneId) (l : Lane) : Prop where
  warp : ∃ x, s.warp? v = some x ∧ x.masks.head? = some 0xFFFFFFFF#32
  lanes : s.cur.lanes = lanesOfWarp v
  free : ∀ j ∈ lanesOfWarp v, sqHeld s j = false
  ready : ∀ j ∈ lanesOfWarp v, ∃ m, s.lane? j = some m ∧ m.pc = s.cur.pc ∧ m.st = .run ∧ m.stopped = false ∧ m.spec = none ∧
    (gate e w j m s = .go ∨ (gate e w j m s = .skip ∧ wordTrap e (laneRegs s j) m.inHandler w = none))
  on_ : on = (lanesOfWarp v).filter (guardOn w s)
  head : on.head? = some k
  lane : s.lane? k = some l

/-- A matrix instruction that queues a command: its word and entry, the types of its operands, the command's operation and type, its
destination registers, the ranges it registers, and what it asks of its operands. -/
structure MxRow where
  w : IWord
  e : Entry
  ta : Ty
  tb : Ty
  tc : Ty
  op : Nat
  ty : Ty
  dst : List Nat
  ranges : Option (List Range)
  ok : Prop

/-- The ranges of a check that passes. -/
def rangesOf : List Range ⊕ TrapInfo → Option (List Range)
  | .inl r => some r
  | .inr _ => none

/-- Two ranges that both pass. -/
def bothRanges (x y : List Range ⊕ TrapInfo) : Option (List Range) :=
  match rangesOf x, rangesOf y with
  | some r, some q => some (r ++ q)
  | _, _ => none

/-- MWLD, MSTR, MSPR, MDRN, MZER, MLDA, MSTA, MCNT and MSYNC of an engine `m` configured as `cfg`, with operands `a`, `b` and `c` (spec/14
R290 to R302). -/
def mxRow (s : State) (k : LaneId) (m : Matrix) (cfg : MCfg) (a b c : Nat) : Instr → Option MxRow
  | .mwld w => some ⟨w, entryMwld, if flg w.x 12 then .b32 else .b64, .b32, .none, 0x243, w.t, [],
      bothRanges (mxWeights s k (flg w.x 12) a (codesLen w.t (cfg.k * cfg.n)) (max 1 (tyBytes w.t)))
        (mxSpad s k b (if isQuant w.t then scalesLen cfg.k cfg.n (gsOf (fld w.x 17 16)) else 0) 2 false),
      (gsOf (fld w.x 17 16) = 0 ↔ isQuant w.t = false)⟩
  | .mstr w => some ⟨w, entryMstr, .b32, .b32, .b32, 0x244, if w.t = .none then cfg.afmt else w.t, [],
      rangesOf (mxRows s k a c (if w.a = .q 12 then 0 else b) (cfg.k * tyBytes (if w.t = .none then cfg.afmt else w.t))
        (tyBytes (if w.t = .none then cfg.afmt else w.t)) false),
      tileOk m w b = true ∧ ∃ wt, m.pendingFmt = some wt ∧ formatsPair wt (if w.t = .none then cfg.afmt else w.t) = true⟩
  | .mspr w => some ⟨w, entryMstr, .b32, .b32, .b32, 0x245, if w.t = .none then cfg.afmt else w.t, [],
      rangesOf (mxRows s k a c (if w.a = .q 12 then 0 else b) (cfg.k * tyBytes (if w.t = .none then cfg.afmt else w.t))
        (tyBytes (if w.t = .none then cfg.afmt else w.t)) false),
      tileOk m w b = true ∧ ∃ wt, m.pendingFmt = some wt ∧ formatsPair wt (if w.t = .none then cfg.afmt else w.t) = true⟩
  | .mdrn w => some ⟨w, entryMdrn, .b32, .b32, .b32, 0x246, w.t, regSpan w.d 2,
      (rangesOf (mxRows s k a c (if w.d = .none then b else 0) (cfg.n * tyBytes w.t) (tyBytes w.t) true)).map (rowRanges b (cfg.n * tyBytes w.t) c),
      tileOk m w (if regSpan w.d 2 = [] then b else 1) = true⟩
  | .mzer w => some ⟨w, entryMzer, .none, .none, .none, 0x247, w.t, [], some [], (m.tile (fld w.x 2 0)).2 ≠ 0⟩
  | .mlda w => some ⟨w, entryMlda, .b32, .b32, .none, 0x248, w.t, [], rangesOf (mxSpad s k a (384 * b) 4 false), a % 4 = 0 ∧ tileOk m w b = true⟩
  | .msta w => some ⟨w, entryMlda, .b32, .b32, .none, 0x249, w.t, [], rangesOf (mxSpad s k a (384 * b) 4 true), a % 4 = 0 ∧ tileOk m w b = true⟩
  | .mcnt w => some ⟨w, entryMcnt, .none, .none, .none, 0x24A, w.t, destRegs w.d .b32, some [], tileOk m w 1 = true⟩
  | .msync w => some ⟨w, entryMsync, .none, .none, .none, 0x24B, w.t, destRegs w.d .b32, some [], w.d ≠ .z⟩
  | _ => none

/-! ### Stream commands (spec/13) -/

/-- A stream instruction that a command engine takes: its word and entry, its operation, and the types of A, B, C and D (spec/13 R254). -/
structure CmdRow where
  w : IWord
  e : Entry
  op : Nat
  ts : Tys

/-- CPY, CPYW and its CLR form, CPYT, ISGO, ISSTP, SWEEP and SRD. -/
def cmdRow : Instr → Option CmdRow
  | .cpy w => some ⟨w, entryCpy, 0x280, ⟨dirTy (flg w.x 13), dirTy (flg w.x 14), .b32, .b32⟩⟩
  | .cpyw w => some ⟨w, entryCpyw, 0x281, ⟨dirTy (flg w.x 13), dirTy (flg w.x 14), .b32, .b64⟩⟩
  | .cpywClr w => some ⟨w, entryCpywClr, 0x281, ⟨.none, .none, .none, .b64⟩⟩
  | .cpyt w => some ⟨w, entryCpyt, 0x282, ⟨.none, .none, .none, .b32⟩⟩
  | .isgo w => some ⟨w, entryIsgo, 0x286, ⟨.none, .none, .none, .b32⟩⟩
  | .isstp w => some ⟨w, entryIsstp, 0x287, ⟨.none, .none, .none, .none⟩⟩
  | .sweep w => some ⟨w, entrySweep, 0x289, ⟨.none, .b32, .none, .b32⟩⟩
  | .srd w => some ⟨w, entrySrd, 0x28A, ⟨dirTy (flg w.x 13), .b64, .b32, .b32⟩⟩
  | _ => none

/-- The command of a word with its operands (spec/13 R255, R256). -/
def commandOf (r : CmdRow) (a b c : Nat) : CmdArgs :=
  { op := r.op, ty := r.w.t, x := r.w.x, av := a, bv := b, cv := c, note := flg r.w.x 12, cpl := 0, port := false }

/-! ### Checks -/

/-- The instructions whose lanes each go through the checks of R57 by themselves, with the entry that names what those checks ask. -/
def checked : Instr → Option (IWord × Entry)
  | .nop w => some (w, entryNone)
  | .yield w => some (w, entryNone)
  | .bra w => some (w, entryBra)
  | .brx w => some (w, entryPair)
  | .ret w => some (w, entryPair)
  | .call w => some (w, entryCall)
  | .callx w => some (w, entryCallx)
  | .loop w => some (w, entryLoop)
  | .loopx w => some (w, entryLoopx)
  | .lbrk w => some (w, entryLbrk)
  | .mget w => some (w, entryMget)
  | .feset w => some (w, entryFe)
  | .feclr w => some (w, entryFe)
  | .idiv w => some (w, entryIdiv)
  | .irem w => some (w, entryIrem)
  | .bexp w => some (w, entryBexp)
  | .amxrec w => some (w, entryAmxrec)
  | .amxget w => some (w, entryAmxget)
  | .ld w => some (w, entryLd)
  | .st w => some (w, entrySt)
  | .lds w => some (w, entryLds)
  | .sts w => some (w, entrySts)
  | .ldc w => some (w, entryLds)
  | .pref w => some (w, entryPref)
  | .fence w => some (w, entryFence)
  | .tryOpen w => some (w, entryTry)
  | .commit w => some (w, entryCommit)
  | .abortTry w => some (w, entryAbort)
  | .tstat w => some (w, entryTstat)
  | .qcfg w => some (w, entryQcfg)
  | .qlen w => some (w, entryQlen)
  | .qrst w => some (w, entryQrst)
  | .mwait w => some (w, entryMwait)
  | .chwp w => some (w, entryChwp)
  | .swait w => some (w, entrySwait)
  | .swaitAll w => some (w, entrySwaitAll)
  | .iscfg w => some (w, entryIscfg)
  | .itdef w => some (w, entryItdef)
  | .trap w => some (w, entryTrap)
  | .tret w => some (w, entryTret 0)
  | .tretSkip w => some (w, entryTret 1)
  | .tretEndg w => some (w, entryTret 2)
  | .tretEndr w => some (w, entryTret 3)
  | .mfs w => some (w, entryMfs)
  | .mts w => some (w, entryMts)
  | .lnch w => some (w, entryLnch)
  | .ltrig w => some (w, entryNone)
  | .idem w => some (w, entryNone)
  | .watch w => some (w, entryWatch)
  | .unwatch w => some (w, entryUnwatch)
  | .cntr w => some (w, entryCntr)
  | .cntrst w => some (w, entryNone)
  | .tmark w => some (w, entryTmark)
  | i =>
    match integerRow i <|> floatRow i <|> conversionRow i <|> specialRow i <|> pixelRow i with
    | some r => some (r.w, r.e)
    | none =>
      match squareRow i with
      | some (w, e, _) => some (w, e)
      | none =>
        match setRow i with
        | some (w, e, _) => some (w, e)
        | none => (cmdRow i).map (fun r => (r.w, r.e))

/-! ### Invariants -/

/-- Every memory of the state is in canonical form (spec/01 R23; spec/12 R244; spec/08 R194). -/
def orderly (s : State) : Prop :=
  (∀ p ∈ s.dies, p.2.view.wf = true) ∧ (∀ p ∈ s.groups, p.2.spad.wf = true)

end Sys2Proof.Claims
end

