-- ==== Sys2Proof/Certificates/Slice0/Obligations.lean ====
section
/-! DEFINITION. The statements about the machine, for the provers: each formalises rules of spec/ that its docstring names. -/

open Sys2Proof Sys2Proof.Machine Sys2Proof.Claims

/-! ### Encoding and the step -/

/-- Every well-formed instruction is what the fill unit decodes from its encoding, with no byte left over (spec/02 R33 to R36, R43, R45, R50, R58). -/
def Obligations.DecodeEncode : Prop :=
  ∀ i : Instr, i.wf = true → i.word.isSome = true → decode (encode i) = some (i, [])

/-- No instruction and no event of the device stops the machine: each answers a next state in every state (spec/95).
It follows the model's readings of log entry 3. -/
def Obligations.EveryInstructionAnswers : Prop :=
  ∀ (i : Instr) (s : State), ∃ t, exec i s = .next t

/-- A step stops only where the agenda names a unit that the module does not have; else it answers a next state (spec/00 R1, spec/01 R25).
It follows the model's readings of log entry 1. -/
def Obligations.EveryStepAnswers : Prop :=
  ∀ s : State, (∀ c r, s.agenda = c :: r → s.forced = [] →
      match c with
      | .event i => i.wf = true
      | .cycles core _ => core < 192
      | .evict die _ => die < 4
      | .blockErr die _ _ => die < 4
      | .portError port _ => port < 16
      | _ => True) → ∃ t, step s = .next t

/-! ### Control (spec/05) -/

/-- NOP, YIELD and PREF change nothing in a lane but its PC, which advances to the next instruction; FENCE does so once the lane's Square and set
operations are performed, and FENCE.sc at a scope beyond the die applies every write on its way (R116, R127, R192, R193; spec/12 R245, R246).
It follows the model's readings of log entry 21. -/
def Obligations.InstructionsThatOnlyGoOn : Prop :=
  (∀ (s : State) (k : LaneId) (l : Lane) (w : IWord), alone s k l → gate entryNone w k l s = .go →
    exec (.nop w) s = .next (s.setLane k (l.advance s)) ∧ exec (.yield w) s = .next (s.setLane k (l.advance s))) ∧
  (∀ (s : State) (k : LaneId) (l : Lane) (w : IWord),
    issues (.pref w) w entryPref s k l (onward s k) ∧
    (l.quiet = true → (ordOf w ≠ 4 ∨ scpOf w < 5) → issues (.fence w) w entryFence s k l (onward s k)) ∧
    (l.quiet = true → ordOf w = 4 → 5 ≤ scpOf w → issues (.fence w) w entryFence s k l (onward (drainAll s) k)))

/-- A branch goes to the next address plus X or to pair(A), whatever stands there; CALL and CALLX fill pair(D) with the next address, and the lane
waits while a register of the pair awaits a delivery; the target is read before the link is written (R119). -/
def Obligations.BranchesGoToTheirTargets : Prop :=
  ∀ (s : State) (k : LaneId) (l : Lane) (w : IWord) (a : Nat), alone s k l →
    let next := s.cur.pc + BitVec.ofNat 64 s.cur.len
    let there := next + w.x.signExtend 64
    (gate entryBra w k l s = .go → w.d = .none → exec (.bra w) s = .next (s.setLane k (l.goto there))) ∧
    (gate entryPair w k l s = .go → w.d = .none → readSrc s k l w w.a w.wa .b64 = .val s a →
      exec (.brx w) s = .next (s.setLane k (l.goto (BitVec.ofNat 64 a))) ∧
      exec (.ret w) s = .next (s.setLane k (l.goto (BitVec.ofNat 64 a)))) ∧
    ∀ r, w.d = .g r →
      let full := l.regsFull [r, r + 1] = true
      let linked := (l.setReg r (next.setWidth 32)).setReg (r + 1) ((next >>> 32).setWidth 32)
      let waits : State := { s with blocked := k :: s.blocked }
      (gate entryCall w k l s = .go →
        (full → exec (.call w) s = .next (s.setLane k (linked.goto there))) ∧ (¬ full → exec (.call w) s = .next waits)) ∧
      (gate entryCallx w k l s = .go → readSrc s k l w w.a w.wa .b64 = .val s a →
        (full → exec (.callx w) s = .next (s.setLane k (linked.goto (BitVec.ofNat 64 a)))) ∧ (¬ full → exec (.callx w) s = .next waits))

/-- Wherever a PC moves by the means of R130: with no active loop that ends there it is the PC. Else the active loops that end there count, the most
recent first: each that is on its last pass ends, its counter 0, and the next one counts; the first that is not goes back to its start, and where none
is left the PC is the address. Loops that end elsewhere count nothing (R128, R130). -/
def Obligations.EndCheckCountsOnePass : Prop :=
  ∀ (l : Lane) (a : Addr),
    ((∀ x ∈ l.loops, x.act = true → x.stop ≠ a) → l.goto a = { l with pc := a }) ∧
    ∀ last rest : List Nat,
      (loopOrder l).filter (fun n => (l.loops[n]?).any (fun (x : LoopRec) => x.act && x.stop == a)) = last ++ rest →
      (∀ n ∈ last, l.lc.getD n 0#32 = 1#32) →
      let ended := last.foldl (fun (m : Lane) n => ({ m with lc := m.lc.set n 0#32 } : Lane).loopOff n) l
      (rest = [] → l.goto a = { ended with pc := a }) ∧
      ∀ n r x, rest = n :: r → l.loops[n]? = some x → l.lc.getD n 0#32 ≠ 1#32 →
        l.goto a = { ended with lc := ended.lc.set n (l.lc.getD n 0#32 - 1#32), pc := x.start }

/-- LOOP and LOOPX start a loop of A or X[31:16] passes from the next instruction, skip a loop of no passes, and LBRK ends one with its counter kept;
a counter in use, or idle at LBRK, traps with its number (R129, R131). -/
def Obligations.LoopsStartAndEnd : Prop :=
  ∀ (s : State) (k : LaneId) (l : Lane) (w : IWord) (c a : Nat), alone s k l → w.d = .lc c →
    let next := s.cur.pc + BitVec.ofNat 64 s.cur.len
    let trapped := fun (cause : Cause) => parkSub s (LaneId.wid k) s.cur.pc s.cur.len [(k.lane, TrapInfo.plain cause (BitVec.ofNat 32 c))]
    (gate entryLoop w k l s = .go →
      (loopAct l c = true → exec (.loop w) s = .next (trapped .loopNest)) ∧
      (loopAct l c = false → w.x.toInt ≤ 0 → exec (.loop w) s = .next (trapped .loopRange)) ∧
      (loopAct l c = false → 0 < w.x.toInt → readSrc s k l w w.a w.wa .n32 = .val s a → a < 2 ^ 32 - 1 →
        (a = 0 → (∀ r ∈ l.loops, r.act = true → r.stop ≠ next + w.x.signExtend 64) →
          exec (.loop w) s = .next (s.setLane k { l with pc := next + w.x.signExtend 64 })) ∧
        (a ≠ 0 → exec (.loop w) s =
          .next (s.setLane k ((l.loopOn c next (next + w.x.signExtend 64) (BitVec.ofNat 32 a)).goto next))))) ∧
    (gate entryLoopx w k l s = .go →
      (loopAct l c = true → exec (.loopx w) s = .next (trapped .loopNest)) ∧
      (loopAct l c = false → fld w.x 15 0 = 0 → exec (.loopx w) s = .next (trapped .loopRange)) ∧
      (loopAct l c = false → fld w.x 15 0 ≠ 0 →
        let stop := next + BitVec.ofNat 64 (fld w.x 15 0)
        (fld w.x 31 16 = 0 → (∀ r ∈ l.loops, r.act = true → r.stop ≠ stop) → exec (.loopx w) s = .next (s.setLane k { l with pc := stop })) ∧
        (fld w.x 31 16 ≠ 0 → exec (.loopx w) s =
          .next (s.setLane k ((l.loopOn c next stop (BitVec.ofNat 32 (fld w.x 31 16))).goto next))))) ∧
    (gate entryLbrk w k l s = .go →
      (loopAct l c = false → exec (.lbrk w) s = .next (trapped .loopNest)) ∧
      ∀ r, l.loops[c]? = some r → r.act = true → exec (.lbrk w) s = .next (s.setLane k ((l.loopOff c).goto r.stop)))

/-- Where nobody is parked, JOIN sets and LEAVE clears the lane's bit of mask D; MSET, MAND, MOR and MNOT write mask D of the warp with their value
cut to m0, and nothing else changes but the PC; MGET delivers mask A as it stands (R121, R123, R124). -/
def Obligations.MasksAreReadAndWritten : Prop :=
  (∀ (s : State) (k : LaneId) (l : Lane) (x : Warp) (w : IWord) (m b : Nat), alone s k l → s.warp? (LaneId.wid k) = some x →
    noneParked s k.gang → w.d = .m m →
    let bit : Word := 1#32 <<< k.lane
    let m0 := x.masks.getD 0 0#32
    let mask := fun (o : Operand) => x.masks.getD (maskNo o) 0#32
    let written := fun (v : Word) => (s.setLane k (l.advance s)).setWarp (LaneId.wid k) { x with masks := x.masks.set m v }
    (gate entryJoin w k l s = .go →
      exec (.join w) s = .next (written (x.masks.getD m 0#32 ||| bit)) ∧
      exec (.leave w) s = .next (written (x.masks.getD m 0#32 &&& ~~~bit))) ∧
    (gate entryMset w k l s = .go → readSrc s k l w w.b w.wb .b32 = .val s b →
      exec (.mset w) s = .next (written (BitVec.ofNat 32 b &&& m0))) ∧
    (gate entryMand w k l s = .go →
      exec (.mand w) s = .next (written (mask w.a &&& mask w.b &&& m0)) ∧
      exec (.mor w) s = .next (written ((mask w.a ||| mask w.b) &&& m0))) ∧
    (gate entryMnot w k l s = .go → exec (.mnot w) s = .next (written (~~~mask w.a &&& m0)))) ∧
  (∀ (s u : State) (k : LaneId) (l : Lane) (x : Warp) (w : IWord), alone s k l → s.warp? (LaneId.wid k) = some x →
    gate entryMget w k l s = .go → delivered s k w .b32 (x.masks.getD (maskNo w.a) 0#32).toNat 0 = some u →
    exec (.mget w) s = .next u)

/-- FESET and FECLR deliver the old sticky flags to a register D and set or clear those that B names (R138). -/
def Obligations.StickyFlagsAreSetAndCleared : Prop :=
  ∀ (s u : State) (k : LaneId) (l m : Lane) (w : IWord) (b : Nat), alone s k l → gate entryFe w k l s = .go →
    readSrc s k l w w.b w.wb .b32 = .val s b → delivered s k w .b32 l.fflags.toNat 0 = some u → u.lane? k = some m →
    exec (.feset w) s = .next (u.setLane k { m with fflags := l.fflags ||| BitVec.ofNat 6 b }) ∧
    exec (.feclr w) s = .next (u.setLane k { m with fflags := l.fflags &&& ~~~BitVec.ofNat 6 b })

/-- EXIT ends its lane: where no lane of the gang is parked and the exit does not complete the grid's trigger, the lane has exited with its loop
records cleared, its try and monitor gone and its registers as they were, and its bit is gone from every mask (R120; spec/03 R77).
It follows the model's readings of log entry 36. -/
def Obligations.ExitEndsTheLane : Prop :=
  ∀ (s : State) (k : LaneId) (l : Lane) (x : Warp) (w : IWord), alone s k l → s.warp? (LaneId.wid k) = some x →
    noneParked s k.gang → l.st ≠ .exited → gate entryNone w k l s = .go →
    (l.triggered = true ∨ ∀ g r, s.gang? k.gang = some g → s.grid? g.grid = some r → r.trig + 1 ≠ r.nlanes) →
    ∃ t m y, exec (.exit w) s = .next t ∧ t.lane? k = some m ∧ m.st = .exited ∧ (∀ r ∈ m.loops, r.act = false) ∧ m.spec = none ∧
      m.mon = none ∧ m.regs = l.regs ∧ t.warp? (LaneId.wid k) = some y ∧ y.masks = x.masks.map (· &&& ~~~(1#32 <<< k.lane))

/-- WAITM parks its lane until every lane of the mask is parked on it; a lane that the mask alone holds goes on at once, and the last lane to arrive
releases all of them, each to its own next instruction, once the writes of their Square operations are seen; one whose bit is clear raises
MASK_MISMATCH (R122, R126).
It follows the model's readings of log entry 21. -/
def Obligations.WaitmWaitsForItsMask : Prop :=
  ∀ (s : State) (k : LaneId) (l : Lane) (x : Warp) (w : IWord) (m : Nat), alone s k l → s.warp? (LaneId.wid k) = some x →
    l.st = .run → l.stopped = false → k.lane < 32 → w.a = .m m → m < 12 → gate entryWaitm w k l s = .go →
    let mask := x.masks.getD m 0#32
    let next := s.cur.pc + BitVec.ofNat 64 s.cur.len
    let lane := fun (i : Nat) => ({ k with lane := i } : LaneId)
    (∀ back : Nat → Addr, flg mask k.lane = true → back k.lane = next → outstanding s k = false →
      (∀ i < 32, i ≠ k.lane → flg mask i = true → outstanding s (lane i) = false ∧
        ∃ p, s.lane? (lane i) = some p ∧ p.st = .waitm m (back i) ∧ p.stopped = false) →
      (∀ i < 32, i ≠ k.lane → flg mask i = false → ∀ p, s.lane? (lane i) = some p → p.st.parked = false) →
      exec (.waitm w) s = .next (release (drainTo (s.setLane k { l with st := .waitm m next }) (groupDie s (LaneId.grp k)))
        (((List.range 32).filter (fun i => flg mask i)).map (fun i => (lane i, back i))))) ∧
    (noneParked s k.gang →
    (mask = 1#32 <<< k.lane → outstanding s k = false → exec (.waitm w) s =
      .next (release (drainTo (s.setLane k { l with st := .waitm m next }) (groupDie s (LaneId.grp k))) [(k, next)])) ∧
    (∀ i < 32, i ≠ k.lane → flg mask i = true → flg mask k.lane = true →
      exec (.waitm w) s = .next (s.setLane k { l with st := .waitm m next })) ∧
    (flg mask k.lane = false → exec (.waitm w) s =
      .next (recheckWaits (parkSub s (LaneId.wid k) s.cur.pc s.cur.len [(k.lane, TrapInfo.plain .maskMismatch 0)]) (LaneId.wid k))))

/-- BARG and BARN park their lane until every unexited lane of its group, or of its gang, is parked on the same barrier; the only such lane goes on at
once, and the last to arrive releases all of them, each to its own next instruction, once the writes of their Square operations are seen; an id out of
range raises BARRIER_MISMATCH with the id's low bits, the instruction and bit 4 in xinfo (R134, R135).
It follows the model's readings of log entry 21. -/
def Obligations.BarriersWaitForTheirLanes : Prop :=
  ∀ (s : State) (k : LaneId) (l : Lane) (w : IWord) (b : Nat), alone s k l → l.st = .run → l.stopped = false →
    s.cur.gang = k.gang → gate entryBar w k l s = .go → readSrc s k l w w.b w.wb .b32 = .val s b →
    let next := s.cur.pc + BitVec.ofNat 64 s.cur.len
    let group := s.lanes.filter (fun p => LaneId.grp p.1 == LaneId.grp k && p.2.st != .exited)
    let gang := s.lanes.filter (fun p => p.1.gang == k.gang && p.2.st != .exited)
    let freed := fun (m : Lane) =>
      let parked := s.setLane k m
      release (match s.gang? k.gang with | some x => drainTo parked x.die | none => parked) [(k, next)]
    let all := fun (m : Lane) (ls : List (LaneId × Lane)) =>
      let parked := s.setLane k m
      release (match s.gang? k.gang with | some x => drainTo parked x.die | none => parked)
        (ls.filterMap (fun p => if p.1 = k then some (k, next) else p.2.st.barrier.map (fun x => (p.1, x.2.2))))
    let waiting := fun (at_ : Addr → TState) (ls : List (LaneId × Lane)) => ls.filter (fun p => p.1 == k) = [(k, l)] ∧ outstanding s k = false ∧
      ∀ p ∈ ls, p.1 ≠ k → (∃ a, p.2.st = at_ a) ∧ p.2.stopped = false ∧ outstanding s p.1 = false
    (b < 8 → k.group < 4 → (s.group? (LaneId.grp k)).isSome → waiting (.barg b) group →
      (∀ p ∈ gang, LaneId.grp p.1 ≠ LaneId.grp k → p.2.st.parked = false) →
      exec (.barg w) s = .next (all { l with st := .barg b next } group)) ∧
    (b < 4 → waiting (.barn b) gang → exec (.barn w) s = .next (all { l with st := .barn b next } gang)) ∧
    (noneParked s k.gang →
    (b < 8 → (∃ p ∈ group, p.1 ≠ k) → exec (.barg w) s = .next (s.setLane k { l with st := .barg b next })) ∧
    (b < 4 → (∃ p ∈ gang, p.1 ≠ k) → exec (.barn w) s = .next (s.setLane k { l with st := .barn b next })) ∧
    (b < 8 → group = [(k, l)] → k.group < 4 → (s.group? (LaneId.grp k)).isSome → outstanding s k = false →
      exec (.barg w) s = .next (freed { l with st := .barg b next })) ∧
    (b < 4 → gang = [(k, l)] → outstanding s k = false → exec (.barn w) s = .next (freed { l with st := .barn b next })) ∧
    (8 ≤ b → exec (.barg w) s = .next (recheckBars (parkSub s (LaneId.wid k) s.cur.pc s.cur.len
      [(k.lane, TrapInfo.plain .barrierMismatch (BitVec.ofNat 32 (b % 8 + 16)))]) k.gang)) ∧
    (4 ≤ b → exec (.barn w) s = .next (recheckBars (parkSub s (LaneId.wid k) s.cur.pc s.cur.len
      [(k.lane, TrapInfo.plain .barrierMismatch (BitVec.ofNat 32 (b % 8 + 24)))]) k.gang)))

/-! ### Arithmetic (spec/06) -/

/-- The integer, float, packed, conversion, special and pixel groups deliver their rows' results (R144 to R158, R161 to R164), and these hold the
values that the rules give: the counts and orders of bits of POPC, CLZ, CTZ, BREV and PRMB (R144, R149), the pixels of the pixel group (R163, R164),
the exact cases and flags of the special functions with RCP and SQRT rounded once (R162), the halves of HADD2, HMUL2 and HFMA2 and the sum of FDOT2
(R156), and the codes of QGRP and the products of DQGRP (R158, R104, R105). IDIV and IREM deliver the quotient rounded toward zero and the remainder
of the sign of A; an absent operand goes by R95; a zero B raises INT_DIV_ZERO with xinfo 0 after the sources were read (R144, R145).
It follows the model's readings of log entries 8, 39 and 40. -/
def Obligations.ResultsAreDelivered : Prop :=
  (Claims.delivers (fun i => integerRow i <|> floatRow i <|> conversionRow i <|> specialRow i <|> pixelRow i)) ∧
  bitValues ∧ pixelValues ∧ specialValues ∧ packedValues ∧ groupValues ∧
  (∀ (s u t : State) (k : LaneId) (l : Lane) (w : IWord) (a b c : Nat), alone s k l → queueTrap s k w = none →
     reads s k l w (tysT w) u a b c →
     let result := fun (f : Int → Int → Int) =>
       if isAbsent w.t a ∧ isAbsent w.t b then (absentOf w.t, (0 : Flags))
       else if isAbsent w.t a ∨ isAbsent w.t b then (absentOf w.t, AP)
       else (intCode w.t (f (intVal w.t a) (intVal w.t b)), 0)
     let goes := fun (f : Int → Int → Int) => delivered u k w w.t (result f).1 (result f).2 = some t
     let ok := b ≠ 0 ∨ isAbsent w.t a ∨ isAbsent w.t b
     let trapped := parkSub u (LaneId.wid k) s.cur.pc s.cur.len [(k.lane, TrapInfo.plain .intDivZero 0)]
     (gate entryIdiv w k l s = .go → (ok → goes Int.tdiv → exec (.idiv w) s = .next t) ∧ (¬ ok → exec (.idiv w) s = .next trapped)) ∧
     (gate entryIrem w k l s = .go → (ok → goes Int.tmod → exec (.irem w) s = .next t) ∧ (¬ ok → exec (.irem w) s = .next trapped)))

/-- At 32 and at 64 bits, sums, differences and products of iN and nN that do not fit are clamped with overflow raised; on bN they wrap. An operand
that is absent makes the result absent with the absent-produced flag, both absent without it, and `.ai` takes the identity of its place instead. ISET
compares iN signed and nN and bN unsigned, raises nothing, and an absent iN or nN operand in either place makes every condition false (R95, R98, R101,
R143, R146). -/
def Obligations.IntegersFollowTheirTypes : Prop :=
  (∀ (w : Nat) (ti tn tb : Ty), (w, ti, tn, tb) ∈ [(32, Ty.i32, Ty.n32, Ty.b32), (64, Ty.i64, Ty.n64, Ty.b64)] → ∀ (a b : BitVec w),
     let least : BitVec w := BitVec.ofNat w (2 ^ (w - 1))
     let ones : BitVec w := BitVec.allOnes w
     (∀ (ai : Bool) (ids : List Nat) (f : Int → Int → Int),
       (a ≠ least → b ≠ least →
         let x := f a.toInt b.toInt
         intBin ti ai ids f a.toNat b.toNat =
           if 2 ^ (w - 1) - 1 < x then (2 ^ (w - 1) - 1, OF) else if x < -(2 ^ (w - 1) - 1) then (2 ^ (w - 1) + 1, OF)
           else ((BitVec.ofInt w x).toNat, 0)) ∧
       (a ≠ ones → b ≠ ones →
         let x := f a.toNat b.toNat
         intBin tn ai ids f a.toNat b.toNat = if 2 ^ w - 2 < x then (2 ^ w - 2, OF) else if x < 0 then (0, OF) else (x.toNat, 0)) ∧
       intBin tb ai ids f a.toNat b.toNat = ((BitVec.ofInt w (f a.toNat b.toNat)).toNat, 0)) ∧
     let holds := fun (eq lt : Bool) (cnd : Nat) => b2n (match cnd with
       | 0 => eq | 1 => !eq | 2 => lt | 3 => lt || eq | 4 => !(lt || eq) | _ => !lt)
     ∀ cnd < 6,
       (a ≠ least → b ≠ least → isetVal ti cnd a.toNat b.toNat = (holds (a == b) (a.slt b) cnd, 0)) ∧
       (a ≠ ones → b ≠ ones → isetVal tn cnd a.toNat b.toNat = (holds (a == b) (a.ult b) cnd, 0)) ∧
       isetVal tb cnd a.toNat b.toNat = (holds (a == b) (a.ult b) cnd, 0) ∧
       (a = least ∨ b = least → isetVal ti cnd a.toNat b.toNat = (0, 0)) ∧
       (a = ones ∨ b = ones → isetVal tn cnd a.toNat b.toNat = (0, 0))) ∧
  ∀ (t : Ty) (a b i j : Nat) (f : Int → Int → Int),
    let gone := absentOf t
    let result := fun (x y : Nat) => intRes t (f (intVal t x) (intVal t y))
    (isAbsent t a = false → isAbsent t b = false → ∀ ai, intBin t ai [i, j] f a b = result a b) ∧
    (isAbsent t a = true → isAbsent t b = false → intBin t false [i, j] f a b = (gone, AP) ∧ intBin t true [i, j] f a b = result i b) ∧
    (isAbsent t a = false → isAbsent t b = true → intBin t false [i, j] f a b = (gone, AP) ∧ intBin t true [i, j] f a b = result a j) ∧
    (isAbsent t a = true → isAbsent t b = true → ∀ ai, intBin t ai [i, j] f a b = (gone, 0))

/-- Shifts by the width or more give 0, or the sign in every bit, and a rotation goes by its count modulo the width; BFX takes the field at pos of the
length that fits, and BFI puts B there, a field of no bits giving 0 or A; LEA adds the index, sign-extended or with UX zero-extended, shifted left by
SH, to the 64-bit base modulo 2^64, a literal index being signed (R147, R148, R150). -/
def Obligations.BitsShiftsAndAddresses : Prop :=
  ∀ (w : IWord) (l : Lane) (z : Nat),
    let gives := fun (i : Instr) (a b v : Nat) => (integerRow i).map (fun r => r.f l a b z) = some (v, 0)
    let shifts := fun (n : Nat) (a shl shr sar rot : Nat) =>
      gives (.shl w) a n shl ∧ gives (.shr w) a n shr ∧ gives (.sar w) a n sar ∧ gives (.rot w) a n rot
    (w.t = .b32 → ∀ (a : Word) (n : Nat),
      shifts n a.toNat (a <<< n).toNat (a >>> n).toNat (a.sshiftRight n).toNat (a.rotateLeft (n % 32)).toNat) ∧
    (w.t = .b64 → ∀ (a : BitVec 64) (n : Nat),
      shifts n a.toNat (a <<< n).toNat (a >>> n).toNat (a.sshiftRight n).toNat (a.rotateLeft (n % 64)).toNat) ∧
    (∀ (n : Nat) (a b : BitVec n) (pos len hi : Nat), tyWidth w.t = n → w.t ∈ [Ty.b32, .b64, .i32, .i64] → pos < 256 → len < 256 →
      let ctl := pos + 256 * len + 65536 * hi
      let m := if n ≤ pos then 0 else min len (n - pos)
      let signed := w.t = .i32 ∨ w.t = .i64
      (∃ v, gives (.bfx w) a.toNat ctl v ∧
        ∀ i < n, natBit v i = if i < m then a.getLsbD (pos + i) else decide (signed ∧ 0 < m ∧ a.getLsbD (pos + m - 1) = true)) ∧
      (¬ signed → ∃ v, (integerRow (.bfi w)).map (fun r => r.f l a.toNat b.toNat ctl) = some (v, 0) ∧
        ∀ i < n, natBit v i = if pos ≤ i ∧ i < pos + m then b.getLsbD (i - pos) else a.getLsbD i)) ∧
    ∀ (a : Addr) (b : Word) (sh : Nat), sh < 5 → fld (modsOf w) 2 0 = sh →
      let index := if flg (modsOf w) 3 = true ∧ w.b ≠ .imm then b.setWidth 64 else b.signExtend 64
      gives (.lea w) a.toNat b.toNat (a + (index <<< sh)).toNat

/-- Rounding to a multiple of 2^q: to the nearest with ties to the even multiple, toward zero, up or down; it is inexact just where the value is no
multiple. FADD, FSUB, FMUL and FFMA of numbers are the exact sum, difference, product or product and sum, rounded once, and an exact zero has the sign
of R99. CVT is the exact value, times 2^(127 − B) where B names a block exponent, rounded once to the destination's float format or, clamped to its
range, to its integers (R99, R100, R102, R103, R152, R157; R92).
It follows the model's readings of log entry 39. -/
def Obligations.RoundingFollowsItsMode : Prop :=
  (∀ (mode : RMode) (neg : Bool) (n d : Nat) (e q : Int), 0 < d →
     let a : Int := shiftUp n (e - q)
     let b : Int := shiftDn d (e - q)
     let k : Int := (roundAt mode neg n d e q).1
     ((roundAt mode neg n d e q).2 = false ↔ k * b = a) ∧
     (mode = .rne → 2 * |k * b - a| ≤ b ∧ (2 * |k * b - a| = b → k % 2 = 0)) ∧
     (mode = .rz ∨ (mode = .ru ∧ neg = true) ∨ (mode = .rd ∧ neg = false) → k * b ≤ a ∧ a < (k + 1) * b) ∧
     ((mode = .ru ∧ neg = false) ∨ (mode = .rd ∧ neg = true) → (k - 1) * b < a ∧ a ≤ k * b)) ∧
  ∀ (w : IWord) (l : Lane) (a b c : Nat),
    (let x := fval .f32 a
     let y := fval .f32 b
     let z := fval .f32 c
     let mode := modeOf w l
     let once := fun (i : Instr) (v : ℚ) (zero : Bool) =>
       ∃ r, (floatRow i).map (fun row => row.f l a b c) = some r ∧ roundsOnce .f32 mode (satOf w) v zero r
     isFin x = true → isFin y = true →
       once (.fadd w) (numOf x + numOf y) (zeroSign mode (negOf x) (negOf y)) ∧
       once (.fsub w) (numOf x - numOf y) (zeroSign mode (negOf x) (!negOf y)) ∧
       once (.fmul w) (numOf x * numOf y) (negOf x != negOf y) ∧
       (isFin z = true → once (.ffma w) (numOf x * numOf y + numOf z) (zeroSign mode (negOf x != negOf y) (negOf z)))) ∧
    (let src := cvtSrc w
     let dst := w.t
     let mode := RMode.ofCode (fld w.x 2 0) l.rm
     let sat := flg w.x 3 || dst == .e4m3 || dst == .e5m2
     let v := fval src a
     let gives := fun (p : Res → Prop) => ∃ r, (conversionRow (.cvt w)).map (fun row => row.f l a b c) = some r ∧ p r
     let once := fun (x : ℚ) (zero : Bool) =>
       (tyKind dst = .flt → gives (roundsOnce dst mode sat x zero)) ∧ (tyKind dst = .int ∨ tyKind dst = .nat → gives (roundsToInt dst mode x))
     (tyKind src = .flt → isFin v = true →
       (w.b = .none → (src = dst → gives (· = (a, 0))) ∧ (src ≠ dst → once (numOf v) (negOf v))) ∧
       (w.b ≠ .none → (b % 256 = 255 → gives (· = (absentOf dst, 0))) ∧
         (b % 256 ≠ 255 → once (numOf v * (2 : ℚ) ^ (127 - (b % 256 : Nat) : ℤ)) (negOf v)))) ∧
     (w.b = .none → isAbsent src a = false → (tyKind src = .int ∨ tyKind src = .nat) → src ≠ dst →
       let n : ℤ := if tyKind src = .int then (BitVec.ofNat (tyWidth src) a).toInt else a
       once n false))

/-- FMIN gives the lesser and FMAX the greater of two operands that are no NaN, by their values, the other operand where one is a NaN and the
canonical NaN where both are, raise invalid for a signalling one and put −0 below +0. FSET tests its condition on the values; with a NaN only `.ne`
and `.nan` hold, and invalid is raised for a signalling one, or in a relation for any; an absent operand gives 0 and no flag. Of FMIN and FMAX an
absent operand makes the result absent with the absent-produced flag, both absent without it, and under `.ai` counts as the infinity that the other is
never beyond (R95). FCLASS sets the one bit of the pattern's class, from −∞ and −normal up to quiet NaN and absent, and a number has the value that
its fields give (R155, R90, R94); FABS and FNEG change only the sign bit of a number (R152 to R155). -/
def Obligations.FloatSelectionsAndSigns : Prop :=
  ∀ (a b : Word),
    let x := fval .f32 a.toNat
    let y := fval .f32 b.toNat
    let sig := x.isSig || y.isSig
    (x ≠ .absent → y ≠ .absent → ∀ up ai,
      let m := fminVal .f32 up ai a.toNat b.toNat
      let first := (if up then b else a).toNat
      let last := (if up then a else b).toNat
      (x.isNan = false → y.isNan = false → (rankOf x < rankOf y → m = (first, 0)) ∧ (rankOf y < rankOf x → m = (last, 0)) ∧ (a = b → m = (a.toNat, 0))) ∧
      (x.isNan = true → y.isNan = false → m.1 = b.toNat) ∧
      (x.isNan = false → y.isNan = true → m.1 = a.toNat) ∧
      (x.isNan = true → y.isNan = true → m.1 = 0x7FC00000) ∧
      m.2 = (if sig then NV else 0)) ∧
    (∀ ai, fminVal .f32 false ai 0x80000000 0 = (0x80000000, 0) ∧ fminVal .f32 true ai 0x80000000 0 = (0, 0) ∧
      fminVal .f32 false ai 0 0x80000000 = (0x80000000, 0) ∧ fminVal .f32 true ai 0 0x80000000 = (0, 0)) ∧
    (∀ cnd < 8,
      let set := fsetVal .f32 cnd a.toNat b.toNat
      (x = .absent ∨ y = .absent → set = (0, 0)) ∧
      (x ≠ .absent → y ≠ .absent →
        (x.isNan = false → y.isNan = false → set = (b2n (match cnd with
          | 0 => decide (rankOf x = rankOf y) | 1 => decide (rankOf x ≠ rankOf y) | 2 => decide (rankOf x < rankOf y) | 3 => decide (rankOf x ≤ rankOf y)
          | 4 => decide (rankOf y < rankOf x) | 5 => decide (rankOf y ≤ rankOf x) | 6 => true | _ => false), 0)) ∧
        (x.isNan = true ∨ y.isNan = true →
          set = (b2n (cnd == 1 || cnd == 7), if sig || (decide (2 ≤ cnd) && decide (cnd ≤ 5)) then NV else 0)))) ∧
    (∀ up,
      let far := fminVal .f32 up false (if up then 0xFF800000 else 0x7F800000)
      fminVal .f32 up false 0xFFFFFFFF 0xFFFFFFFF = (0xFFFFFFFF, 0) ∧ fminVal .f32 up true 0xFFFFFFFF 0xFFFFFFFF = (0xFFFFFFFF, 0) ∧
      (x ≠ .absent →
        (fminVal .f32 up false 0xFFFFFFFF a.toNat = (0xFFFFFFFF, AP) ∧ fminVal .f32 up false a.toNat 0xFFFFFFFF = (0xFFFFFFFF, AP)) ∧
        (fminVal .f32 up true 0xFFFFFFFF a.toNat = far a.toNat ∧ fminVal .f32 up true a.toNat 0xFFFFFFFF = far a.toNat) ∧
        (x.isNan = false → far a.toNat = (a.toNat, 0)) ∧
        (x.isNan = true → far a.toNat = (if up then 0xFF800000 else 0x7F800000, if x.isSig then NV else 0)))) ∧
    (∀ t eb mb n, (t, eb, mb) ∈ [(Ty.f32, 8, 23), (.f16, 5, 10), (.bf16, 8, 7), (.e4m3, 4, 3), (.e5m2, 5, 2)] → n < 2 ^ (1 + eb + mb) →
      let neg := natBit n (eb + mb)
      let ex := n / 2 ^ mb % 2 ^ eb
      let fr := n % 2 ^ mb
      let top := decide (ex = 2 ^ eb - 1) && (t != .e4m3 || fr == 7)
      let magnitude : ℚ := if ex = 0 then (fr : ℚ) * 2 ^ (2 - 2 ^ (eb - 1) - mb : ℤ) else (2 ^ mb + fr : ℚ) * 2 ^ (ex + 1 - 2 ^ (eb - 1) - mb : ℤ)
      fclassVal t n = 2 ^ (
        if n = 2 ^ (1 + eb + mb) - 1 then 10
        else if top then (if fr = 0 then (if neg then 0 else 7) else if natBit fr (mb - 1) then 9 else 8)
        else if ex = 0 then (if fr = 0 then (if neg then 3 else 4) else if neg then 2 else 5)
        else if neg then 1 else 6) ∧
      (top = false → isFin (fval t n) = true ∧ negOf (fval t n) = neg ∧ numOf (fval t n) = if neg then -magnitude else magnitude)) ∧
    (x ≠ .absent → x.isNan = false →
      fsignVal .f32 true a.toNat = ((a ^^^ 0x80000000#32).toNat, 0) ∧ fsignVal .f32 false a.toNat = ((a &&& 0x7FFFFFFF#32).toNat, 0))

/-- BEXP delivers the shared exponent of its block of registers: for n present numbers that are not 0, of which a clip of P/64 asks for a part, the
least exponent that so many of them do not exceed, less the target's, within the range, biased, and 0xFF for none. AMXREC records an f32 magnitude in
a scale record of the owned matrix engine and AMXGET delivers a record's scale: the greatest power of two from 2^−127 to 2^127 that leaves its largest
entry within the target's range, 1 for an empty record, 2^127 where its entries are all 0 and 2^−127 where one is infinite; a warp that does not own
the engine traps, its queue sources popped, which is the model's choice (spec/04 R109 to R112; R159, R160).
It follows the model's readings of log entries 40 and 43. -/
def Obligations.BlockExponentsAndScaleRecords : Prop :=
  (∀ (t : Ty) (xs : List Nat) (clip target : Nat), 1 ≤ clip → clip ≤ 64 → target < 3 →
    let ns := xs.filter (fun n => isFin (fval t n) && decide (numOf (fval t n) ≠ 0))
    let upto := fun (c : ℤ) => (ns.filter (fun n => decide (|numOf (fval t n)| < (2 : ℚ) ^ (c + 1)))).length
    let largest : ℤ := if target = 0 then 8 else if target = 1 then 15 else 6
    (ns = [] → bexpVal t xs clip target = 0xFF) ∧
    (ns ≠ [] → ∃ c : ℤ, ns.length * clip ≤ 64 * upto c ∧ 64 * upto (c - 1) < ns.length * clip ∧
      (bexpVal t xs clip target : ℤ) = max (-127) (min 127 (c - largest)) + 127)) ∧
  (∀ (t : Ty) (m : ScaleRec), t ∈ [Ty.e4m3, .e5m2, .f16, .bf16, .i8] → m.ent.length = 16 → m.wi < 16 → m.v ≤ 16 →
    let vs := (List.range m.v).map (fun i => fval .f32 (m.ent.getD ((m.wi + 15 - i) % 16) 0#32).toNat)
    let most : ℚ := if t = .i8 then 127 else numOf (fval t (ffmt t).maxCode)
    let scale := numOf (fval .f32 (pow2F32 (amxScale m t)))
    (m.v = 0 → scale = 1) ∧
    (.inf false ∈ vs → scale = (2 : ℚ) ^ (-127 : ℤ)) ∧
    (m.v ≠ 0 → (∀ x ∈ vs, isFin x = true ∧ negOf x = false) →
      ((∀ x ∈ vs, numOf x = 0) → scale = 2 ^ 127) ∧
      ((∃ x ∈ vs, numOf x ≠ 0) → ∃ j : ℤ, -127 ≤ j ∧ j ≤ 127 ∧ scale = (2 : ℚ) ^ j ∧ (∀ x ∈ vs, numOf x * (2 : ℚ) ^ j ≤ most) ∧
        (j < 127 → ∃ x ∈ vs, most < numOf x * (2 : ℚ) ^ (j + 1))))) ∧
  ∀ (s u t : State) (k : LaneId) (l : Lane) (w : IWord) (a b c r : Nat), alone s k l → queueTrap s k w = none →
    let own := (u.core (laneCore u k)).mx.owner = some (LaneId.wid k)
    let core := u.core (laneCore u k)
    let rec_ := core.mx.recs.getD (b % 32) .clear
    let put := u.setCore (laneCore u k) { core with mx := { core.mx with recs := core.mx.recs.set (b % 32) (rec_.record a) } }
    let notOwner := parkSub u (LaneId.wid k) s.cur.pc s.cur.len [(k.lane, TrapInfo.plain .matrixNotOwner 0)]
    let nan := if isAbsent .f32 a then false else (fval .f32 a).isNan
    (gate entryBexp w k l s = .go → w.a = .g r →
      (∀ i < bexpRegs w.t, (l.reg (r + i)).full = true) →
      delivered s k w .b32 (bexpVal (tyElem w.t) (bexpElems w.t ((List.range (bexpRegs w.t)).map (fun i => (l.reg (r + i)).val)))
        (fld w.x 31 16) (fld w.x 1 0)) 0 = some t → exec (.bexp w) s = .next t) ∧
    (gate entryAmxrec w k l s = .go → reads s k l w ⟨.f32, .b32, .none, .none⟩ u a b c →
      (own → delivered put k w .none 0 (if nan then NV else 0) = some t → exec (.amxrec w) s = .next t) ∧
      (¬ own → exec (.amxrec w) s = .next notOwner)) ∧
    (gate entryAmxget w k l s = .go → reads s k l w ⟨.none, .b32, .none, .none⟩ u a b c →
      (own → delivered u k w .f32 (pow2F32 (amxScale rec_ w.t)) 0 = some t → exec (.amxget w) s = .next t) ∧
      (¬ own → exec (.amxget w) s = .next notOwner))

/-! ### Lanes of one warp together (spec/07) -/

/-- When the lanes of its mask reach a cross-lane instruction together, each active lane whose D is a general register or z receives its row's result
from what all held before, and each lane goes on; registers that are not D keep their values (R169 to R177). -/
def Obligations.CrossLaneResultsAreDelivered : Prop :=
  ∀ (i : Instr) (r : CrossRow) (s : State) (v : WarpId) (x : Warp) (ks act : List LaneId), crossRow i = some r →
    together r s v x ks act →
    (∀ k ∈ act, ∀ l, s.lane? k = some l → l.te &&& (r.f s ks act k).2 = 0) →
    ∃ t, exec i s = .next t ∧
      (∀ k ∈ act, ∀ l, s.lane? k = some l →
        t.lane? k = some (match r.w.d with
          | .g d => filled s l (r.f s ks act k).2 d (partsOf (tyRegs r.td) (extend r.td (r.f s ks act k).1))
          | _ => (l.raise (r.f s ks act k).2).advance s)) ∧
      (∀ k ∈ ks, k ∉ act → ∀ l, s.lane? k = some l → t.lane? k = some (l.advance s)) ∧
      (∀ k, k ∉ ks → t.lane? k = s.lane? k)

/-- A shuffle hands a lane the A of its source lane where that lane takes part, else its own A: SHFI names the source, SHFU counts down, SHFD up and
SHFX by exclusive or, and BCST takes the first active lane's index; no flag is raised (R171; the lanes that take part are R169's). -/
def Obligations.ShufflesTakeTheirSource : Prop :=
  ∀ (s : State) (w : IWord) (ks act : List LaneId) (k : LaneId) (n : Nat), idxOf s w k = n → k.lane < 32 →
    let from_ := fun (j : Nat) => if { k with lane := j } ∈ ks then peekA s w { k with lane := j } else peekA s w k
    shuffleFrom w (srcShfi w) s ks act k = (from_ (n % 32), 0) ∧
    shuffleFrom w (srcShfu w) s ks act k = (if n ≤ k.lane then from_ (k.lane - n) else peekA s w k, 0) ∧
    shuffleFrom w (srcShfd w) s ks act k = (if k.lane + n < 32 then from_ (k.lane + n) else peekA s w k, 0) ∧
    shuffleFrom w (srcShfx w) s ks act k = (from_ (Nat.xor k.lane (n % 32)), 0) ∧
    (∀ j r, act = j :: r → shuffleFrom w (srcBcst w) s ks act k = (from_ (idxOf s w j % 32), 0))

/-- A reduction combines the present inputs of the active lanes; scans take those at or below the lane, or below it; with none, REDW gives absent and
a scan the identity of R175. Integer sums are exact before they are clamped; an f32 sum is exact before it is rounded once in the receiving lane's
mode, a NaN among its inputs or infinities of both signs make it the canonical NaN, and infinities of one sign stand. MIN and MAX of integers give the
input that no other goes beyond, those of f32 the same among the numbers and infinities, −0 below +0, and the canonical NaN where there is none, with
invalid for a signalling NaN; AND, OR and XOR work bit by bit (R175, R176).
It follows the model's readings of log entry 39. -/
def Obligations.ReductionsCombinePresentInputs : Prop :=
  (∀ (s : State) (w : IWord) (ks act : List LaneId) (k : LaneId) (takes : Nat → Nat → Bool) (empty : Nat),
    let vs := (act.filter (fun j => takes j.lane k.lane && !isAbsent w.t (peekA s w j))).map (peekA s w)
    let r := redTo w takes empty s ks act k
    let opn := fld w.x 11 8
    let mode := redMode w s k
    let val := fun (x : Nat) => fval .f32 x
    let sig := if vs.any (fun x => (val x).isSig) then NV else 0
    (vs = [] → r = (empty, 0)) ∧
    (vs ≠ [] → opn = 0 → w.t ≠ .f32 → r = intRes w.t ((vs.map (intVal w.t)).sum)) ∧
    (vs ≠ [] → opn = 0 → w.t = .f32 →
      ((∃ x ∈ vs, (val x).isNan = true) → r = (0x7FC00000, sig)) ∧
      ((∀ x ∈ vs, (val x).isNan = false) →
        ((∃ x ∈ vs, val x = .inf true) → (∃ x ∈ vs, val x = .inf false) → r = (0x7FC00000, NV)) ∧
        (∀ neg, (∃ x ∈ vs, val x = .inf neg) → (∀ x ∈ vs, val x ≠ .inf (!neg)) → r = (if neg then 0xFF800000 else 0x7F800000, 0)) ∧
        ((∀ x ∈ vs, isFin (val x) = true) →
          roundsOnce .f32 mode false (vs.map (fun x => numOf (val x))).sum (zeroSum mode (vs.map (fun x => negOf (val x)))) r))) ∧
    (vs ≠ [] → w.t ∈ [Ty.i32, .i64, .n32, .n64] →
      (opn = 1 → r.2 = 0 ∧ r.1 ∈ vs ∧ ∀ y ∈ vs, intVal w.t r.1 ≤ intVal w.t y) ∧
      (opn = 2 → r.2 = 0 ∧ r.1 ∈ vs ∧ ∀ y ∈ vs, intVal w.t y ≤ intVal w.t r.1)) ∧
    (vs ≠ [] → w.t = .f32 → (opn = 1 ∨ opn = 2) → r.2 = sig ∧
      ((∀ x ∈ vs, (val x).isNan = true) → r.1 = 0x7FC00000) ∧
      ((∃ x ∈ vs, (val x).isNan = false) → r.1 ∈ vs ∧ (val r.1).isNan = false ∧ ∀ y ∈ vs, (val y).isNan = false →
        if opn = 1 then rankOf (val r.1) ≤ rankOf (val y) ∧ (rankOf (val r.1) = rankOf (val y) → negOf (val y) = true → negOf (val r.1) = true)
        else rankOf (val y) ≤ rankOf (val r.1) ∧ (rankOf (val r.1) = rankOf (val y) → negOf (val y) = false → negOf (val r.1) = false))) ∧
    (vs ≠ [] → (w.t = .b32 ∨ w.t = .b64) → 3 ≤ opn → opn ≤ 5 → r.2 = 0 ∧ ∀ i < tyWidth w.t,
      (opn = 3 → natBit r.1 i = vs.all (natBit · i)) ∧ (opn = 4 → natBit r.1 i = vs.any (natBit · i)) ∧
      (opn = 5 → natBit r.1 i = decide ((vs.filter (natBit · i)).length % 2 = 1)))) ∧
  ∀ t ∈ [Ty.i32, .i64, .n32, .n64, .f32, .b32, .b64],
    let w := tyWidth t
    let signed := t = .i32 ∨ t = .i64
    redIdentity 0 t = 0 ∧ redIdentity 4 t = 0 ∧ redIdentity 5 t = 0 ∧ redIdentity 3 t = 2 ^ w - 1 ∧
    (t ≠ .b32 → t ≠ .b64 →
      redIdentity 1 t = (if t = .f32 then 0x7F800000 else if signed then 2 ^ (w - 1) - 1 else 2 ^ w - 2) ∧
      redIdentity 2 t = if t = .f32 then 0xFF800000 else if signed then 2 ^ (w - 1) + 1 else 0)

/-! ### Memory (spec/08) -/

/-- A load reads its bytes at issue, seen through an open try's store buffer, and goes to no memory where the buffer holds them all; its registers are
empty until their delivery; LD.sc follows FENCE.sc; a load to z that no other module answers only goes on (R188 to R190, R194, R197, R205; spec/01
R13; spec/12 R241, R245). A loaded value stands in its registers zero-extended for b8 and b16, sign-extended for i8 and i16, in as many registers as
its type has words, the lowest address first (R185).
It follows the model's readings of log entry 6. -/
def Obligations.LoadsWaitForTheirDelivery : Prop :=
  (∀ (s f u : State) (k : LaneId) (l m m' : Lane) (w : IWord) (a loc home : Nat) (bs out : List Byte),
     let n := tyBytes w.t
     let dst := destRegs w.d w.t
     let sent := fun (u : State) (m : Lane) (p : Pend) => if dst = [] ∧ p.remote = false then onward (u.setLane k m) k else awaiting u k m p
     (readSrc s k l w w.a w.wa .b64 = .val s a → l.quiet = true → l.regsFull dst = true →
       (if ordOf w = 4 then fenceSc s (scpOf w) else s) = f → f.lane? k = some m →
       let va := flatAddr w a
       preFault f k m va n = none → bufferHit f k m (spaceOf va) va n = none →
       vread f (laneDie f k) (laneCtx f k) (privAddr f k m va) n .load = (u, .bytes bs loc home) →
       tryLoad m (spaceOf va) 0 loc bs = some (m', out) →
       issues (.ld w) w entryLd s k l (sent u m' { pendOf u .load dst (some (loadVals w.t out)) with
         addr := va, info := accInfo w.d.code (spaceOf va) false n false, remote := isRemote u home })) ∧
     (∀ t, readSrc s k l w w.a w.wa .b64 = .val s a → l.quiet = true → l.regsFull dst = true → ordOf w ≠ 4 → l.spec = some t →
       let va := flatAddr w a
       preFault s k l va n = none → bufferHit s k l (spaceOf va) va n = some (u, loc) →
       tryLoad l (spaceOf va) 0 loc (List.replicate n 0#8) = some (m', out) →
       t.holds (spaceOf va) 0 loc n = true ∧
       issues (.ld w) w entryLd s k l (sent u m' { pendOf u .load dst (some (loadVals w.t out)) with
         addr := va, info := accInfo w.d.code (spaceOf va) false n false, remote := false })) ∧
     (∀ g b, readSrc s k l w w.a w.wa .b32 = .val s a → l.acquired = true → l.regsFull dst = true → spadPlace s k (spadOff w a) n = .ok (g, b) →
       tryLoad l .spad g.group b (spadRead s g b n) = some (m', out) →
       issues (.lds w) w entryLds s k l (sent s m' (pendOf s .lds dst (some (loadVals w.t out))))) ∧
     (∀ g, readSrc s k l w w.a w.wa .b32 = .val s a → l.regsFull dst = true → s.grid? (gangGrid s k.gang) = some g →
       let o := spadOff w a
       let va : Addr := BitVec.ofNat 64 (g.cbase + o)
       o + n ≤ g.csize → o % n = 0 → vread s (laneDie s k) (laneCtx s k) va n .load = (u, .bytes bs loc home) →
       issues (.ldc w) w entryLds s k l (sent u l { pendOf u .ldc dst (some (loadVals w.t bs)) with
         addr := va, info := accInfo w.d.code .const false n false, remote := isRemote u home }))) ∧
  ((∀ a : Byte, loadVals .b8 [a] = [a.setWidth 32] ∧ loadVals .i8 [a] = [a.signExtend 32]) ∧
   (∀ a b : Byte, loadVals .b16 [a, b] = [(b ++ a).setWidth 32] ∧ loadVals .i16 [a, b] = [(b ++ a).signExtend 32]) ∧
   (∀ a b c d : Byte, loadVals .b32 [a, b, c, d] = [d ++ c ++ b ++ a]) ∧
   (∀ bs : List Byte, bs.length = 8 → loadVals .b64 bs = loadVals .b32 (bs.take 4) ++ loadVals .b32 (bs.drop 4)) ∧
   (∀ bs : List Byte, bs.length = 16 → loadVals .b128 bs = loadVals .b64 (bs.take 8) ++ loadVals .b64 (bs.drop 8)))

/-- ST makes one flat write of the lane's die at the location its address translates to, or, in the private window, a write outside the relations of
flat writes (spec/12 R239), or puts the bytes into the open try's buffer, and ST.sc is followed by FENCE.sc; a store to another module waits for what
that module answers, with no register empty (R190); STS writes the scratchpad bytes its offset resolves to, or buffers them; each then goes on (R188,
R194, R205; spec/12 R242, R245).
It follows the model's readings of log entries 15, 21 and 41. -/
def Obligations.StoresWriteTheirBytes : Prop :=
  ∀ (s u v : State) (k : LaneId) (l : Lane) (w : IWord) (a b c loc home : Nat) (g : GroupId),
    queueTrap s k w = none →
    let n := tyBytes w.t
    let va := flatAddr w a
    let flat := if spaceOf va = .priv then privWrite v (cellsAt loc n b)
      else flatWrite v (laneDie u k) (cellsAt loc n b) (laneTag v k 0 ((List.range n).map (fun i => va.toNat + i)))
    let away : Pend := { pendOf v .store [] (some []) with addr := va, info := accInfo w.b.code (spaceOf va) true n false, remote := true }
    let fenced := fun (t : State) => if ordOf w = 4 then fenceSc t (scpOf w) else t
    (reads s k l w ⟨.b64, w.t, .none, .none⟩ u a b c → l.quiet = true → preFault u k l va n = none →
      vplace u (laneDie u k) (laneCtx u k) (privAddr u k l va) .store = (v, .place loc home) →
      (l.spec = none →
        (isRemote u home = false → issues (.st w) w entrySt s k l (fenced (onward flat k))) ∧
        (isRemote u home = true → ∀ m, flat.lane? k = some m → issues (.st w) w entrySt s k l (fenced (awaiting flat k m away)))) ∧
      (∀ t t', l.spec = some t → tryStore t (spaceOf va) 0 loc va.toNat (bytesLE n b) = .ok t' →
        issues (.st w) w entrySt s k l (fenced (onward (v.setLane k { l with spec := some t' }) k)))) ∧
    (reads s k l w ⟨.b32, w.t, .none, .none⟩ u a b c → l.acquired = true → spadPlace u k (spadOff w a) n = .ok (g, loc) →
      (l.spec = none → issues (.sts w) w entrySts s k l (onward (spadWrite u g loc (bytesLE n b) (laneTag u k 0 [])) k)) ∧
      (∀ t t', l.spec = some t → tryStore t .spad g.group loc loc (bytesLE n b) = .ok t' →
        issues (.sts w) w entrySts s k l (onward (u.setLane k { l with spec := some t' }) k)))

/-- A flat write counts one write of its die, is applied there at once and is on its way to the module's other dies: it replaces the bytes whose
stamps are smaller and no other byte of any die; it changes of a lane only what R206 and R325 name, and nothing else while no Stipple region watches.
A scratchpad write replaces its bytes and no other. A lane without an open try and a monitor is unchanged; a try that tracks a line of the write has a
conflict unless the write is the lane's own; an armed monitor of its line is triggered and ends its lane's MWAIT (R206; spec/12 R242, R244; spec/16
R325, R326). A write on its way is applied at its die once the writes that its vector counts have been, byte by byte in stamp order, and the die's
vector counts it. -/
def Obligations.WritesChangeOnlyTheirBytes : Prop :=
  ((∀ (s : State) (d : Nat) (cells : List (Nat × Byte)) (tag : WTag), flg (s.mreg ⟨.dbgctl, tag.ctx, 0⟩) 3 = false →
     (cells ≠ [] →
       let t := flatWrite s d cells tag
       let dom := domId s d
       let vec := (s.die d).vec.set dom ((s.die d).vec.getD dom 0 + 1)
       let sent : FlatWrite := { src := dom, dst := d, vec := vec, stamp := ⟨Vec.sum vec, dom⟩, cells := cells, tag := tag.named s }
       (∀ a, a ∉ cells.map Prod.fst → byteAtDie t d a = byteAtDie s d a) ∧
       (∀ p ∈ cells, (cells.map Prod.fst).Nodup → (mget (s.die d).stamps p.1 ⟨0, 0⟩).lt sent.stamp = true → byteAtDie t d p.1 = p.2) ∧
       (∀ p ∈ cells, (cells.map Prod.fst).Nodup → (mget (s.die d).stamps p.1 ⟨0, 0⟩).lt sent.stamp = false → byteAtDie t d p.1 = byteAtDie s d p.1) ∧
       ∃ view stamps, t = { s.setDie d { s.die d with view := view, stamps := stamps, vec := vec } with
         inflight := s.inflight ++ ((List.range 4).filter (· != d)).map (fun e => { sent with dst := e })
         lanes := s.lanes.map (fun p => (p.1, p.2.onWrite (tag.self p.1) (groupDie s (LaneId.grp p.1) == d) d sent)) }) ∧
     ∀ g x off bs, s.group? g = some x →
       let t := spadWrite s g off bs tag
       (∀ i < bs.length, byteAtGroup t g (off + i) = bs.getD i 0#8) ∧
       (∀ a, a < off ∨ off + bs.length ≤ a → byteAtGroup t g a = byteAtGroup s g a) ∧
       ∃ spad hit, t = { s.setGroup g { x with spad := spad } with
         lanes := s.lanes.map (fun p => (p.1, if p.1.gang = g.gang then p.2.onSpad (tag.self p.1) g hit else p.2)) }) ∧
   (∀ (l : Lane) (own here : Bool) (d : Nat) (x : FlatWrite),
     (l.spec = none → l.mon = none → l.onWrite own here d x = l) ∧
     (∀ t, l.spec = some t → l.mon = none →
       l.onWrite own here d x =
         (if here = true ∧ own = false ∧ (∃ n ∈ t.lines, n.space = .flat ∧ touchesLine x.cells n.line = true) then
           { l with spec := some { t with conflict := true } } else l)) ∧
     ∀ m, l.spec = none → l.mon = some m → m.die = d → touchesLine x.cells m.line = true →
       let hit : Lane := { l with mon := some { m with triggered := true, byWrite := some ((m.byWrite.getD Vec.zero).join x.vec) } }
       (m.dormant = true → l.onWrite own here d x = hit) ∧
       ((∀ o n a, l.st ≠ .mwait o n a) → l.onWrite own here d x = hit) ∧
       (∀ o n a, l.st = .mwait o n a → m.dormant = false →
         (l.onWrite own here d x).mon = none ∧ (l.onWrite own here d x).st = .run))) ∧
  (∀ (s : State) (d n i : Nat) (x : FlatWrite), (flightsTo s d)[n]? = some (i, x) → causallyReady s d x = true →
     flg (s.mreg ⟨.dbgctl, x.tag.ctx, 0⟩) 3 = false → (x.cells.map Prod.fst).Nodup →
     ∃ t, exec (.writeApply d n) s = .next t ∧ t.inflight = s.inflight.eraseIdx i ∧
       (t.die d).vec = (s.die d).vec.set x.src ((s.die d).vec.getD x.src 0 + 1) ∧
       (∀ a, a ∉ x.cells.map Prod.fst → byteAtDie t d a = byteAtDie s d a) ∧
       (∀ p ∈ x.cells, byteAtDie t d p.1 = if (mget (s.die d).stamps p.1 ⟨0, 0⟩).lt x.stamp then p.2 else byteAtDie s d p.1) ∧
       ∀ e, e ≠ d → t.die e = s.die e)

/-- The address faults of a flat access that no translation decides come in the order NONCANONICAL, MISALIGNED, PRIVATE_BOUNDS, ROADWORKS, and LD
traps with the first, its address and R191's detail; LDS tests alignment before bounds before roadworks; a bad translation traps or, where it is
replayable, leaves the lane in the wait of R87 with its registers empty, and posts its entry (R189, R191, R194, R195, R197; spec/03 R87).
It follows the model's readings of log entry 37. -/
def Obligations.AddressFaultsComeInOrder : Prop :=
  ∀ (s : State) (k : LaneId) (l : Lane) (va : Addr) (n o : Nat), 0 < n →
    let far := inPrivate va = true ∧ (l.priv = none ∨ (s.mreg ⟨.privsz, laneCtx s k, 0⟩).toNat < va.toNat % 2 ^ 32 + n)
    let road := inPrivate va = false ∧ roadFlat s (laneDie s k) (laneCtx s k) va.toNat n = true
    (canonical va = false → preFault s k l va n = some .noncanonical) ∧
    (canonical va = true → va.toNat % n ≠ 0 → preFault s k l va n = some .misaligned) ∧
    (canonical va = true → va.toNat % n = 0 → far → preFault s k l va n = some .privateBounds) ∧
    (canonical va = true → va.toNat % n = 0 → road → preFault s k l va n = some .roadworks) ∧
    (canonical va = true → va.toNat % n = 0 → ¬ far → ¬ road → preFault s k l va n = none) ∧
    (o % n ≠ 0 → spadPlace s k o n = .error .misaligned) ∧
    (o % n = 0 → spadResolve s (LaneId.grp k) o n = none → spadPlace s k o n = .error .spadBounds) ∧
    (∀ g b, o % n = 0 → spadResolve s (LaneId.grp k) o n = some (g, b) →
      (roadSpad s (laneDie s k) (laneCtx s k) g b n = true → spadPlace s k o n = .error .roadworks) ∧
      (roadSpad s (laneDie s k) (laneCtx s k) g b n = false → spadPlace s k o n = .ok (g, b))) ∧
    ∀ (w : IWord) (a : Nat) (c : Cause), readSrc s k l w w.a w.wa .b64 = .val s a → l.quiet = true → l.regsFull (destRegs w.d w.t) = true →
      ordOf w ≠ 4 → l.spec = none →
      let va := flatAddr w a
      let info := accInfo w.d.code (spaceOf va) false (tyBytes w.t) false
      (preFault s k l va (tyBytes w.t) = some c → issues (.ld w) w entryLd s k l (raised s k (accTrap c va info))) ∧
      (∀ u level bad, preFault s k l va (tyBytes w.t) = none →
        vread s (laneDie s k) (laneCtx s k) (privAddr s k l va) (tyBytes w.t) .load = (u, .fault c level bad) → replayable c = false →
        issues (.ld w) w entryLd s k l (raised s k { accTrap c va info with level := level, malformed := bad })) ∧
      ∀ u level bad, preFault s k l va (tyBytes w.t) = none →
        vread s (laneDie s k) (laneCtx s k) (privAddr s k l va) (tyBytes w.t) .load = (u, .fault c level bad) → replayable c = true →
        let parked := s.setLane k { (l.emptyRegs (destRegs w.d w.t)) with st := .replay false (destRegs w.d w.t) }
        issues (.ld w) w entryLd s k l (postFault parked (laneDie s k) (.lane (laneCore s k))
          { va := (privAddr s k l va).toNat, cause := c, access := 0, ctx := laneCtx s k, issuer := 0, lanes := 1#32 <<< k.lane, pc := s.cur.pc.toNat
            level := level })

/-- TRY opens a try whose image holds its range, the lane's masks, loops, counters and flags, or deepens an open one up to depth 4; ABORT aborts an
open one with code 1 and B's low byte; COMMIT makes an inner one shallower, and the outermost applies its stores unless a write conflicted, which it
finds at once and counts as no issue: the model's reading; TSTAT delivers tstat later (R204, R206, R207, R209 to R211).
It follows the model's readings of log entries 21 and 27. -/
def Obligations.TriesOpenAndCommit : Prop :=
  ∀ (s u v : State) (k : LaneId) (l m : Lane) (w : IWord) (r b : Nat) (t t' : Try),
    let illegal := raised s k (TrapInfo.plain .specIllegal 0)
    let next := s.cur.pc + BitVec.ofNat 64 s.cur.len
    let opened : Try :=
      { depth := 1, base := r, regs := (List.range (fld w.x 6 0 + 1)).map (fun i => (l.reg (r + i)).val), masks := maskBits s k, loops := l.loops,
        lcs := l.lc, fflags := l.fflags, target := next + ((w.x >>> 16).setWidth 16).signExtend 64, at_ := s.cur.pc, stores := [], lines := [],
        conflict := false }
    (l.spec = none → w.a = .g r → (∀ i ≤ fld w.x 6 0, (l.reg (r + i)).full = true) →
      issues (.tryOpen w) w entryTry s k l (onward (s.setLane k { l with spec := some opened, tsCode := 0, tsUser := 0 }) k)) ∧
    (l.spec = some t →
      (t.depth ≠ 4 → issues (.tryOpen w) w entryTry s k l (onward (s.setLane k { l with spec := some { t with depth := t.depth + 1 } }) k)) ∧
      (t.depth = 4 → issues (.tryOpen w) w entryTry s k l illegal) ∧
      (readSrc s k l w w.b w.wb .b32 = .val u b → issues (.abortTry w) w entryAbort s k l (abortTries u [k] 1 (BitVec.ofNat 8 b))) ∧
      (1 < t.depth → issues (.commit w) w entryCommit s k l (onward (s.setLane k { l with spec := some { t with depth := t.depth - 1 } }) k)) ∧
      (t.depth ≤ 1 → l.quiet = true → drainTo s (laneDie s k) = v → v.lane? k = some m → m.spec = some t' →
        let ended : Lane := { m with spec := none, pend := m.pend.map (fun p => { p with inTry := false }) }
        (t'.conflict = true → issues (.commit w) w entryCommit s k l (notIssued (abortTries v [k] 4 0) [k])) ∧
        (t'.conflict = false → issues (.commit w) w entryCommit s k l (onward (applyStores (v.setLane k ended) k t.stores) k)))) ∧
    (l.spec = none → issues (.commit w) w entryCommit s k l illegal) ∧
    (w.d = .g r → l.regsFull [r] = true → issues (.tstat w) w entryTstat s k l (awaiting s k l (pendOf s .tstat [r] none)))

/-- ABORT aborts an open try with code 1 and B's low byte, and raises SPEC_ILLEGAL outside one, whatever B holds (R210). An abort restores the
registers of the try's range, full, and its loops, counters, flags and bits of m1 to m11, and drops the deliveries into the range: none is left that
fills one of its registers; every other register and delivery stands, every other lane and bit of a mask too, and its buffered stores are gone; the
lane runs at the target with the code and the user's value in tstat (R208). A lane that had parked as a trap stays in its sub-warp, and the try's
target is where its handler's return leads.
It follows the model's readings of log entries 21 and 27. -/
def Obligations.AbortsRollBack : Prop :=
  (∀ (s u : State) (k : LaneId) (l : Lane) (w : IWord) (b : Nat),
    (l.spec.isSome = true → readSrc s k l w w.b w.wb .b32 = .val u b →
      issues (.abortTry w) w entryAbort s k l (abortTries u [k] 1 (BitVec.ofNat 8 b))) ∧
    (l.spec = none → issues (.abortTry w) w entryAbort s k l (raised s k (TrapInfo.plain .specIllegal 0)))) ∧
  (∀ (s : State) (k : LaneId) (l : Lane) (t : Try) (x : Warp) (code : Nat) (user : BitVec 8), s.lane? k = some l → l.spec = some t →
    s.warp? (LaneId.wid k) = some x → noneParked s k.gang → k.lane < 32 →
    let u := abortTries s [k] code user
    u.lane? k = some (l.abort code user) ∧ (∀ j, j ≠ k → u.lane? j = s.lane? j) ∧
    ∃ y, u.warp? (LaneId.wid k) = some y ∧ y.masks.length = x.masks.length ∧ y.masks.headD 0#32 = x.masks.headD 0#32 ∧
      ∀ m, 1 ≤ m → m < x.masks.length → ∀ i < 32,
        flg (y.masks.getD m 0#32) i = if i = k.lane then t.masks.getD m false else flg (x.masks.getD m 0#32) i) ∧
  ∀ (l : Lane) (t : Try) (code : Nat) (user : BitVec 8), l.spec = some t →
    let a := l.abort code user
    let inside := fun (n : Nat) => t.base ≤ n ∧ n < t.base + t.regs.length
    (∀ i x, t.regs[i]? = some x → t.base + i < l.regs.length → a.reg (t.base + i) = ⟨x, true⟩) ∧
    (∀ n, ¬ inside n → a.reg n = l.reg n) ∧
    (∀ p ∈ a.pend, ∀ n ∈ p.dst, ¬ inside n) ∧
    (∀ p ∈ l.pend, (∀ n ∈ p.dst, ¬ inside n) → (∀ vs, p.vals = some vs → vs.length = p.dst.length) → { p with inTry := false } ∈ a.pend) ∧
    a.spec = none ∧ a.fflags = t.fflags ∧ a.tsCode = BitVec.ofNat 4 code ∧ a.tsUser = user ∧
    (l.st ≠ .trapped → a.st = .run ∧ a.hx = none ∧ a.cmpSkip = [] ∧
      ((∀ x ∈ t.loops, x.act = true → x.stop ≠ t.target) → a.pc = t.target ∧ a.loops = t.loops ∧ a.lc = t.lcs)) ∧
    (l.st = .trapped → a.st = .trapped ∧ a.pc = t.target ∧ a.hx = l.hx ∧ a.loops = t.loops ∧ a.lc = t.lcs)

/-- QCFG configures a queue of X[31:16] + 1 entries, empty, at X[15:0] × 64 in the group's allocation, leaves one that is configured so, and traps
where it does not fit; QRST empties a queue; both, and QLEN, follow the lane's acquiring Square operations (spec/12 R246); QLEN delivers its count
later (R199, R202). A pop takes the word at the head and waits, or with the wait bit traps, while the queue is empty; a push writes the word behind
the last and waits while it is full (R18 to R20, R198, R200). -/
def Obligations.QueuesKeepTheirOrder : Prop :=
  (∀ (s : State) (k : LaneId) (l : Lane) (w : IWord) (g : Group) (n r : Nat), s.group? (LaneId.grp k) = some g → n < 12 →
    let cap := fld w.x 31 16 + 1
    let base := fld w.x 15 0 * 64
    let put := fun (q : Queue) => onward (s.setGroup (LaneId.grp k) { g with queues := g.queues.set n (some q) }) k
    (w.d = .q n →
      (g.scratch < base + 4 * cap →
        ∃ x : TrapInfo, x.cause = .spadBounds ∧ issues (.qcfg w) w entryQcfg s k l (raised s k x)) ∧
      (base + 4 * cap ≤ g.scratch → l.acquired = true →
        ((∃ q, g.queues.getD n none = some q ∧ q.base = base ∧ q.cap = cap) → issues (.qcfg w) w entryQcfg s k l (onward s k)) ∧
        ((∀ q, g.queues.getD n none = some q → q.base ≠ base ∨ q.cap ≠ cap) →
          issues (.qcfg w) w entryQcfg s k l (put ⟨base, cap, 0, 0⟩))) ∧
      ∀ q, g.queues.getD n none = some q → l.acquired = true → issues (.qrst w) w entryQrst s k l (put { q with head := 0, count := 0 })) ∧
    (∀ q, w.a = .q n → w.d = .g r → w.b = .none → w.c = .none → g.queues.getD n none = some q → l.acquired = true → l.regsFull [r] = true →
      issues (.qlen w) w entryQlen s k l (awaiting s k l (pendOf s .qlen [r] (some [BitVec.ofNat 32 q.count]))))) ∧
  (∀ (s : State) (k : LaneId) (l : Lane) (w : IWord) (g : Group) (q : Queue) (n : Nat) (v : Word) (wait : Bool), n < 12 →
    s.group? (LaneId.grp k) = some g → g.queues.getD n none = some q → 0 < q.cap → acquired s k = true →
    let here := LaneId.grp k
    let first := q.base + 4 * (q.head % q.cap)
    let last := q.base + 4 * ((q.head + q.count) % q.cap)
    let free := fun (a : Nat) => roadSpad s (laneDie s k) (laneCtx s k) here a 4 = false
    (q.count = 0 → readSrc s k l w (.q n) wait .b32 = if wait then .trap (TrapInfo.plain .queueEmptyTrap (BitVec.ofNat 32 n)) else .wait) ∧
    (q.count ≠ 0 → free first → readSrc s k l w (.q n) wait .b32 =
      .val (s.setGroup here { g with queues := g.queues.set n (some { q with head := (q.head + 1) % q.cap, count := q.count - 1 }) })
        (ofBytesLE ((List.range 4).map (fun i => byteAtGroup s here (first + i))))) ∧
    (q.cap ≤ q.count → pushQ s k n [v] 0 = .wait) ∧
    (q.count < q.cap → free last → flg (s.mreg ⟨.dbgctl, laneCtx s k, 0⟩) 3 = false → n < g.queues.length →
      ∃ t, pushQ s k n [v] 0 = .issued t 0 ∧ ofBytesLE ((List.range 4).map (fun i => byteAtGroup t here (last + i))) = v.toNat ∧
        queueOf t here n = some { q with count := q.count + 1 }))

/-! ### Squares (spec/16) -/

/-- A Square instruction sends its request to the Square of its operand's home, its registers empty until the answer; an acquiring or releasing `.sc`
form follows FENCE.sc; its address faults come in the order NONCANONICAL, ATOMIC_ALIGN, PERMISSION for the private window, ROADWORKS for a registered
range, and then those of its translation (R312 to R316; spec/08 R189; spec/12 R245).
It follows the model's readings of log entry 11. -/
def Obligations.SquareRequestsAreSent : Prop :=
  ∀ (i : Instr) (w : IWord) (e : Entry) (h : SqShape) (s f v : State) (k : LaneId) (l m : Lane) (a b c loc home : Nat),
    squareRow i = some (w, e, h) → reads s k l w ⟨.b64, w.t, w.t, .none⟩ s a b c → l.quiet = true → l.regsFull h.dst = true →
    (if ordOf w = 4 then fenceSc s (scpOf w) else s) = f → v.lane? k = some m →
    let va := flatAddr w a
    let info := accInfo w.d.code .flat h.writes h.align false
    let d := if home / 4 = moduleNo v then home % 4 else 4 + home
    let q : SqReq :=
      { lane := k, pid := v.uid, op := h.op, ty := w.t, loc := loc, va := va.toNat, b := b, c := c, ctx := laneCtx v k, pc := v.cur.pc,
        sc := ordOf w == 4 && decide (5 ≤ scpOf w), needs := (v.die (laneDie v k)).vec, parked := false, stale := false }
    (canonical va = true → va.toNat % h.align = 0 → inPrivate va = false → roadFlat f (laneDie f k) (laneCtx f k) va.toNat h.align = false →
      vplaceAs f (laneDie f k) (laneCtx f k) va .square (if h.writes then .square else .load) = (v, .place loc home) →
      issues i w e s k l (awaiting (v.setDie d { v.die d with sqq := (v.die d).sqq ++ [q] }) k m
        { pendOf v .square h.dst none with addr := va, info := info, remote := isRemote v home, acq := acquires w })) ∧
    (l.spec = none →
      (canonical va = false → issues i w e s k l (raised s k (accTrap .noncanonical va info))) ∧
      (canonical va = true → va.toNat % h.align ≠ 0 → issues i w e s k l (raised s k (accTrap .atomicAlign va info))) ∧
      (canonical va = true → va.toNat % h.align = 0 → inPrivate va = true → issues i w e s k l (raised s k (accTrap .permission va info))) ∧
      (canonical va = true → va.toNat % h.align = 0 → inPrivate va = false →
        (roadFlat f (laneDie f k) (laneCtx f k) va.toNat h.align = true → issues i w e s k l (raised s k (accTrap .roadworks va info))) ∧
        ∀ x level mal, roadFlat f (laneDie f k) (laneCtx f k) va.toNat h.align = false →
          vplaceAs f (laneDie f k) (laneCtx f k) va .square (if h.writes then .square else .load) = (v, .fault x level mal) → replayable x = false →
          issues i w e s k l (raised s k { accTrap x va info with level := level, malformed := mal })))

/-- MWAIT empties D. Without a monitor it is answered with 2; with one that has triggered it disarms it and gives 0; else the lane sleeps until a
trigger, or until B cycles have passed where B is not 0 (R326). -/
def Obligations.MwaitSleepsUntilATrigger : Prop :=
  ∀ (s : State) (k : LaneId) (l : Lane) (w : IWord) (b : Nat), readSrc s k l w w.b w.wb .n32 = .val s b → l.quiet = true → l.st = .run →
    let rs := destRegs w.d .b32
    l.regsFull rs = true →
    let next := s.cur.pc + BitVec.ofNat 64 s.cur.len
    (l.mon = none → issues (.mwait w) w entryMwait s k l
      (if rs = [] then onward s k else awaiting s k l (pendOf s .square rs (some [2#32])))) ∧
    ∀ m, l.mon = some m →
      (m.triggered = false →
        issues (.mwait w) w entryMwait s k l
          (s.setLane k { (l.emptyRegs rs) with st := .mwait w.d (if b = 0 then none else some b) next })) ∧
      (m.triggered = true → ∃ p : Pend, p.dst = rs ∧ p.vals = some (rs.map (fun _ => 0#32)) ∧ p.needs = m.byWrite.getD Vec.zero ∧
        issues (.mwait w) w entryMwait s k l (s.setLane k (({ l.emptyRegs rs with mon := none, pend := l.pend ++ [p] } : Lane).goto next)))

/-- What an atomic writes for an old value and its operands: a sum modulo 2^w, the lesser or greater as T orders them, bitwise results, an exchange, a
compare and exchange, increments within a bound or wrapping at it, a decrement above 0; and it returns the old value: the Square performs an atomic of
a lane by itself, the bytes take the new value, the lane's delivery holds the old one, and every other byte of the die stands; AADDL adds only where
the limit behind the operand allows it, and says where it did not (R312, R317 to R319). A deque operation fails with DEQUE_BAD, finds the deque full
or empty, or moves one entry and one count, and its delivery holds the status, the entry and what is left; where it fails, or its entry's page is
missing, which parks it, the descriptor stands (R321 to R323). MARM arms the lane's monitor on the line and captures what it reads there, unless the
Square holds 4,096 others, and writes nothing (R324). -/
def Obligations.SquareOperationsReadAndWrite : Prop :=
  (∀ (t : Ty) (old b c : BitVec (tyWidth t)), t ∈ [Ty.i32, .n32, .b32, .i64, .n64, .b64] →
    let val := fun (x : BitVec (tyWidth t)) => if t = .i32 ∨ t = .i64 then x.toInt else (x.toNat : Int)
    let new := fun (op : Nat) => atomicNew op t old.toNat b.toNat c.toNat
    (∀ op ∈ [0x1C0, 0x1CC], new op = (old + b).toNat) ∧
    (∀ op ∈ [0x1C1, 0x1CD], new op = if val b < val old then b.toNat else old.toNat) ∧
    (∀ op ∈ [0x1C2, 0x1CE], new op = if val old < val b then b.toNat else old.toNat) ∧
    new 0x1C3 = (old &&& b).toNat ∧ new 0x1C4 = (old ||| b).toNat ∧ new 0x1C5 = (old ^^^ b).toNat ∧ new 0x1C6 = b.toNat ∧
    new 0x1C7 = (if old = b then c.toNat else old.toNat) ∧
    new 0x1C8 = (if val old + 1 ≤ val b then (old + 1).toNat else old.toNat) ∧
    new 0x1C9 = (if b ≠ 0 ∧ val b ≤ val old + 1 then 0 else (old + 1).toNat) ∧
    new 0x1CA = (if 0 < val old then (old - 1).toNat else old.toNat)) ∧
  (∀ (s : State) (d : Nat) (q : SqReq) (l : Lane), squareAlone s d q l → l.mon = none → 0 < tyBytes q.ty →
    let n := tyBytes q.ty
    let old := ofBytesLE (viewRead s d q.loc n)
    (∀ i < n, (mget (s.die d).stamps (q.loc + i) ⟨0, 0⟩).lt (nextStamp s d) = true) →
    let ends := fun (new : Nat) (vs : List Word) => ∃ t, exec (.squareOperation d) s = .next t ∧ (t.die d).sqq = [] ∧
      viewRead t d q.loc n = bytesLE n new ∧ (∀ a, a < q.loc ∨ q.loc + n ≤ a → byteAtDie t d a = byteAtDie s d a) ∧
      t.lane? q.lane = some (answered l q.pid (some vs) (nextVec s d))
    (q.op < 0x1CF → q.op ≠ 0x1CB → ends (atomicNew q.op q.ty old q.b q.c) (partsOf (tyRegs q.ty) old)) ∧
    (q.op = 0x1CB → q.ty ∈ [Ty.i32, .n32, .i64, .n64] →
      let val := fun (x : Nat) => if q.ty = .i32 ∨ q.ty = .i64 then (BitVec.ofNat (8 * n) x).toInt else (x : Int)
      let sum := val old + val q.b
      let fits := sum ≤ val (ofBytesLE (viewRead s d (q.loc + 8) n))
      ends (if fits then (BitVec.ofInt (8 * n) sum).toNat else old)
        (if n = 4 then [BitVec.ofNat 32 old, if fits then 0#32 else 1#32] else partsOf 2 (Nat.lor old (if fits then 0 else 2 ^ 63))))) ∧
  (∀ (s : State) (d : Nat) (q : SqReq) (l : Lane), squareAlone s d q l → l.mon = none → q.op ∈ [0x1CF, 0x1D0, 0x1D1] →
    let word := fun (i : Nat) => ofBytesLE (viewRead s d (q.loc + 8 * i) 8)
    let base := word 0
    let cap := word 1
    let top := word 2
    let bottom := word 3
    let flat := BitVec.ofNat 64 base
    let bad := cap = 0 ∨ 2 ^ 32 < cap ∨ base % 8 ≠ 0 ∨ canonical flat = false ∨ inPrivate flat = true ∨ bottom < top ∨ cap < bottom - top
    let push := q.op = 0x1CF
    let ends := fun (m : Lane) => ∃ t, exec (.squareOperation d) s = .next t ∧ (t.die d).sqq = [] ∧
      (∀ a, byteAtDie t d a = byteAtDie s d a) ∧ t.lane? q.lane = some m
    (bad → ends (unanswered l q.pid (.plain .dequeBad))) ∧
    (¬ bad → push → bottom - top = cap → ends (answered l q.pid (some [1#32]) (nextVec s d))) ∧
    (¬ bad → ¬ push → bottom = top → ends (answered l q.pid (some [0#32, 0#32, 1#32, 0#32]) (nextVec s d))) ∧
    (¬ bad → (push → bottom - top ≠ cap) → (¬ push → bottom ≠ top) →
      let i := if push then bottom else if q.op = 0x1D0 then bottom - 1 else top
      let va := BitVec.ofNat 64 ((base + 8 * (i % cap)) % 2 ^ 64)
      let at_ := if q.op = 0x1D1 then q.loc + 16 else q.loc + 24
      let new := if push then bottom + 1 else if q.op = 0x1D0 then bottom - 1 else top + 1
      let left := bottom - top - 1
      let found := vplace (s.setDie d { s.die d with sqq := [] }) d q.ctx va .square
      (canonical va = false → ends (unanswered l q.pid (.plain .noncanonical))) ∧
      (canonical va = true → inPrivate va = true → ends (unanswered l q.pid (.plain .permission))) ∧
      ∀ v, canonical va = true → inPrivate va = false → calm v q l → (v.die d).sqq = [] →
        (∀ x level mal, found = (v, .fault x level mal) → x ≠ .notPresent →
          ∃ t, exec (.squareOperation d) s = .next t ∧ (∀ a, byteAtDie t d a = byteAtDie v d a) ∧
            t.lane? q.lane = some (unanswered l q.pid { cause := x, attempts := 0, level := level, malformed := mal })) ∧
        (∀ f, found = (v, .failed f) → ∃ t, exec (.squareOperation d) s = .next t ∧ (∀ a, byteAtDie t d a = byteAtDie v d a) ∧
          t.lane? q.lane = some (unanswered l q.pid f)) ∧
        (∀ level mal, found = (v, .fault .notPresent level mal) →
          let posted := postFault v d (.square d) { va := va.toNat, cause := .notPresent, access := if push then 3 else 2, ctx := q.ctx, issuer := 3
                                                    lanes := 0, pc := q.pc.toNat, level := level }
          ∃ t, exec (.squareOperation d) s = .next t ∧ (t.die d).sqq = [{ q with parked := true }] ∧
            (∀ a, byteAtDie t d a = byteAtDie posted d a) ∧ t.lane? q.lane = some l) ∧
        ∀ loc home, found = (v, .place loc home) →
          (∀ j < 8, (mget (v.die d).stamps (at_ + j) ⟨0, 0⟩).lt (nextStamp v d) = true ∧
            (push → (mget (v.die d).stamps (loc + j) ⟨0, 0⟩).lt (nextStamp v d) = true)) →
          (push → loc + 8 ≤ q.loc ∨ q.loc + 32 ≤ loc) →
          ∃ t, exec (.squareOperation d) s = .next t ∧ (t.die d).sqq = [] ∧ viewRead t d at_ 8 = bytesLE 8 new ∧
            (push → viewRead t d loc 8 = bytesLE 8 q.b) ∧
            (∀ a, (a < at_ ∨ at_ + 8 ≤ a) → (push → a < loc ∨ loc + 8 ≤ a) → byteAtDie t d a = byteAtDie v d a) ∧
            t.lane? q.lane = some (answered l q.pid (some (if push then [0#32] else
              partsOf 2 (ofBytesLE (viewRead v d loc 8)) ++ [0#32, BitVec.ofNat 32 left])) (nextVec v d)))) ∧
  ∀ (s : State) (d : Nat) (q : SqReq) (l : Lane), squareAlone s d q l → q.op = 0x1D2 → l.st ≠ .exited →
    let n := tyBytes q.ty
    let old := ofBytesLE (viewRead s d q.loc n)
    let full := (∀ m, l.mon = some m → m.die ≠ d) ∧ 4096 ≤ armedAt s d
    let armed : Monitor :=
      { die := d, line := q.loc / 64, loc := q.loc, size := n, captured := old, triggered := false, byWrite := none, dormant := false }
    ∃ t, exec (.squareOperation d) s = .next t ∧ (t.die d).sqq = [] ∧ (∀ a, byteAtDie t d a = byteAtDie s d a) ∧
      (full → t.lane? q.lane = some (unanswered l q.pid (.plain .monitorLimit))) ∧
      (¬ full → t.lane? q.lane = some (answered { l with mon := some armed } q.pid (some (partsOf (tyRegs q.ty) old)) (s.die d).vec))

/-! ### Sets (spec/17) -/

/-- A set instruction sends its request to the home of the set that A names, or to the lane's own die for SNEW and for a handle that names no module's
set, its registers empty until the answer; SLOAD and SSTOR check their array first (R333 to R336, R354). A set of another module answers through the
fabric, with a value that the model leaves free, and where no port is ready the operation is a delivery that fails with REMOTE_TIMEOUT. An operation
that reads sets of another module names the first of them while it is on its way.
It follows the model's readings of log entry 11. -/
def Obligations.SetRequestsAreSent : Prop :=
  ∀ (i : Instr) (w : IWord) (e : Entry) (op : Nat) (s : State) (k : LaneId) (l : Lane) (a b c : Nat), setRow i = some (w, e, op) →
    let arr := op = 0x20D ∨ op = 0x20E
    reads s k l w ⟨.b32, if arr then .b64 else .b32, .b32, .none⟩ s a b c → l.quiet = true →
    let dst := regSpan w.d (if setPair w then 2 else 1)
    let reads_ := op ∈ [0x204, 0x205, 0x20B, 0x20C, 0x210] ∨ (op = 0x20F ∧ flg (memX w) 5 = false)
    let info := accInfo w.d.code .flat (if reads_ then false else true) 4 false
    let own := laneDie s k
    let d := if op = 0x200 ∨ isRemote s (a / 2 ^ 27) = true then own else a / 2 ^ 27 % 4
    let q : SetReq := { lane := k, pid := s.uid, op := op, ty := w.t, a := a, b := b, c := c, x := memX w, ctx := laneCtx s k, pc := s.cur.pc,
                        needs := (s.die own).vec, parked := false }
    let kind : PKind := if arr then .setArr else .set
    let others := (if 0x206 ≤ op ∧ op ≤ 0x208 then [b, c] else if op = 0x209 then [b] else []).filter (farSet s)
    let addr := fun (h : Nat) => BitVec.ofNat 64 (setElem op b * 2 ^ 32 + if op = 0x200 then 0 else h)
    let away : FarOp := { op := op, own := true, a := a, b := b, c := c, held := false }
    l.regsFull dst = true →
    ((arr → arrayFault s k b (4 * c) = none) →
      (op = 0x200 ∨ farSet s a = false →
        issues i w e s k l (awaiting (s.setDie d { s.die d with setq := (s.die d).setq ++ [q] }) k l
          { pendOf s kind dst none with
              addr := addr (others.headD a), info := info, remote := !others.isEmpty
              far := if others.isEmpty then none else some { away with own := false } })) ∧
      (op ≠ 0x200 → farSet s a = true →
        issues i w e s k l (awaiting { s with freeCtr := s.freeCtr + dst.length } k l
          { pendOf s kind dst (some ((List.range dst.length).map (fun i => Config.freeValue (s.freeCtr + i)))) with
              addr := addr a, info := info, remote := true, fail := if portsUp s then none else some (.plain .remoteTimeout),
              far := some away }))) ∧
    ∀ cause, arr → arrayFault s k b (4 * c) = some cause →
      issues i w e s k l (raised s k (accTrap cause (BitVec.ofNat 64 b) info))

/-- The Square performs SINS, SDEL or SHAS of a lane by itself, where the storage has room, no block it reads is bad and the stacks that it spills to
and fills back from are ready (R351; spec/22 R410): afterwards the handle's set holds its members with the element, without it, or as they were, and
the lane's delivery says whether the set changed, or held it (R342, R345, R348). Where they come to an end, the set-level operations leave the union,
the intersection or the difference of B's and C's members, those of B, or none, and say how many there are, SCLR how many there were; the others leave
the members, and give their count, the least one from B on or all ones, how many lie below B, a counter, which CLR clears, or the state of a block
(R337, R344, R347 to R350). -/
def Obligations.SetOperationsKeepTheMembers : Prop :=
  (∀ (s : State) (d slot : Nat) (q : SetReq) (x : Machine.PSet) (l : Lane), setAlone s d q l → (q.op = 0x202 ∨ q.op = 0x203 ∨ q.op = 0x204) →
    q.ty = .n32 → flg q.x 8 = false → setOf s q.ctx q.a = some (d, slot, x) → q.b < x.u →
    let y := if q.op = 0x204 then x else (x.change (q.op == 0x202) q.b).1
    let used := (if x.hash.isSome != y.hash.isSome then (itemsOf slot x).map (fun i => (d, i)) else []) ++
      operandUses d slot x (· == q.b / 4096)
    ∀ p, putSet s d slot y false used = some p → badUse s used = false → spillsAvail s p used = .ready →
    ∃ t z, exec (.setOperation d) s = .next t ∧ (t.die d).setq = [] ∧ setOf t q.ctx q.a = some (d, slot, z) ∧ z.u = x.u ∧
      (∀ n, n ∈ z.elems ↔ if q.op = 0x202 then n = q.b ∨ n ∈ x.elems else if q.op = 0x203 then n ≠ q.b ∧ n ∈ x.elems else n ∈ x.elems) ∧
      t.lane? q.lane = some (answered l q.pid (some [if q.op = 0x202 then (if q.b ∈ x.elems then 0 else 1) else (if q.b ∈ x.elems then 1 else 0)])
        (setNeeds t d q))) ∧
  ∀ (s u : State) (d slot : Nat) (q : SetReq) (x : Machine.PSet) (l : Lane) (r cost : Nat), setAlone s d q l →
    setOf s q.ctx q.a = some (d, slot, x) → q.op ∈ [0x205, 0x206, 0x207, 0x208, 0x209, 0x20A, 0x20B, 0x20C, 0x20F, 0x210] →
    onSet (s.setDie d { s.die d with setq := [] }) d slot x q = .done u r cost →
    ∃ t z, exec (.setOperation d) s = .next t ∧ (t.die d).setq = [] ∧ setOf t q.ctx q.a = some (d, slot, z) ∧ z.u = x.u ∧
      t.lane? q.lane = some (answered l q.pid (some (setVals q r cost)) (setNeeds t d q)) ∧
      (q.op ∈ [0x205, 0x20B, 0x20C, 0x20F, 0x210] → z.elems = x.elems) ∧
      (q.op ∈ [0x206, 0x207, 0x208, 0x209] → r = z.elems.length) ∧
      (∀ e m y v, setOf s q.ctx q.b = some (e, m, y) → (q.op = 0x209 → z.elems = y.elems) ∧
        ∀ f n, setOf s q.ctx q.c = some (f, n, v) → ∀ a,
          (q.op = 0x206 → (a ∈ z.elems ↔ a ∈ y.elems ∨ a ∈ v.elems)) ∧
          (q.op = 0x207 → (a ∈ z.elems ↔ a ∈ y.elems ∧ a ∈ v.elems)) ∧
          (q.op = 0x208 → (a ∈ z.elems ↔ a ∈ y.elems ∧ a ∉ v.elems))) ∧
      (q.op = 0x20A → z.elems = [] ∧ r = x.elems.length) ∧
      (q.op = 0x205 → r = x.elems.length) ∧
      (q.op = 0x20B → x.elems.Pairwise (· < ·) →
        ((∀ a ∈ x.elems, a < q.b) → r = 2 ^ 32 - 1) ∧
        ∀ a ∈ x.elems, q.b ≤ a → (∀ c ∈ x.elems, q.b ≤ c → a ≤ c) → r = a) ∧
      (q.op = 0x20C → r = (x.elems.filter (fun a => decide (a < q.b))).length) ∧
      (q.op = 0x20F → r = x.ctrs.getD (fld q.x 4 0) 0 ∧
        (flg q.x 5 = true → fld q.x 4 0 ∉ [16, 17, 20] → z.ctrs.getD (fld q.x 4 0) 0 = 0)) ∧
      (q.op = 0x210 →
        let offs := blockOffs x.elems (q.b / 4096)
        (x.u ≤ q.b ∨ (x.hash = none ∧ offs = []) → r = 0) ∧
        (q.b < x.u → x.hash.isSome = true → r = 2 ^ 31) ∧
        (q.b < x.u → x.hash = none → offs ≠ [] →
          r = (match x.form (q.b / 4096) with | .list => 1 | .bitmap => 2 | .runs => 3) * 2 ^ 29 + offs.length * 2 ^ 16 + x.blockCost (q.b / 4096)))

/-- SNEW of a lane by itself, where the storage has room and the stacks it spills to are ready, takes a free slot and delivers the handle of an empty
set with U one above B; SFREE frees the set, whose handle then names none. SLOAD adds the present entries of its array and says how many are new;
SSTOR writes the least members in order and says how many there are (R331, R342 to R344, R346). An operation on a handle that names no set of the
context fails with SET_BAD_HANDLE and that handle in xaddr, a result with an element that the set cannot hold with SET_UNIVERSE, and an operation that
fails changes no set and leaves its delivery failed (R330, R336, R348).
It follows the model's readings of log entry 11. -/
def Obligations.SetsAreMadeFilledAndFreed : Prop :=
  (∀ (s : State) (d slot : Nat) (q : SetReq) (l : Lane), setAlone s d q l → q.op = 0x200 → freeSlot s d = some slot →
    mget (s.die d).gens slot 1 < 256 →
    ∀ p, putSet s d slot { ctx := q.ctx, u := q.b + 1, elems := [], forms := [], hash := none, ctrs := List.replicate 21 0 } true [] = some p →
    spillsAvail s p [] = .ready →
    let h := domId s d * 2 ^ 27 + slot * 2 ^ 8 + mget (s.die d).gens slot 1
    ∃ t z, exec (.setOperation d) s = .next t ∧ (t.die d).setq = [] ∧ setOf t q.ctx h = some (d, slot, z) ∧ z.u = q.b + 1 ∧ z.elems = [] ∧
      z.ctrs = List.replicate 21 0 ∧ t.lane? q.lane = some (answered l q.pid (some [BitVec.ofNat 32 h]) (t.die d).vec)) ∧
  (∀ (s : State) (d slot : Nat) (q : SetReq) (x : Machine.PSet) (l : Lane), setAlone s d q l → setOf s q.ctx q.a = some (d, slot, x) →
    (q.op = 0x201 → ∃ t, exec (.setOperation d) s = .next t ∧ (t.die d).setq = [] ∧ setOf t q.ctx q.a = none ∧
      t.lane? q.lane = some (answered l q.pid (some []) (setNeeds t d q))) ∧
    ∀ u r cost, onSet (s.setDie d { s.die d with setq := [] }) d slot x q = .done u r cost →
      (q.op = 0x20D → ∀ v bs loc home a,
        bulkRead (s.setDie d { s.die d with setq := [] }) d q.ctx (BitVec.ofNat 64 q.b) (4 * q.c) .load = (v, .bytes bs loc home, a) →
        ∃ t z, exec (.setOperation d) s = .next t ∧ setOf t q.ctx q.a = some (d, slot, z) ∧ z.u = x.u ∧
          (∀ n, n ∈ z.elems ↔ n ∈ x.elems ∨ (n ∈ entriesOf q.c bs ∧ n ≠ 2 ^ 32 - 1)) ∧ z.elems.length = x.elems.length + r ∧
          t.lane? q.lane = some (answered l q.pid (some (setVals q r cost)) (setNeeds t d q))) ∧
      (q.op = 0x20E → ∀ v ps loc home a,
        let es := x.elems.take q.c
        bulkPlace (s.setDie d { s.die d with setq := [] }) d q.ctx (BitVec.ofNat 64 q.b) (4 * es.length) .store = (v, ps, .place loc home, a) →
        let cells := (placeCells (BitVec.ofNat 64 q.b) ps (entryBytes es)).1
        let dom := domId s d
        let vec := (s.die d).vec.set dom ((s.die d).vec.getD dom 0 + 1)
        s.inflight = [] → flg (s.mreg ⟨.dbgctl, q.ctx, 0⟩) 3 = false → (cells.map Prod.fst).Nodup →
        (∀ p ∈ cells, (mget (s.die d).stamps p.1 ⟨0, 0⟩).lt ⟨Vec.sum vec, dom⟩ = true) →
        ∃ t z, exec (.setOperation d) s = .next t ∧ setOf t q.ctx q.a = some (d, slot, z) ∧ z.elems = x.elems ∧ r = x.elems.length ∧
          (∀ p ∈ cells, byteAtDie t d p.1 = p.2) ∧
          t.lane? q.lane = some (answered l q.pid (some (setVals q r cost)) (setNeeds t d q)))) ∧
  ∀ (s : State) (d : Nat) (q : SetReq) (l : Lane), setAlone s d q l → q.op ≠ 0x200 →
    let fails := fun (f : FailInfo) (addr : Nat) => ∃ t, exec (.setOperation d) s = .next t ∧ (∀ e, (t.die e).sets = (s.die e).sets) ∧
      t.lane? q.lane = some { l with pend := l.pend.map (fun (p : Pend) => if p.id = q.pid then
        { p with vals := none, needs := Vec.zero, fail := some f, info := p.info ||| 0x10000#32, addr := BitVec.ofNat 64 addr
                 remote := p.remote && p.kind != .set && p.kind != .setArr, far := none } else p) }
    (setOf s q.ctx q.a = none → fails (.plain .setBadHandle) (setElem q.op q.b * 2 ^ 32 + q.a)) ∧
    ∀ slot x, setOf s q.ctx q.a = some (d, slot, x) →
      (∀ u f addr, onSet (s.setDie d { s.die d with setq := [] }) d slot x q = .fail u f addr → fails f addr) ∧
      (q.op ∈ [0x202, 0x203, 0x204] → x.u ≤ q.b → fails (.plain .setUniverse) (q.b * 2 ^ 32 + q.a)) ∧
      ∀ e m y, setOf s q.ctx q.b = some (e, m, y) →
        (q.op = 0x209 → (∃ n ∈ y.elems, x.u ≤ n) → fails (.plain .setUniverse) q.a) ∧
        ∀ f n v, setOf s q.ctx q.c = some (f, n, v) →
          (q.op = 0x206 → (∃ a, (a ∈ y.elems ∨ a ∈ v.elems) ∧ x.u ≤ a) → fails (.plain .setUniverse) q.a) ∧
          (q.op = 0x207 → (∃ a, a ∈ y.elems ∧ a ∈ v.elems ∧ x.u ≤ a) → fails (.plain .setUniverse) q.a) ∧
          (q.op = 0x208 → (∃ a, a ∈ y.elems ∧ a ∉ v.elems ∧ x.u ≤ a) → fails (.plain .setUniverse) q.a)

/-! ### Matrix engines (spec/14) -/

/-- A matrix instruction of a whole warp that owns its core's engine, with a tile it can use, queues one command with its operands, and its lanes go
on, the destinations of those with a true guard empty until the command completes (R281 to R283, R287, R290 to R302). -/
def Obligations.MatrixCommandsAreQueued : Prop :=
  ∀ (i : Instr) (r : MxRow) (s : State) (v : WarpId) (on : List LaneId) (k : LaneId) (l : Lane) (cfg : MCfg) (a b c : Nat) (rs : List Machine.Range),
    let core := laneCore s k
    let m := (s.core core).mx
    mxRow s k m cfg a b c i = some r → gathered r.w r.e s v on k l → m.owner = some v → (r.op ≠ 0x24B → m.cfg = some cfg) →
    readSrc s k l r.w (if r.w.a = .q 12 then .none else r.w.a) r.w.wa r.ta = .val s a →
    readSrc s k l r.w r.w.b r.w.wb r.tb = .val s b → readSrc s k l r.w r.w.c r.w.wc r.tc = .val s c → r.ok → r.ranges = some rs →
    m.q.length < 16 → rs.length ≤ roadRoom s (dieOf core) → warpQuiet s v = true →
    (∀ j ∈ on, ∀ n, s.lane? j = some n → n.regsFull r.dst = true) →
    ∃ t cmd, exec i s = .next t ∧ (t.core core).mx = { m with q := m.q ++ [cmd], nextCmd := m.nextCmd + 1 } ∧
      cmd.num = m.nextCmd ∧ cmd.op = r.op ∧ cmd.ty = r.ty ∧ cmd.x = r.w.x ∧ cmd.aq = r.w.a ∧ cmd.dq = r.w.d ∧ cmd.warp = v ∧ cmd.lanes = on ∧
      (r.ta ≠ .none → cmd.a = a) ∧ (r.tb ≠ .none → cmd.b = b) ∧ (r.op = 0x244 ∨ r.op = 0x245 ∨ r.op = 0x246 → cmd.c = c) ∧
      ∀ j ∈ lanesOfWarp v, ∀ n, s.lane? j = some n →
        (j ∉ on ∨ r.dst = [] → t.lane? j = some (n.advance s)) ∧
        (j ∈ on → r.dst ≠ [] → ∃ p : Pend, p.dst = r.dst ∧ p.vals = none ∧
          t.lane? j = some (({ n.emptyRegs r.dst with pend := n.pend ++ [p] } : Lane).advance s))

/-- MACQ gives a free engine to the warp, which then waits for its token, and only goes on for the owner; MREL gives it up with its flags in lane 0;
MCFG takes a good block and clears accumulators and weights; MSYNC to z goes on once the queue is empty; MSTAT delivers the status word of that moment
(R284, R285, R288, R289, R302).
It follows the model's readings of log entries 22 and 23. -/
def Obligations.MatrixEnginesHaveOneOwner : Prop :=
  ∀ (s : State) (w : IWord) (v : WarpId) (on : List LaneId) (k : LaneId) (l : Lane),
    let core := laneCore s k
    let m := (s.core core).mx
    let next := s.cur.pc + BitVec.ofNat 64 s.cur.len
    let goOn_ := fun (t : State) (j : LaneId) => ∀ n, s.lane? j = some n → t.lane? j = some (n.advance s)
    (gathered w entryMx0 s v on k l →
      (m.owner = some v → ∃ t, exec (.macq w) s = .next t ∧ t.cores = s.cores ∧ ∀ j ∈ lanesOfWarp v, goOn_ t j) ∧
      (m.owner = none → m.fifo = [] → ∃ t, exec (.macq w) s = .next t ∧ (t.core core).mx.owner = some v ∧ (t.core core).mx.fifo = [] ∧
        (t.die (dieOf core)).admq = (s.die (dieOf core)).admq ++ [{ who := .engine, units := 20, lane := { k with lane := 0 }, core := core, waited := 0 }] ∧
        (m.prevCtx ≠ some (laneCtx s k) → (t.core core).mx.acc = [] ∧ (t.core core).mx.cfg = none ∧ (t.core core).mx.wts = none) ∧
        ∀ j ∈ lanesOfWarp v, ∀ n, s.lane? j = some n → t.lane? j = some { n with st := .macq next (on.contains j) }) ∧
      (m.owner = some v → m.q = [] → m.fifo = [] → ∃ t, exec (.mrel w) s = .next t ∧ (t.core core).mx.owner = none ∧ (t.core core).mx.fl = 0 ∧
        (t.core core).mx.mq = [] ∧ (t.core core).mx.mr = [] ∧
        ∀ j ∈ lanesOfWarp v, ∀ n, s.lane? j = some n → t.lane? j = some ((if j.lane = 0 then n.raise m.fl else n).advance s))) ∧
    (∀ a g o cfg, gathered w entryMcfg s v on k l → m.owner = some v → readSrc s k l w w.a w.wa .b32 = .val s a → a % 64 = 0 →
      spadResolve s (LaneId.grp k) a 64 = some (g, o) → m.q = [] → parseCfg (spadRead s g o 64) = .inl cfg → warpQuiet s v = true →
      ∃ t, exec (.mcfg w) s = .next t ∧ (∀ j ∈ lanesOfWarp v, goOn_ t j) ∧
        (t.core core).mx = { m with cfg := some cfg, acc := [], wts := none, err := false, cause := .none, nextCmd := m.nextCmd + 1 }) ∧
    (gathered w entryMsync s v on k l → m.owner = some v → w.d = .z → m.q = [] → warpQuiet s v = true →
      ∃ t, exec (.msync w) s = .next t ∧ (t.core core).mx = { m with nextCmd := m.nextCmd + 1 } ∧ ∀ j ∈ lanesOfWarp v, goOn_ t j) ∧
    (∀ r, gathered w entryMstat s v on k l → m.owner = some v → w.d = .g r → (∀ j ∈ on, ∀ n, s.lane? j = some n → n.regsFull [r] = true) →
      ∃ t, exec (.mstat w) s = .next t ∧ t.cores = s.cores ∧
        ∀ j ∈ lanesOfWarp v, ∀ n, s.lane? j = some n →
          (j ∉ on → t.lane? j = some (n.advance s)) ∧
          (j ∈ on → ∃ p : Pend, p.dst = [r] ∧ p.vals = some [m.status m.q.length] ∧
            t.lane? j = some (({ n.emptyRegs [r] with pend := n.pend ++ [p] } : Lane).advance s)))

/-! ### Streams (spec/13) -/

/-- A stream instruction hands its command to its core's engine and delivers the ticket, or the issue end, at once; a bad command traps; a copy that
fits takes the engine's next ticket, registers its two ranges and is owed to its lane (R256, R257, R260, R262, R268, R274 to R276). -/
def Obligations.CommandsAreAccepted : Prop :=
  (∀ (i : Instr) (r : CmdRow) (s u t : State) (k : LaneId) (l : Lane) (a b c v : Nat), cmdRow i = some r → reads s k l r.w r.ts s a b c →
    l.quiet = true → destReady s k l r.w r.ts.d = true → (r.e = entryCpywClr → r.w.a = .none ∧ r.w.b = .none ∧ r.w.c = .none) →
    (cmdIssue s k (commandOf r a b c) = .issued u v → delivered u k r.w r.ts.d v 0 = some t → issues i r.w r.e s k l t) ∧
    (∀ x, cmdIssue s k (commandOf r a b c) = .trap x → issues i r.w r.e s k l (raised s k x))) ∧
  ∀ (s : State) (k : LaneId) (l : Lane) (g : Group) (a : CmdArgs) (x y : Machine.Range), s.lane? k = some l → s.group? (LaneId.grp k) = some g →
    a.op = 0x280 → 0 < a.cv → a.cv ≤ 2 ^ 20 → cmdCheck s k a = .inl ([x, y], [], a.cv) →
    let core := laneCore s k
    let d := dieOf core
    let ticket := (s.core core).ticket
    ((engineCmds s core).filter (fun c => isCopy c.op)).length < 1024 →
    (s.die d).road.length + 2 ≤ 4096 →
    ∃ u c, cmdIssue s k a = .issued u ticket.toNat ∧ (u.core core).cmds = (s.core core).cmds ++ [c] ∧ (u.core core).ticket = bumpTicket ticket ∧
      c.ticket = ticket ∧ c.op = a.op ∧ c.av = a.av ∧ c.bv = a.bv ∧ c.cv = a.cv ∧ c.lane = k ∧ c.ctx = laneCtx s k ∧ c.st = none ∧ c.done = [] ∧
      (∃ n, u.lane? k = some { l with owed := l.owed ++ [ticket], token := n }) ∧
      (∀ r ∈ [x, y], ({ ctx := c.ctx, space := r.spad, lo := r.lo, hi := r.hi, core := core, matrix := false, owner := c.owner } : Road) ∈ (u.die d).road) ∧
      ∀ r ∈ (u.die d).road, r ∉ (s.die d).road → r.core = core ∧ r.matrix = false ∧
        ((r.lo = x.lo ∧ r.hi = x.hi) ∨ (r.lo = y.lo ∧ r.hi = y.hi))

/-- SWAIT delivers the status of a ticket that is no longer outstanding, and SWAIT.all whether any since the last one failed; CHWP delivers its
channel's write pointer later; ISCFG and ITDEF take a good block of the group's scratchpad (R260, R267, R271, R274). -/
def Obligations.StreamStateIsReadAndDefined : Prop :=
  ∀ (s t : State) (k : LaneId) (l : Lane) (g : Group) (w : IWord) (a r : Nat), s.group? (LaneId.grp k) = some g → l.quiet = true →
    (reads s k l w ⟨.b32, .none, .none, .none⟩ s a 0 0 → ticketOut s k a = false →
      delivered s k w .b32 (ticketStatus s (LaneId.grp k) a) 0 = some t → issues (.swait w) w entrySwait s k l t) ∧
    (l.owed = [] → delivered (s.setLane k { l with owedBad := false }) k w .b32 (if l.owedBad then 0x80010000 else 0x80000000) 0 = some t →
      issues (.swaitAll w) w entrySwaitAll s k l t) ∧
    (w.d = .z → issues (.chwp w) w entryChwp s k l (onward s k)) ∧
    (w.d = .g r → l.regsFull [r, r + 1] = true →
      issues (.chwp w) w entryChwp s k l (awaiting s k l { pendOf s .chwp [r, r + 1] none with info := BitVec.ofNat 32 (sN0 w.x) })) ∧
    (∀ c, reads s k l w ⟨.b32, .none, .none, .none⟩ s a 0 0 → a % 32 = 0 → (istreamOf s (LaneId.grp k) (sN0 w.x)).isRunning = false →
      (∃ h o, spadResolve s (LaneId.grp k) a 32 = some (h, o) ∧ parseIs (spadRead s h o 32) = some c) →
      issues (.iscfg w) w entryIscfg s k l
        (onward (s.setGroup (LaneId.grp k) { g with istreams := g.istreams.set (sN0 w.x) (.configured c) }) k)) ∧
    (∀ c, reads s k l w ⟨.b32, .none, .none, .none⟩ s a 0 0 → a % 64 = 0 →
      (∃ h o, spadResolve s (LaneId.grp k) a 64 = some (h, o) ∧ parseIter (spadRead s h o 64) g.scratch = .inl c) →
      issues (.itdef w) w entryItdef s k l (onward (s.setGroup (LaneId.grp k) { g with iters := g.iters.set (sN0 w.x) (some c) }) k))

/-! ### Checks and exceptions (spec/02 R57; spec/03 R83 to R86; spec/20 R374 to R380) -/

/-- The checks of every instruction come in R57's order: a guard register out of range; then, behind a true guard, the type, the operands, the
modifiers and the privilege; a lane guarded off only goes on, and one whose try has a conflict aborts it first and does not issue (spec/02 R57;
spec/03 R83; spec/05 R118; spec/08 R206).
It follows the model's readings of log entry 27. -/
def Obligations.ChecksComeInOrder : Prop :=
  (∀ (i : Instr) (w : IWord) (e : Entry) (s : State) (k : LaneId) (l : Lane), checked i = some (w, e) → alone s k l →
    (gate e w k l s = .skip → exec i s = .next (s.setLane k (l.advance s))) ∧
    (gate e w k l s = .wait → exec i s = .next { s with blocked := k :: s.blocked }) ∧
    (∀ t, gate e w k l s = .trap t → exec i s = .next (raised s k t)) ∧
    ∀ c, gate e w k l s = .abort c →
      exec i s = .next (if c = 4 then notIssued (abortTries s [k] c 0) [k] else abortTries s [k] c 0)) ∧
  (∀ (w : IWord) (e : Entry) (s : State) (k : LaneId) (l : Lane) (t : Try), l.spec = some t → t.conflict = true → gate e w k l s = .abort 4) ∧
  ∀ (w : IWord) (e : Entry) (s : State) (k : LaneId) (l : Lane), (∀ t, l.spec = some t → t.conflict = false) →
    let n := laneRegs s k
    let guard := (l.reg w.gr).full
    let on := w.ge = false ∨ (w.gr < n ∧ guard = true ∧ flg (l.reg w.gr).val w.gb ≠ w.gn)
    let fits := fun (cs : List Cls) (o : Operand) => ∃ c ∈ cs, c.has w.t n o = true
    let operands := fits e.d w.d ∧ fits e.a w.a ∧ fits e.b w.b ∧ fits e.c w.c ∧ e.more n w = true
    let special := e.priv = true ∨ srPriv w.d = true ∨ srPriv w.a = true ∨ srPriv w.b = true ∨ srPriv w.c = true
    let trap := fun (c : Cause) => Gate.trap (TrapInfo.plain c 0)
    (w.ge = true → n ≤ w.gr → gate e w k l s = trap .illOperand) ∧
    (w.ge = true → w.gr < n → guard = false → gate e w k l s = .wait) ∧
    (w.ge = true → w.gr < n → guard = true → flg (l.reg w.gr).val w.gb = w.gn → gate e w k l s = .skip) ∧
    (on → e.tOk w = false → gate e w k l s = trap .illType) ∧
    (on → e.tOk w = true → ¬ operands → gate e w k l s = trap .illOperand) ∧
    (on → e.tOk w = true → operands → e.xOk w = false → gate e w k l s = trap .illModifier) ∧
    (on → e.tOk w = true → operands → e.xOk w = true → special → l.hx = none → gate e w k l s = trap .privileged) ∧
    (on → e.tOk w = true → operands → e.xOk w = true → (¬ special ∨ l.hx.isSome = true) →
      gate e w k l s = if l.spec.isSome = true ∧ syncs e w = true then .abort 7 else .go)

/-- A trap in lanes that run no handler adds one sub-warp to their warp, with the PC, the lanes, the cause, the address and detail, and the number of
its fault record, and parks the lanes at the PC with everything else of theirs as it was, but that a token granted to them is given back, a handler's
or debugger's step of theirs is over, and the debugger reads their x registers as the sub-warp's; in a handler it ends the grid with HANDLER_FAULT
(spec/01 R28; spec/03 R83; spec/08 R433; spec/20 R374). The die's trace ring is off here, so that the record is only emitted.
It follows the model's readings of log entries 16 and 31. -/
def Obligations.TrapsParkTheirLanes : Prop :=
  ∀ (s : State) (v : WarpId) (x : Warp) (pc : Addr) (len i : Nat) (l : Lane) (t : TrapInfo),
    let k : LaneId := ⟨v.gang, v.group, v.warp, i⟩
    let core := laneCore s k
    s.warp? v = some x → s.lane? k = some l → i < 32 → s.mreg ⟨.trbase, dieOf core, 0⟩ = 0 → ctxKeyId s (laneCtx s k) = 0 →
    let shown : Handler := { cause := BitVec.ofNat 6 t.cause.code, pc := pc, addr := t.xaddr, mask := 1#32 <<< i, info := t.xinfo, len := len,
                             seq := (s.core core).seqLane, orig := t.cause, cmp := [] }
    (l.hx = none → ∃ u r, parkSub s v pc len [(i, t)] = u ∧ u.lane? k = some
        { l with st := .trapped, pc := pc, token := 0, stepTrap := false, stepDue := false, stepping := false, xout := shown } ∧
      u.warp? v = some { x with subs := x.subs ++ [{ pc := pc, mask := 1#32 <<< i, cause := t.cause, xaddr := t.xaddr, xinfo := t.xinfo, len := len,
                                                     seq := (s.core core).seqLane, delivered := false }] } ∧
      (∀ j, j ≠ k → u.lane? j = s.lane? j) ∧ u.groups = s.groups ∧ u.gangs = s.gangs ∧ u.grids = s.grids ∧
      (∀ d a, byteAtDie u d a = byteAtDie s d a) ∧ r ∈ u.recs ∧ r.kind = 0x12 ∧ r.seq = (s.core core).seqLane ∧
      (0x98, 1, t.cause.code) ∈ r.body ∧ (0x90, 8, pc.toNat) ∈ r.body) ∧
    (l.hx.isSome = true → ∀ g, s.grid? (gangGrid s v.gang) = some g → g.done = false →
      ∃ u h, parkSub s v pc len [(i, t)] = u ∧ u.grid? (gangGrid s v.gang) = some h ∧ h.ended = (g.ended <|> some (1, .handlerFault)))

/-- The trap of the first awaiting sub-warp that may be delivered starts its lanes at VECTOR in handler mode, with xcause, xpc, xaddr, xmask, xinfo
and XLEN of the sub-warp, their registers and masks as they were; a lane whose try was rolled back while it was parked has the abort's target for xpc
and an XLEN of 0. TRET leads back to xpc, or past the instruction, in the ordinary mode (spec/03 R85, R86; spec/20 R374, R375, R379, R380).
It follows the model's readings of log entries 27 and 31. -/
def Obligations.HandlersBeginAndReturn : Prop :=
  (∀ (s : State) (g : GroupId) (v : WarpId) (u : SubWarp) (x : Warp), nextTrap s g = some (v, u) → s.warp? v = some x → u.cause ≠ .watchdog →
    ∃ t, exec (.trapDelivery g) s = .next t ∧
      t.warp? v = some { x with subs := x.subs.map (fun y => if y.seq = u.seq then { y with delivered := true } else y) } ∧
      ∀ i < 32, ∀ l, s.lane? ⟨v.gang, v.group, v.warp, i⟩ = some l →
        (flg u.mask i = true → ∃ h, t.lane? ⟨v.gang, v.group, v.warp, i⟩ =
            some { l with st := .run, pc := s.mreg ⟨.vector, gangCtx s v.gang, 0⟩, hx := some h, cmpSkip := [] } ∧
          h.cause.toNat = u.cause.code % 64 ∧ h.pc = l.pc ∧ h.addr = u.xaddr ∧ h.mask = u.mask ∧ h.info = setFld u.xinfo 31 31 0 ∧
          h.len = if l.pc = u.pc then u.len else 0) ∧
        (flg u.mask i = false → t.lane? ⟨v.gang, v.group, v.warp, i⟩ = some l)) ∧
  ∀ (s : State) (k : LaneId) (l : Lane) (h : Handler) (w : IWord), alone s k l → l.hx = some h → (∀ r ∈ l.loops, r.act = false) →
    let skip : Addr := if h.orig = .illOpcode ∨ h.orig = .illEncoding ∨ h.orig = .fetchFault then BitVec.ofNat 64 (fld h.info 8 4) else BitVec.ofNat 64 h.len
    let back := fun (pc : Addr) (cmp : List Nat) => { l with hx := none, xout := h, pc := pc, stepTrap := flg h.info 31, cmpSkip := cmp }
    (gate (entryTret 0) w k l s = .go → ∃ t, exec (.tret w) s = .next t ∧ t.lane? k = some (back h.pc h.cmp) ∧ ∀ j, j ≠ k → t.lane? j = s.lane? j) ∧
    (gate (entryTret 1) w k l s = .go → ∃ t, exec (.tretSkip w) s = .next t ∧ t.lane? k = some (back (h.pc + skip) []) ∧
      ∀ j, j ≠ k → t.lane? j = s.lane? j)

/-! ### System and debug instructions (spec/20, spec/21) -/

/-- TRAP raises SOFT_TRAP with B's low byte; MFS delivers the system register that X names and MTS writes it unless it is read only; LTRIG marks the
lane, once its Square and set operations are performed, as triggered once and counts it for its grid; IDEM clears its group's flag; TRET.endg exits
the group's lanes, whose accesses that wait for XREPLAY at a Square are given up, and TRET.endr ends the grid with the cause in xcause (R379, R380,
R382). A special register answers with the lane's place, its gang's and grid's numbers, its core's cycle count, its flags, modes and statuses, its
context and, in a handler, the x registers; a write replaces the fields of those that may be written and changes no other (spec/02 R46, R48; spec/04
R106, R107; spec/08 R203, R211). A fault word traps every lane that reaches it, whatever its guard, with its cause, the byte it stands at and the two
lengths; a word of a failed fetch leaves the instruction cache (spec/02 R38 to R40). -/
def Obligations.SystemInstructions : Prop :=
  (∀ (s : State) (k : LaneId) (l : Lane) (w : IWord) (a b c : Nat) (p : Group) (g : Gang) (r : Grid), s.group? (LaneId.grp k) = some p →
     s.gang? k.gang = some g → s.grid? g.grid = some r →
     let ctx := laneCtx s k
     let sreg := fld w.x 7 0
     let held := fun (n : MName) => (s.mreg ⟨n, ctx, 0⟩).toNat
     let clear := { p with idem := false }
     (reads s k l w ⟨.none, .b32, .none, .none⟩ s a b c →
       issues (.trap w) w entryTrap s k l (raised s k (TrapInfo.plain .softTrap (BitVec.ofNat 32 (b % 256))))) ∧
     (∀ h v t, l.hx = some h →
       [held .ctxctl, held .wdog, held .drainb, held .vector, h.len, h.seq, p.issues, p.expect][sreg]? = some v →
       delivered s k w w.t v 0 = some t → issues (.mfs w) w entryMfs s k l t) ∧
     (reads s k l w ⟨w.t, .none, .none, .none⟩ s a b c →
       (∀ n, [MName.ctxctl, .wdog, .drainb][sreg]? = some n → issues (.mts w) w entryMts s k l (onward (regStore s ⟨n, ctx, 0⟩ a) k)) ∧
       (sreg = 7 → issues (.mts w) w entryMts s k l (onward (s.setGroup (LaneId.grp k) { p with expect := a }) k)) ∧
       (3 ≤ sreg → sreg ≤ 6 → issues (.mts w) w entryMts s k l (onward s k))) ∧
     (l.triggered = true → outstanding s k = false → issues (.ltrig w) w {} s k l (onward s k)) ∧
     (l.triggered = false → outstanding s k = false → r.trig + 1 ≠ r.nlanes →
       issues (.ltrig w) w {} s k l (onward ((s.setLane k { l with triggered := true }).setGrid g.grid { r with trig := r.trig + 1 }) k)) ∧
     issues (.idem w) w {} s k l (onward (s.setGroup (LaneId.grp k) clear) k) ∧
     (alone s k l → gate (entryTret 2) w k l s = .go → noneParked s k.gang →
       ∃ t, exec (.tretEndg w) s = .next t ∧ (∀ j m, LaneId.grp j = LaneId.grp k → s.lane? j = some m → ∃ x, t.lane? j = some x ∧ x.st = .exited) ∧
         ∀ d, (∀ q ∈ (t.die d).sqq, q.parked = true → LaneId.grp q.lane ≠ LaneId.grp k) ∧
           ∀ q ∈ (t.die d).setq, q.parked = true → LaneId.grp q.lane ≠ LaneId.grp k) ∧
     (∀ h, alone s k l → gate (entryTret 3) w k l s = .go → l.hx = some h → r.done = false →
       ∃ t x, exec (.tretEndr w) s = .next t ∧ t.grid? g.grid = some x ∧ x.ended = (r.ended <|> some (1, Cause.ofCode h.cause.toNat)) ∧
         x.retired = r.ngang ∧ ∀ q ∈ t.gangs, q.2.grid = g.grid → q.2.st = .saving ∨ q.2.st = .ended)) ∧
  (∀ (s : State) (k : LaneId) (l : Lane) (w : IWord) (wait : Bool) (ty : Ty) (p : Group) (g : Gang) (r : Grid), s.group? (LaneId.grp k) = some p →
     s.gang? k.gang = some g → s.grid? g.grid = some r →
     let answers := fun (n v : Nat) => readSrc s k l w (.sr n) wait ty = .val s (v % 2 ^ tyWidth ty)
     let core := s.core p.core
     let queue := fun (i : Nat) => p.queues.getD i none
     let owns := core.mx.owner = some (LaneId.wid k)
     answers 0 k.lane ∧ answers 1 (k.lane / 4) ∧ answers 2 k.warp ∧ answers 3 k.group ∧ answers 4 g.index ∧ answers 5 (r.seq % 2 ^ 32) ∧
     answers 6 p.nwarps ∧ answers 7 g.ngroups ∧ answers 8 r.ngang ∧ answers 9 (core.cyc % 2 ^ 64) ∧ answers 10 l.fflags.toNat ∧
     answers 11 (l.te.toNat * 2 ^ 8 + l.rm.toNat) ∧
     ((∀ x, l.spec = some x → x.depth ≤ 4) →
       answers 12 (l.tsUser.toNat * 2 ^ 16 + (match l.spec with | some x => x.depth | none => 0) * 2 ^ 8 + b2n l.tsKill * 2 ^ 7 + l.tsCode.toNat)) ∧
     (∃ v : Word, answers 13 v.toNat ∧ fld v 31 28 = 0 ∧
       (∀ i < 12, (flg v i = true ↔ ∃ q, queue i = some q ∧ q.count ≠ 0) ∧ (flg v (12 + i) = true ↔ (queue i).isSome = true)) ∧
       (flg v 24 = true ↔ owns ∧ core.mx.mr ≠ []) ∧ (flg v 25 = true ↔ ∃ x, s.warp? (LaneId.wid k) = some x ∧ x.cd ≠ []) ∧
       (flg v 26 = true ↔ owns ∧ 256 ≤ core.mx.mq.length) ∧ (flg v 27 = true ↔ 64 ≤ (engineCmds s p.core).length)) ∧
     answers 14 r.ctx ∧
     ∀ h, l.hx = some h → answers 16 h.cause.toNat ∧ answers 17 h.pc.toNat ∧ answers 18 h.addr.toNat ∧ answers 19 h.mask.toNat ∧ answers 20 h.info.toNat) ∧
  (∀ (l : Lane) (v : Nat),
     l.srWrite 10 v = { l with fflags := BitVec.ofNat 6 v } ∧
     l.srWrite 11 v = { l with te := BitVec.ofNat 6 (v / 2 ^ 8), rm := if v % 8 < 4 then BitVec.ofNat 3 v else 0 } ∧
     (∀ n, n < 10 ∨ 12 ≤ n ∧ n < 16 ∨ n = 19 → l.srWrite n v = l) ∧
     ∀ h, l.hx = some h →
       l.srWrite 16 v = { l with hx := some { h with cause := BitVec.ofNat 6 v } } ∧ l.srWrite 17 v = { l with hx := some { h with pc := BitVec.ofNat 64 v } } ∧
       l.srWrite 18 v = { l with hx := some { h with addr := BitVec.ofNat 64 v } } ∧ l.srWrite 20 v = { l with hx := some { h with info := BitVec.ofNat 32 v } }) ∧
  (∀ (s : State) (k : LaneId) (l : Lane) (c : Cause) (o n : Nat), alone s k l → (∀ t, l.spec = some t → t.conflict = false) →
     ∃ x : TrapInfo, x.cause = c ∧ x.xaddr = (if c = .fetchFault then s.cur.pc + BitVec.ofNat 64 o else s.cur.pc) ∧
       x.xinfo = BitVec.ofNat 32 (o + 16 * n) ∧
       (c ≠ .fetchFault → exec (.faultWord c o n) s = .next (raised s k x)) ∧
       (c = .fetchFault → ∃ t, exec (.faultWord c o n) s = .next t ∧ t.lanes = (raised s k x).lanes ∧ t.warps = (raised s k x).warps ∧
         mfind (t.core s.cur.core).icache (gangCtx (raised s k x) s.cur.gang, s.cur.pc) = none))

/-- LNCH traps on a misaligned record, one outside the allocation, and a queue that is not enabled for its context; else it reads TAIL and HEAD at the
Square that homes them and delivers 1 to D when the queue is full, or writes the record and TAIL + 1 as one flat write and delivers 0 (R381; spec/12
R241, R246). That it applies what its reads of TAIL and HEAD followed at the lane's own die, where the queue is full above all, is the reading of log
entry 21.
It follows the model's readings of log entries 21 and 37. -/
def Obligations.LaunchesAreAppended : Prop :=
  ∀ (s v u t : State) (k : LaneId) (l : Lane) (w : IWord) (a b c loc home rloc rhome o : Nat) (g : GroupId),
    reads s k l w ⟨.b32, .b32, .none, .none⟩ s a b c → l.quiet = true → destReady s k l w .b32 = true →
    let q := b % 64
    let info := accInfo w.d.code .spad false 128 false
    let open_ := flg (s.mreg ⟨.lqctl, q, 0⟩) 15 = true ∧ fld (s.mreg ⟨.lqctl, q, 0⟩) 13 8 = laneCtx s k
    let base := s.mreg ⟨.lqbase, q, 0⟩
    let n := 2 ^ fld (s.mreg ⟨.lqctl, q, 0⟩) 3 0
    let d := localDie v home
    let tail := ofBytesLE (viewRead (drainTo v d) d loc 8)
    let head := ofBytesLE (viewRead (drainTo v d) d (loc + 8) 8)
    let rva := base + BitVec.ofNat 64 (0x80 + 128 * (tail % n))
    let cells := (spadRead s g o 128).zipIdx.map (fun p => (rloc + p.2, p.1)) ++ (bytesLE 8 (tail + 1)).zipIdx.map (fun p => (loc + p.2, p.1))
    let vas := (List.range 128).map (fun i => rva.toNat + i) ++ (List.range 8).map (fun i => base.toNat + i)
    (a % 64 ≠ 0 → issues (.lnch w) w entryLnch s k l (raised s k (accTrap .misaligned (BitVec.ofNat 64 a) info))) ∧
    (a % 64 = 0 → spadResolve s (LaneId.grp k) a 128 = none →
      issues (.lnch w) w entryLnch s k l (raised s k (accTrap .spadBounds (BitVec.ofNat 64 a) info))) ∧
    (a % 64 = 0 → spadResolve s (LaneId.grp k) a 128 = some (g, o) →
      (¬ open_ → issues (.lnch w) w entryLnch s k l (raised s k (TrapInfo.plain .launchFault (BitVec.ofNat 32 q)))) ∧
      (open_ → ringFault s k base 16 = none → vplace s (laneDie s k) (laneCtx s k) base .square = (v, .place loc home) →
        squareUp v (homeSquare v home) = true →
        ((tail + 2 ^ 64 - head) % 2 ^ 64 = n → delivered (drainTo (drainTo v d) (laneDie (drainTo v d) k)) k w .b32 1 0 = some t →
          issues (.lnch w) w entryLnch s k l t) ∧
        ((tail + 2 ^ 64 - head) % 2 ^ 64 ≠ n → ringFault (drainTo v d) k rva 128 = none →
          placeRecord (drainTo v d) (laneDie (drainTo v d) k) (laneCtx s k) rva = (u, .place rloc rhome, rva) →
          delivered (drainTo (flatWrite u d cells (laneTag u k 3 vas)) (laneDie u k)) k w .b32 0 0 = some t →
          issues (.lnch w) w entryLnch s k l t)))

/-- BKPT traps without a debugger and, with one, stops its lane at the next instruction; WATCH and UNWATCH set and clear a region for the handler or
where UW lets programs; CNTR delivers a counter of its core's bank and CNTRST zeroes the context's; TMARK writes a record where the trace is on
(spec/21 R384, R390 to R393, R399 to R401, R404).
It follows the model's readings of log entry 25. -/
def Obligations.DebugInstructions : Prop :=
  ∀ (s : State) (k : LaneId) (l : Lane) (w : IWord) (a b c : Nat),
    let ctx := laneCtx s k
    let core := laneCore s k
    let ctl := s.mreg ⟨.dbgctl, ctx, 0⟩
    let may := l.hx.isSome = true ∨ flg ctl 2 = true
    let closed := raised s k (TrapInfo.plain .privileged 0)
    let n := fld w.x 3 0
    let watch := fun (t : State) => issues (.watch w) w entryWatch s k l t
    (reads s k l w ⟨.none, .b32, .none, .none⟩ s a b c →
      (flg ctl 0 = false → issues (.bkpt w) w entryBkpt s k l (raised s k (TrapInfo.plain .breakpoint (BitVec.ofNat 32 (b % 256))))) ∧
      (flg ctl 0 = true → l.stopped = false → l.st = .run → alone s k l → gate entryBkpt w k l s = .go →
        ∃ t m, exec (.bkpt w) s = .next t ∧ t.lane? k = some m ∧ m.pc = (l.advance s).pc ∧ m.regs = l.regs ∧ m.stopped = true)) ∧
    (¬ may → watch closed ∧ issues (.unwatch w) w entryUnwatch s k l closed) ∧
    (may → issues (.unwatch w) w entryUnwatch s k l (onward (setRegion s ctx n 0 0 none) k)) ∧
    (may → flg w.x 4 = false → reads s k l w ⟨.b64, .b32, .none, .none⟩ s a b c →
      let first : Addr := BitVec.ofNat 64 a
      let last : Addr := BitVec.ofNat 64 (a + (b - 1))
      (b = 0 → watch (onward (setRegion s ctx n 0 0 none) k)) ∧
      (b ≠ 0 → (canonical first = false ∨ canonical last = false) →
        watch (raised s k (accTrap .noncanonical first (accInfo w.d.code .flat false 1 false)))) ∧
      (b ≠ 0 → canonical first = true → canonical last = true → inPrivate first = false → inPrivate last = false →
        watch (onward (setRegion s ctx n a b none) k))) ∧
    (may → flg w.x 4 = true → reads s k l w ⟨.b32, .b32, .none, .none⟩ s a b c → b ≠ 0 →
      (spadResolve s (LaneId.grp k) a b = none → watch (raised s k (accTrap .spadBounds (BitVec.ofNat 64 a) (accInfo w.d.code .spad false 1 false)))) ∧
      (∀ p, spadResolve s (LaneId.grp k) a b = some p → watch (onward (setRegion s ctx n a b (some p)) k))) ∧
    (reads s k l w ⟨.none, .b32, .none, .none⟩ s a b c →
      (∀ t, b / 8 % 128 ≤ 64 → b % 8 ≤ 6 → (b % 8 = 6 → b / 8 % 128 = 64) →
        delivered s k w .b64 (mget (s.core core).lcb (ctx, b / 8 % 128, b % 8) 0) 0 = some t → issues (.cntr w) w entryCntr s k l t) ∧
      (∀ t, (64 < b / 8 % 128 ∨ 6 < b % 8 ∨ b % 8 = 6 ∧ b / 8 % 128 ≠ 64) → delivered s k w .b64 0 0 = some t →
        issues (.cntr w) w entryCntr s k l t) ∧
      (flg ctl 3 = false → issues (.tmark w) w entryTmark s k l (onward s k)) ∧
      (flg ctl 3 = true → l.st = .run → alone s k l → gate entryTmark w k l s = .go → ∃ t m r, exec (.tmark w) s = .next t ∧
        t.lane? k = some m ∧ m.pc = (l.advance s).pc ∧ m.regs = l.regs ∧
        r ∈ t.recs ∧ r.kind = 0x52 ∧ (ctxKeyId s ctx = 0 → (0x90, 8, s.cur.pc.toNat) ∈ r.body ∧ (0x98, 4, b) ∈ r.body))) ∧
    issues (.cntrst w) w {} s k l (onward (s.setCore core { s.core core with lcb := (s.core core).lcb.filter (fun p => p.1.1 != ctx) }) k)

/-! ### Events that reach lanes (spec/01 R13, R17, R29; spec/03 R87; spec/08 R190; spec/12 R244; spec/16 R325, R326; spec/20 R377) -/

/-- A delivery fills its registers in one step, after the writes it follows are applied at the lane's die; TSTAT takes its value then, and so does
CHWP, which is the model's choice (log 22). A failed one traps the lane where it stands, its registers still empty, or aborts the open try that made
the access with code 5; so does an error of the fabric for an access that another module answers, and a time-out once no port is ready or FTMO ×
65,536 cycles have passed, when no delivery is made any more, but for a set operation that its own handles fail first; where another module takes part
in a set operation, which handle the address names is left free (spec/01 R13, R17; spec/08 R190, R207, R211; spec/12 R241; spec/13 R267; spec/17 R336,
R352 to R355; spec/22 R413).
It follows the model's readings of log entries 6, 11, 22 and 30. -/
def Obligations.DeliveriesArrive : Prop :=
  ∀ (s u : State) (k : LaneId) (l m : Lane) (i : Nat) (p : Pend), s.lane? k = some l → l.pend[i]? = some p →
    let late := drainTo s (laneDie s k)
    let overdue := portsUp s = false ∨ (s.mreg ⟨.ftmo, 0, 0⟩).toNat * 65536 ≤ p.waited
    let after := fun (t : State) (addr : Addr) (f : FailInfo) =>
      let dropped := dropRequest (t.setLane k (l.dropPend i)) p.id
      woke (recheckGang (if p.inTry && l.spec.isSome then abortTries dropped [k] 5 0
      else parkSub dropped (LaneId.wid k) l.pc (lenAt dropped (LaneId.wid k) l.pc)
        [(k.lane, { cause := f.cause, xaddr := addr, xinfo := p.info ||| 0x10000#32, perLane := some addr, level := f.level,
                    malformed := f.malformed, attempts := f.attempts, under := f.cause })]) k.gang)
    (p.fail = none → p.remote = true → overdue → exec (.delivery k i) s = .next (woke s)) ∧
    (p.fail = none → (p.remote = false ∨ ¬ overdue) → l.st ≠ .exited → (if Vec.le p.needs (s.die (laneDie s k)).vec then s else late) = u → u.lane? k = some m →
      (∀ vs : List Word, p.kind ≠ .tstat → (if p.kind = .chwp then some (partsOf 2 (chanOf s (LaneId.grp k) p.info.toNat).wp) else p.vals) = some vs →
        p.dst.length = vs.length → p.dst.Nodup → (∀ r ∈ p.dst, r < m.regs.length) → ∃ x : Lane, exec (.delivery k i) s =
            .next (woke (if p.awayOpen then recheckGang (u.setLane k x) k.gang else u.setLane k x)) ∧
          x.pend = m.pend.eraseIdx i ∧ x.pc = m.pc ∧ x.st = m.st ∧ (∀ (n r : Nat) (v : Word), p.dst[n]? = some r → vs[n]? = some v → x.reg r = ⟨v, true⟩) ∧
          ∀ r, r ∉ p.dst → x.reg r = m.reg r)) ∧
    (∀ r, p.fail = none → p.remote = false → l.st ≠ .exited → p.kind = .tstat → p.dst = [r] → late.lane? k = some m → (∀ t, m.spec = some t → t.conflict = false) →
      m.pend.find? (fun q => q.id == p.id) = some p →
      exec (.delivery k i) s = .next (woke (late.setLane k (({ m with pend := m.pend.filter (fun q => q.id != p.id) } : Lane).setReg r m.tstat)))) ∧
    (l.st.takesFailure = true →
      (∀ f : FailInfo, p.fail = some f → exec (.failedDelivery k i f.cause) s = .next (after s p.addr f)) ∧
      (p.fail = none → handlesStand s p.id = true →
        (∀ c, p.far = none → p.kind = .load ∨ p.kind = .ldc ∨ p.kind = .store → c = .uncorrectable ∨ c = .poison ∨ c = .capacityTierError →
          exec (.failedDelivery k i c) s = .next (after s p.addr (.plain c))) ∧
        (p.remote = true →
          (¬ overdue → exec (.remoteTimeout k i) s = .next (woke s)) ∧
          (p.far = none →
            (overdue → exec (.remoteTimeout k i) s = .next (after s p.addr (.plain .remoteTimeout))) ∧
            exec (.fabricError k i) s = .next (after s p.addr (.plain .fabricError))) ∧
          ∀ x : FarOp, p.far = some x → x.op ≠ 0x20D → x.op ≠ 0x20E →
            let u : State := { s with freeCtr := s.freeCtr + 4 }
            let srcs := if x.op = 0x209 then [x.b] else if 0x206 ≤ x.op ∧ x.op ≤ 0x208 then [x.b, x.c] else []
            let fails := fun (ev : Instr) (c : Cause) (hs : List Nat) =>
              ∃ h ∈ hs, exec ev s = .next (after u (BitVec.ofNat 64 (setElem x.op x.b * 2 ^ 32 + h)) (.plain c))
            (x.own = true →
              (overdue → fails (.remoteTimeout k i) .remoteTimeout (x.a :: srcs)) ∧ fails (.fabricError k i) .fabricError (x.a :: srcs) ∧
              fails (.failedDelivery k i .engineReset) .engineReset [x.a] ∧
              (x.op ∈ [0x202, 0x203, 0x204] → fails (.failedDelivery k i .setUniverse) .setUniverse [x.a]) ∧
              (x.op = 0x201 ∨ x.op = 0x205 →
                ∀ c ∈ [Cause.uncorrectable, .setUniverse, .setStoreFull], exec (.failedDelivery k i c) s = .next (woke s))) ∧
            (x.own = false → (∃ h ∈ srcs, farSet s h = true) →
              fails (.fabricError k i) .fabricError (srcs.filter (farSet s))))))

/-- A wait ends as its rule says: MWAIT by its time-out with 1 or by a trigger without a write with 0, an admission wait by the grant of the queue's
head within the budget, which gives a restored gang's lanes the tokens they held, or by a trap in time, a replayable fault by its release, which lets
its lanes issue at the instruction again, a full command record by its command, and a group's watchdog delivers the first awaiting sub-warp with
WATCHDOG (spec/01 R28, R29; spec/03 R87; spec/13 R261; spec/16 R325, R326; spec/20 R377; spec/22 R415, R416).
It follows the model's readings of log entries 3, 33 and 35. -/
def Obligations.WaitsEnd : Prop :=
  (∀ (s : State) (k : LaneId) (l : Lane) (dst : Operand) (next : Addr) (left : Option Nat), s.lane? k = some l → l.st = .mwait dst left next →
    let rs := match dst with | .g n => [n] | _ => []
    let goes := fun (v : Word) (ev : Instr) => ∃ p : Pend, p.dst = rs ∧ p.vals = some (rs.map (fun _ => v)) ∧
      exec ev s = .next (woke (s.setLane k (({ l.emptyRegs rs with st := .run, mon := none, pend := l.pend ++ [p] } : Lane).goto next)))
    (left = some 0 → goes 1 (.mwaitTimeout k)) ∧
    (left ≠ some 0 → exec (.mwaitTimeout k) s = .next (woke s)) ∧
    ∀ m, l.mon = some m →
      (m.dormant = false → goes 0 (.spuriousWake k)) ∧
      (m.dormant = true → exec (.spuriousWake k) s = .next (woke (s.setLane k { l with mon := some { m with triggered := true } })))) ∧
  (∀ (s : State) (d : Nat) (r : AdmReq) (rest : List AdmReq) (l : Lane), (s.die d).admq = r :: rest → s.lane? r.lane = some l →
    let budget := (s.mreg ⟨.admbudget, d, 0⟩).toNat - (s.mreg ⟨.admres, d, 0⟩).toNat
    let limit := (s.mreg ⟨.admwd, laneCtx s r.lane, 0⟩).toNat
    let granted := s.setDie d { s.die d with admq := rest, held := (s.die d).held + r.units }
    ((s.die d).hot = false → ((s.die d).held + r.units ≤ budget ∨ (s.die d).held = 0) →
      (r.who = .lane → exec (.admissionGrant d) s = .next (woke (granted.setLane r.lane { l with st := .run, token := r.units }))) ∧
      (r.who = .gang → noneParked s r.lane.gang → (∀ p ∈ s.lanes, p.1.gang = r.lane.gang → p.2.trigDue = false) →
        ∀ x, s.gang? r.lane.gang = some x → (x.tokSaved.map Prod.fst).Nodup → (∀ p ∈ x.tokSaved, ∃ m, s.lane? p.1 = some m ∧ m.st = .run) →
          ∃ t, exec (.admissionGrant d) s = .next t ∧ t.gang? r.lane.gang = some { x with waitTok := false, tokSaved := [] } ∧
            t.dies = granted.dies ∧ (∀ p ∈ x.tokSaved, ∀ m, s.lane? p.1 = some m → t.lane? p.1 = some { m with token := p.2 }) ∧
            ∀ k, k ∉ x.tokSaved.map Prod.fst → t.lane? k = s.lane? k) ∧
      (r.who = .engine → ∃ t, exec (.admissionGrant d) s = .next t ∧ (t.core r.core).mx.token = true ∧ t.dies = granted.dies ∧
        ∀ i < 32, ∀ m next on, s.lane? { r.lane with lane := i } = some m → m.st = .macq next on →
          t.lane? { r.lane with lane := i } = some (({ m with st := .run } : Lane).goto next))) ∧
    ((s.die d).hot = true ∨ (budget < (s.die d).held + r.units ∧ (s.die d).held ≠ 0) → exec (.admissionGrant d) s = .next s) ∧
    (r.who = .lane → limit ≠ 0 → limit * 65536 ≤ r.waited → l.st = .adm → laneDie s r.lane = d →
      let left := leaveWait s r.lane
      (left.die d).admq = rest.filter (fun q => !(q.who == .lane && q.lane == r.lane)) ∧
      exec (.admissionTimeout d 0) s =
        .next (woke (parkSub left (LaneId.wid r.lane) l.pc (lenAt s (LaneId.wid r.lane) l.pc) [(r.lane.lane, TrapInfo.plain .admissionTimeout 0)])))) ∧
  (∀ (s : State) (w : WarpId), gangRuns s w.gang = true →
    ∃ t, exec (.replay w) s = .next t ∧ ∀ q ∈ replayLanes s w, ∃ m, t.lane? q.1 = some m ∧ m.st = .run ∧ m.pc = q.2.pc ∧
      ∀ rel dst n, q.2.st = .replay rel dst → n ∈ dst → n < q.2.regs.length → m.reg n = ⟨(q.2.reg n).val, true⟩) ∧
  (∀ (s u : State) (k : LaneId) (l m : Lane), s.lane? k = some l → l.cq.length = 12 → l.quiet = true →
    let s0 := s.setLane k { l with cq := [] }
    (cqParse l.cq = none → exec (.cqCommand k) s =
      .next (woke (parkSub s0 (LaneId.wid k) l.pc (lenAt s (LaneId.wid k) l.pc) [(k.lane, TrapInfo.plain .streamBadCmd 0)]))) ∧
    ∀ a v, cqParse l.cq = some a → cmdIssue s k a = .issued u v → u.lane? k = some m →
      exec (.cqCommand k) s = .next (woke (u.setLane k { m with cq := [] }))) ∧
  ∀ (s : State) (g : GroupId) (v : WarpId) (u : SubWarp) (x : Warp) (y : Group), gangRuns s g.gang = true → s.group? g = some y → s.warp? v = some x →
    let limit := (s.mreg ⟨.wdog, gangCtx s g.gang, 0⟩).toNat
    (limit = 0 ∨ y.wdog < limit * 65536 → exec (.watchdog g) s = .next s) ∧
    (limit ≠ 0 → limit * 65536 ≤ y.wdog → firstSub (groupSubs s g) = some (v, u) → (∀ p ∈ groupSubs s g, p.2.delivered = false) → u.cause ≠ .watchdog →
      ∃ t, exec (.watchdog g) s = .next t ∧ t.group? g = some { y with wdog := 0 } ∧
        ∀ i < 32, ∀ l, flg u.mask i = true → s.lane? ⟨v.gang, v.group, v.warp, i⟩ = some l → ∃ h,
          t.lane? ⟨v.gang, v.group, v.warp, i⟩ =
            some { l with st := .run, pc := s.mreg ⟨.vector, gangCtx s v.gang, 0⟩, hx := some h, cmpSkip := [] } ∧
          h.cause = 0x30 ∧ h.info = BitVec.ofNat 32 u.cause.code ∧ h.pc = l.pc ∧ h.orig = u.cause)

/-! ### Engines at work (spec/10 R226 to R236; spec/13 R257 to R276; spec/14 R287 to R304; spec/22 R411, R414) -/

/-- A stream engine works chunk by chunk and element by element: a chunk's bytes are read and written, a sweep retires one output, an indirect stream
pushes the element that its next index selects. A CPYW takes its chunks ascending, behind the earlier copies of its channel; each chunk advances the
channel's write pointer and shortens the destination's roadworks entry from below, and one that fails sets ERR and skips the channel's later copies; a
chunk of CPYT reads its source elements, then writes them. A chunk's fault ends the command, or parks it with an entry in the fault buffer where it is
replayable, once every lower chunk is written, and changes nothing of the command before. A storage read submits NVM commands; a completion by the
phase tag leaves a command's blocks to be moved chunk by chunk, or ends the read, as a time-out does, which leaves the staging space in use; after the
last chunk of the last command it is done. A command whose work has ended completes with its status (R257, R259, R260, R263 to R265, R268, R269, R273,
R274, R276; R414). The layout of the NVM queues is the model's (log 34).
It follows the model's readings of log entries 22 and 34. -/
def Obligations.StreamCommandsAdvance : Prop :=
  ∀ (s u v : State) (core : Nat) (ticket : BitVec 32) (c : Cmd), cmdsOf s core ticket = [c] →
    let put := fun (t : State) (c : Cmd) => woke (putCmd t core c)
    let live := cmdLive s c = true ∧ c.parked = false
    let parks := fun (t : State) (x : Cause) (level va access : Nat) =>
      put (postFault t (dieOf core) (.stream core) { va := va, cause := x, access := access, ctx := c.ctx, issuer := 1, lanes := 0
                                                     pc := c.ticket.toNat, level := level }) { c with parked := true }
    let g := LaneId.grp c.lane
    let ch := sN0 c.x
    (∀ x : Chan, x.count < 2 ^ 63 → x.wp = x.count + if x.err then 2 ^ 63 else 0) ∧
    (∀ i, c.op = 0x281 → chunkDue s core c i = true → i = c.done.length ∧
      ∀ pre post, (s.core core).cmds = pre ++ c :: post → ∀ k ∈ pre, k.op = 0x281 → sN0 k.x = ch → LaneId.grp k.lane ≠ g) ∧
    (∀ i bs, (c.op = 0x280 ∨ c.op = 0x281) → chunkDue s core c i = true →
      let first := 256 - c.av % 256
      let o := if i = 0 then 0 else first + 256 * (i - 1)
      let n := min (if i = 0 then first else 256) (c.cv - o)
      let done := c.done ++ [i]
      let c' : Cmd := { c with done := done, st := if done.length = ceilDiv (c.av % 256 + c.cv) 256 then some (0, .none) else none }
      (chunkRead s core c o n = (v, .inl bs) → chunkWrite v core c o bs = (u, none) →
        (c.op = 0x280 → exec (.copyChunk core ticket i) s = .next (put u c')) ∧
        ∀ lo pre post r y, c.op = 0x281 →
          ((flg c.x 13 = false ∧ lo = c.av) ∨ (flg c.x 13 = true ∧ ∃ h, spadResolve u g (c.av % 2 ^ 32) c.cv = some (h, lo))) →
          let mine := fun (e : Road) => e.core = core ∧ e.matrix = false ∧ e.owner = c.owner ∧ e.lo = lo + o
          (u.die (dieOf core)).road = pre ++ r :: post → mine r → (∀ e ∈ pre, ¬ mine e) → u.group? g = some y →
          let x := y.chans.getD ch ⟨0, false, 0⟩
          let moved := (putCmd u core c').setGroup g { y with chans := y.chans.set ch { x with count := (x.count + n) % 2 ^ 63 } }
          exec (.copyChunk core ticket i) s = .next (woke (moved.setDie (dieOf core)
            { u.die (dieOf core) with road := pre ++ { r with lo := lo + o + n } :: post }))) ∧
      (∀ x level mal att va, (∀ j < i, j ∈ c.done) →
        chunkRead s core c o n = (v, .inr (.fail x level mal att va)) ∨
          (chunkRead s core c o n = (v, .inl bs) ∧ chunkWrite v core c o bs = (u, some (.fail x level mal att va))) →
        ∃ t d, exec (.copyChunk core ticket i) s = .next t ∧ d ∈ (t.core core).cmds ∧ d.same c = true ∧ d.st = some (1, x) ∧
          (c.op = 0x281 → ch < 16 → ∀ y, s.group? g = some y → y.chans.length = 16 →
            chanOf t g ch = { chanOf s g ch with err := true } ∧
            ∀ k ∈ (s.core core).cmds, k.op = 0x281 → sN0 k.x = ch → LaneId.grp k.lane = g → k.same c = false → k.st = none →
              { k with st := some (3, .none), parked := false } ∈ (t.core core).cmds)) ∧
      (∀ x level va, (∀ j < i, j ∈ c.done) →
        (chunkRead s core c o n = (v, .inr (.park x level va)) → exec (.copyChunk core ticket i) s = .next (parks v x level va 0)) ∧
        (chunkRead s core c o n = (v, .inl bs) → chunkWrite v core c o bs = (u, some (.park x level va)) →
          exec (.copyChunk core ticket i) s = .next (parks u x level va 1))) ∧
      ((∃ j < i, j ∉ c.done) → ∀ m,
        (chunkRead s core c o n = (v, .inr m) → exec (.copyChunk core ticket i) s = .next (woke v)) ∧
        (chunkRead s core c o n = (v, .inl bs) → chunkWrite v core c o bs = (u, some m) → exec (.copyChunk core ticket i) s = .next (woke u)))) ∧
    (∀ i r q, c.op = 0x282 → c.recs = [r, q] → chunkDue s core c i = true →
      let whole := 256 / 2 ^ r.esz
      let is := (List.range (min whole (r.count - whole * i))).map (whole * i + ·)
      let done := c.done ++ [i]
      let c' : Cmd := { c with done := done, st := if done.length = ceilDiv r.count whole then some (0, .none) else none }
      (q.spad = true → elemsRead core c q is s = (s, .inl (is.map (fun j => ofBytesLE (spadRead s g (q.addrOf j) (2 ^ q.esz)))))) ∧
      (∀ vs, elemsRead core c q is s = (v, .inl vs) →
        (elemsPlace core c r is v = (u, none) → exec (.copyChunk core ticket i) s =
          .next (put ((is.zip vs).foldl (fun t p => (elemWrite t core c r p.1 p.2).1) u) c')) ∧
        ((∀ j < i, j ∈ c.done) →
          (∀ x level va, elemsPlace core c r is v = (u, some (.park x level va)) → exec (.copyChunk core ticket i) s = .next (parks u x level va 1)) ∧
          ∀ x level mal att va, elemsPlace core c r is v = (u, some (.fail x level mal att va)) →
            ∃ t d, exec (.copyChunk core ticket i) s = .next t ∧ d ∈ (t.core core).cmds ∧ d.same c = true ∧ d.st = some (1, x)) ∧
        ((∃ j < i, j ∉ c.done) → ∀ m, elemsPlace core c r is v = (u, some m) → exec (.copyChunk core ticket i) s = .next (woke u))) ∧
      ((∀ j < i, j ∈ c.done) →
        (∀ x level va, elemsRead core c q is s = (v, .inr (.park x level va)) → exec (.copyChunk core ticket i) s = .next (parks v x level va 0)) ∧
        ∀ x level mal att va, elemsRead core c q is s = (v, .inr (.fail x level mal att va)) →
          ∃ t d, exec (.copyChunk core ticket i) s = .next t ∧ d ∈ (t.core core).cmds ∧ d.same c = true ∧ d.st = some (1, x)) ∧
      ((∃ j < i, j ∉ c.done) → ∀ m, elemsRead core c q is s = (v, .inr m) → exec (.copyChunk core ticket i) s = .next (woke v))) ∧
    (∀ o r vs, live → c.op = 0x289 → c.st = none → c.recs = o :: r → sweepRead core c (sweepIns c c.next) s = (v, .inl vs) →
      let out := if 16 ≤ sSop c.x then sweepRed c vs else sweepElem c (vs.getD 0 0) (vs.getD 1 0)
      elemWrite v core c o c.next out.1 = (u, none) → exec (.sweepRetire core ticket) s =
        .next (put u { c with next := c.next + 1, fl := c.fl ||| out.2, st := if c.next + 1 = o.count then some (0, .none) else none })) ∧
    (∀ x idx, live → c.is = some x → c.st = none → isRoom s c x = true → c.next < x.count → isIndex s core c x c.next = (v, .inl idx) →
      let n := 2 ^ x.esz
      let gone := isAbsent (if x.i64 then .n64 else .n32) idx
      let pushed := fun (t : State) (e : Nat) (out : Bool) => put
        (queuePush t (LaneId.grp c.lane) x.qn (if x.esz = 3 then [e % 2 ^ 32, e / 2 ^ 32] else [e]) (cmdTag c))
        { c with next := c.next + 1, out := c.out || out
                 st := if c.next + 1 = x.count then some (if c.out || out then 5 else 0, .none) else none }
      (gone = true → exec (.indirectStreamPush core ticket) s = .next (pushed v (2 ^ (8 * n) - 1) false)) ∧
      (gone = false → x.limit ≤ idx → exec (.indirectStreamPush core ticket) s = .next (pushed v (2 ^ (8 * n) - 1) true)) ∧
      ∀ bs, gone = false → idx < x.limit → engRead v core c ((x.abase + idx * n) % 2 ^ 64) n = (u, .inl bs) →
        exec (.indirectStreamPush core ticket) s = .next (pushed u (ofBytesLE bs) false)) ∧
    (c.op = 0x28A → c.st = none →
      let b := c.binding
      let q := nvmeOf s b
      let bs := srdBlock s c
      let ends := fun (t : State) (st : Nat) (x : Cause) => ∃ d ∈ (t.core core).cmds, d.same c = true ∧ d.st = some (st, x)
      (∀ page, srdRuns s c = true → c.next < c.cv → (q.cmds.filter (fun k => !k.ready)).length + 1 < nsEntries s b .nsbsq →
        let n := srdNext s c
        stagePlace s b (srdPages s c n + prpPages (srdPages s c n)) = some page →
        ∃ k, (nvmeOf (nvmeSubmit s core c) b).cmds = q.cmds ++ [k] ∧ (∀ j ∈ q.cmds, j.cid ≠ k.cid) ∧ k.isOf core c = true ∧ k.first = c.next ∧
          k.blocks = n ∧ k.page = page ∧ k.ready = false ∧ (nvmeOf (nvmeSubmit s core c) b).tail = (q.tail + 1) % nsEntries s b .nsbsq ∧
          cmdOf (nvmeSubmit s core c) core ticket c.id = some { c with next := c.next + n, waited := 0 }) ∧
      (∀ e, flg (nsReg s b .nsbctl) 63 = true → ioRead s (fld (nsReg s b .nsbcq) 47 12 * 4096 + 16 * q.head) 16 = (.ready, e) →
        let w := ofBytesLE (e.drop 12)
        (∀ cid : BitVec 16, natBit w 16 ≠ q.phase ∨ w % 65536 ≠ cid.toNat → exec (.nvmeCompletion b.1 b.2 cid) s = .next (woke s)) ∧
        (natBit w 16 = q.phase → ∀ k ∈ q.cmds, k.isOf core c = true → k.ready = false → k.cid = w % 65536 → (∀ j ∈ q.cmds, j.cid = k.cid → j = k) →
          ∃ t, exec (.nvmeCompletion b.1 b.2 (BitVec.ofNat 16 w)) s = .next t ∧ (nvmeOf t b).head = (q.head + 1) % nsEntries s b .nsbcq ∧
            (w / 2 ^ 17 % 2 ^ 11 = 0 → t.cores = s.cores ∧
              (nvmeOf t b).cmds = q.cmds.map (fun (j : NvmeCmd) => if j.cid = k.cid then { j with ready := true } else j)) ∧
            (w / 2 ^ 17 % 2 ^ 11 ≠ 0 → ends t 1 .storageError ∧ (nvmeOf t b).cmds = q.cmds.filter (fun j => j.cid != k.cid)))) ∧
      (∀ k ∈ q.cmds, k.isOf core c = true → k.ready = false → fld (nsReg s b .nsbds) 63 32 * 65536 ≤ k.waited → cmdLive s c = true →
        ∃ t, exec (.nvmeTimeout core ticket) s = .next t ∧ ends t 1 .storageError ∧ t.nvme = s.nvme) ∧
      ∀ i k j data, srdRuns s c = true → (srdOpen s core c)[i]? = some (k, j) →
        let part := { c with av := c.av + k.first * bs, cv := k.blocks * bs }
        let first := 256 - part.av % 256
        let o := if j = 0 then 0 else first + 256 * (j - 1)
        let n := min (if j = 0 then first else 256) (part.cv - o)
        ioRead s (stageAddr s b k.page + o) n = (.ready, data) →
          (∀ x level va, chunkWrite s core part o data = (u, some (.park x level va)) →
            exec (.copyChunk core ticket i) s = .next (parks u x level va 1)) ∧
          (chunkWrite s core part o data = (u, none) → ∃ t, exec (.copyChunk core ticket i) s = .next t ∧
            let last := k.done.length + 1 = ceilDiv (part.av % 256 + part.cv) 256
            (¬ last → (nvmeOf t b).cmds = q.cmds.map (fun (m : NvmeCmd) => if m.cid = k.cid then { k with done := k.done ++ [j] } else m)) ∧
            (last → (nvmeOf t b).cmds = q.cmds.filter (fun m => m.cid != k.cid)) ∧
            (last → c.next = c.cv → (∀ m ∈ q.cmds, m.isOf core c = true → m.cid = k.cid) → ends t 0 .none))) ∧
    (∀ st x l g, live → c.st = some (st, x) → c.cpl = 0 → c.note = false → s.lane? c.lane = some l → s.group? (LaneId.grp c.lane) = some g →
      let status := statusWord c.op st x.code c.fl.toNat
      ∃ t r h, exec (.streamCompletion core ticket) s = .next t ∧ (t.core core).cmds = (s.core core).cmds.filter (fun k => !k.same c) ∧
        r ∈ t.recs ∧ r.kind = 0x20 ∧ r.body = [(0x90, 4, ticket.toNat), (0x94, 4, status)] ∧
        t.group? (LaneId.grp c.lane) = some h ∧ h.hist.getLast? = some (ticket, BitVec.ofNat 32 status) ∧
        t.lane? c.lane = some { l with owed := l.owed.erase ticket, owedBad := l.owedBad || (st != 0 && l.owed.contains ticket) }) ∧
    ∀ p r x, (s.core core).cdHeld = p :: r → s.warp? p.1 = some x → x.cd.length + 2 ≤ 64 →
      ∃ t, exec (.cdEntryDelivery core) s = .next t ∧ (t.core core).cdHeld = r ∧ t.warp? p.1 = some { x with cd := x.cd ++ [p.2.1, p.2.2] }

/-- The matrix engine performs the command at its head: weights are latched, a row is accumulated, drained, stored or loaded, a tile is zeroed, counts
and the status are delivered. With ERR set a command completes without effect: MDRN to registers then writes the f32 absent code, MCNT writes 0 and
MSYNC the status word (R287, R298 to R302, R304). What is latched, accumulated and drained is what R291, R113, R114, R294 to R296 and R298 give for
the bytes and entries: each weight with its scale and zero point; each chunk of 32 products summed exactly, scaled and rounded once, and added with
one rounding, the count going up where a product is present; each entry, or its mean, rounded once to the drain's type.
It follows the model's readings of log entries 23, 39 and 43. -/
def Obligations.MatrixCommandsComplete : Prop :=
  latchedValues ∧ streamedValues ∧ drainedValues ∧ ∀ (s : State) (core : Nat) (c : MCmd) (rest : List MCmd) (x : Warp),
    let m := (s.core core).mx
    m.q = c :: rest → c.parked = false → (∀ w, m.owner = some w → gangWorks s w.gang = true) → s.warp? c.warp = some x → x.masks.headD 0#32 ≠ 0#32 →
    let row := (m.tile (fld c.x 2 0)).1 + fld c.x 31 16 + c.row
    let left := fun (c' : MCmd) => if c.b ≤ c.row + 1 then rest else c' :: rest
    let next := { c with row := c.row + 1, part := [] }
    let runs := fun (y : Matrix) => ∃ t, exec (.matrixCommand core) s = .next t ∧ (t.core core).mx = y
    let gives := fun (y : Matrix) (v : LaneId → List Word) => ∃ t, exec (.matrixCommand core) s = .next t ∧ (t.core core).mx = y ∧
      ∀ (n : Nat) (k : LaneId) (pid : Nat) (l : Lane), c.lanes[n]? = some k → c.pids[n]? = some pid → c.lanes.Nodup → s.lane? k = some l →
        t.lane? k = some { l with pend := l.pend.map (fun q => if q.id = pid then { q with vals := some (v k), needs := (s.die (dieOf core)).vec } else q) }
    (m.err = true →
      (∀ r, c.op = 0x246 → c.dq = .g r → gives { m with q := rest } (fun _ => [0xFFFFFFFF#32, 0xFFFFFFFF#32])) ∧
      (c.op = 0x24A → gives { m with q := rest } (fun _ => [0#32])) ∧
      (c.op = 0x243 ∨ c.op = 0x244 ∨ c.op = 0x245 ∨ c.op = 0x246 ∨ c.op = 0x247 ∨ c.op = 0x248 ∨ c.op = 0x249 → runs { m with q := rest })) ∧
    (c.op = 0x24B → gives { m with q := rest } (fun _ => [m.status 0])) ∧
    (m.err = false →
      (c.op = 0x247 → runs { m with
        acc := m.acc.filter (fun p => decide (p.1.1 < (m.tile (fld c.x 2 0)).1 ∨ (m.tile (fld c.x 2 0)).1 + (m.tile (fld c.x 2 0)).2 ≤ p.1.1))
        q := rest }) ∧
      (c.op = 0x24A → gives { m with q := rest }
        (fun k => [BitVec.ofNat 32 ((m.entry row k.lane).2 + 2 ^ 16 * (m.entry row (k.lane + 32)).2)])) ∧
      (∀ r, c.op = 0x246 → c.dq = .g r →
        let out := m.drainRow c.ty (flg c.x 9) (fld c.x 11 10) 64 row
        gives { m with fl := m.fl ||| out.2, q := rest }
          (fun k => [BitVec.ofNat 32 (out.1.getD k.lane 0), BitVec.ofNat 32 (out.1.getD (k.lane + 32) 0)])) ∧
      (∀ cfg, m.cfg = some cfg → c.op = 0x246 → c.row < c.b →
        let out := m.drainRow c.ty (flg c.x 9) (fld c.x 11 10) cfg.n row
        let bs := out.1.flatMap (bytesLE (tyBytes c.ty))
        let n := ceilDiv bs.length 4
        (c.dq = .q 13 → m.mr.length + ceilDiv (cfg.n * tyBytes c.ty) 4 ≤ 256 → runs { m with
          fl := m.fl ||| out.2, q := left next
          mr := m.mr ++ (List.range n).map (fun i => BitVec.ofNat 32 (ofBytesLE ((bs.drop (4 * i)).take 4))) }) ∧
        (∀ g o y, c.dq = .none → spadResolve s (WarpId.grp c.warp) ((c.a + c.row * c.c) % 2 ^ 32) bs.length = some (g, o) → s.group? g = some y →
          ∃ t, exec (.matrixCommand core) s = .next t ∧ (t.core core).mx = { m with fl := m.fl ||| out.2, q := left next } ∧
            ∀ i < bs.length, byteAtGroup t g (o + i) = bs.getD i 0#8)) ∧
      (∀ g o, c.row < c.b → spadResolve s (WarpId.grp c.warp) ((c.a + 384 * c.row) % 2 ^ 32) 384 = some (g, o) →
        (c.op = 0x248 → runs { m.loadRow row (spadRead s g o 384) with q := left next }) ∧
        (c.op = 0x249 → ∀ y, s.group? g = some y → ∃ t, exec (.matrixCommand core) s = .next t ∧ (t.core core).mx = { m with q := left next } ∧
          ∀ i < 384, byteAtGroup t g (o + i) = (m.rowBytes row).getD i 0#8)) ∧
      (∀ cfg wt g o, m.cfg = some cfg → m.wts = some wt → (c.op = 0x244 ∨ c.op = 0x245) → c.aq ≠ .q 12 → c.row < c.b →
        spadResolve s (WarpId.grp c.warp) ((c.a + c.row * c.c) % 2 ^ 32) (cfg.k * tyBytes c.ty) = some (g, o) →
        let gact := match c.scale with
          | some e => e
          | none => if cfg.smode = 1 then cfg.sexp else if cfg.smode = 2 then -(amxScale (m.recs.getD cfg.srec .clear) c.ty) else 0
        let values := (codesOf c.ty cfg.k (spadRead s g o (cfg.k * tyBytes c.ty))).map (elemVal c.ty)
        runs { m.streamRow (c.op == 0x245) gact cfg wt values row with q := left { next with scale := some gact } }) ∧
      (∀ cfg g o h p, m.cfg = some cfg → c.op = 0x243 → flg c.x 12 = true →
        let gs := gsOf (fld c.x 17 16)
        let n := codesLen c.ty (cfg.k * cfg.n)
        let sn := scalesLen cfg.k cfg.n gs
        spadResolve s (WarpId.grp c.warp) (c.a % 2 ^ 32) n = some (g, o) → spadResolve s (WarpId.grp c.warp) (c.b % 2 ^ 32) sn = some (h, p) →
        runs { m with wts := some (latch c.ty cfg.k cfg.n gs (spadRead s g o n) (if isQuant c.ty then spadRead s h p sn else [])), q := rest }))

/-- A reset of an engine ends its work: a stream engine's commands and a Square's requests fail with ENGINE_RESET, a set operation with the handle of
its set A in xaddr, and so does that of another module's Square, which shows nothing in this one's registers and records (log 11); a matrix engine
holds no accumulators and configuration and stands in error, a Skim engine's command ends with status 6; ENGRST shows ST 0 and the management
controller reports the unit (spec/10 R236; spec/13 R278; spec/14 R304; spec/16 R329; R411). A Skim command ends once: SKHEAD counts it and its record
gives its status, which is 1 for a bad command, 5 where the entry is not of the kind it asks for or what it would write cannot be written, 3 where a
chunk does not expand, 2 where the chunks pass the limit. Else the page's bytes, or its chunks and descriptors, are written, and in an event of its
own the entry is swapped for one that maps the frame at DST untransformed, or the descriptors at DESC by XF 1 or 2, where it still is the one that was
read and can be written (else the status is 4); every die's translations of the page are dropped, the replay that the command asks for is made, and
the status is 0 (R234, R235).
It follows the model's readings of log entries 11, 24 and 32. -/
def Obligations.EnginesResetAndSkimCommandsEnd : Prop :=
  (∀ (s : State) (n : Nat),
     let reported := fun (t : State) (die unit : Nat) => t.mreg ⟨.engrst, 0, 0⟩ = BitVec.ofNat 64 (die * 1024 + unit) ∧
       ∃ r ∈ t.recs, r.kind = 0x60 ∧ r.body = [(0x90, 1, die), (0x92, 2, unit)]
     (n < 192 → ∃ t, exec (.engineResetStream n) s = .next t ∧ reported t (dieOf n) (0x40 + physCore s n) ∧
       ∀ c ∈ (s.core n).cmds, cmdLive s c = true → c.st = none → ∃ d ∈ (t.core n).cmds, d.same c = true ∧ d.st = some (1, .engineReset)) ∧
     (n < 192 → ∃ t, exec (.engineResetMatrix n) s = .next t ∧ reported t (dieOf n) (0x80 + physCore s n) ∧
       (t.core n).mx = { (s.core n).mx with acc := [], cfg := none, err := true, cause := .engineReset
                                            q := (s.core n).mx.q.map (fun c => { c with parked := false }) }) ∧
     ((∀ p ∈ s.lanes, p.2.st.parked = false ∧ p.2.trigDue = false) → ∃ t, exec (.engineResetSquare n) s = .next t ∧
       (n < 4 → reported t n 0xC0) ∧ (4 ≤ n → t.mregs = s.mregs ∧ t.recs = s.recs) ∧
       (t.die n).sqq = [] ∧ (t.die n).setq = [] ∧ (∀ p ∈ t.lanes, ∀ m, p.2.mon = some m → m.die ≠ n) ∧
       (∀ q ∈ (s.die n).sqq, q.pid ≠ 0 → (s.lane? q.lane).isSome = true → ∃ l, t.lane? q.lane = some l ∧
         ∀ p ∈ l.pend, p.id = q.pid → p.fail = some (.plain .engineReset)) ∧
       ∀ q ∈ (s.die n).setq, q.pid ≠ 0 → ((s.die n).setq.map (·.pid)).Nodup → (s.lane? q.lane).isSome = true → ∃ l, t.lane? q.lane = some l ∧
         ∀ p ∈ l.pend, p.id = q.pid → p.fail = some (.plain .engineReset) ∧
           p.addr = BitVec.ofNat 64 (setElem q.op q.b * 2 ^ 32 + if q.op = 0x200 then 0 else q.a)) ∧
     (n < 2 → ∃ t, exec (.engineResetSkim n) s = .next t ∧ reported t 4 (0x100 + n) ∧
       (∀ c, skHead s n = some c → c.bad = false → t.mreg ⟨.skhead, n, 0⟩ = s.mreg ⟨.skhead, n, 0⟩ + 1 ∧
         ∃ r ∈ t.recs, r.kind = 0x11 ∧ (0x94, 1, 6) ∈ r.body) ∧
       (skHead s n = none → t.mreg ⟨.skhead, n, 0⟩ = s.mreg ⟨.skhead, n, 0⟩))) ∧
  (∀ (s : State) (e : Nat) (c : SkCmd), skHead s e = some c →
     let ends := fun (i : Instr) (t : State) (status entry : Nat) => exec i s = .next (woke (skDone t e c status entry))
     let written := fun (i : Instr) (t : State) (old new : Addr) => exec i s = .next (woke (skReady t e old new))
     (∀ (t : State) (status entry : Nat), t.mreg ⟨.skhead, e, 0⟩ = s.mreg ⟨.skhead, e, 0⟩ →
       (skDone t e c status entry).mreg ⟨.skhead, e, 0⟩ = s.mreg ⟨.skhead, e, 0⟩ + 1 ∧ mfind (skDone t e c status entry).skims e = none ∧
       ∃ r ∈ (skDone t e c status entry).recs, r.kind = 0x11 ∧ (0x94, 1, status) ∈ r.body ∧ (0x98, 8, entry) ∈ r.body) ∧
     (cplAvail s c = .waits → ∀ ev ∈ [Instr.promote e, .demote e, .badcmd e], ∃ t, exec ev s = .next t ∧ woke t = woke s) ∧
     (c.bad = true → cplAvail s c ≠ .waits → ends (.badcmd e) s 1 0) ∧
     ∀ v, c.bad = false → cplAvail s c ≠ .waits → physRead s none c.ptepa 8 = .ok v →
       let old : Addr := BitVec.ofNat 64 v
       let valid := flg old 0 = true ∧ flg old 1 = true
       (mfind s.skims e = none → c.opc = 1 →
         (¬ (valid ∧ (xfOf old = 1 ∨ xfOf old = 2)) → ends (.promote e) s 5 v) ∧
         (valid ∧ (xfOf old = 1 ∨ xfOf old = 2) →
           let read := joinChunks (readChunk s none old) (List.range c.chunks)
           ((∃ n, read = .failed n) ∨ (∃ x, read = .bad x) → ends (.promote e) s 3 v) ∧
           (read = .waits → exec (.promote e) s = .next (woke s)) ∧
           ∀ bs, read = .ok bs →
             (ioAvail s c.dst bs.length = .waits → exec (.promote e) s = .next (woke s)) ∧
             (ioAvail s c.dst bs.length = .bad → ends (.promote e) s 5 v) ∧
             (ioAvail s c.dst bs.length = .ready → ∃ new : Addr, written (.promote e) (ioWriteAs s c.dst bs c.va (skTag s e c)) old new ∧
               fld new 9 8 = 0 ∧ fld new 47 12 = c.dst / 4096 % 2 ^ 36 ∧ fld new 55 48 = 0 ∧ fld new 7 0 = fld old 7 0 ∧ fld new 63 56 = fld old 63 56))) ∧
       (mfind s.skims e = none → c.opc = 2 →
         (¬ (valid ∧ xfOf old = 0) → ends (.demote e) s 5 v) ∧
         (valid ∧ xfOf old = 0 →
           let page := 2 ^ rangeBits c.pgsz
           let read := joinChunks (fun i => frameChunk s (pfnOf old / page * page + 4096 * i)) (List.range c.chunks)
           ((∃ x, read = .bad x) → ends (.demote e) s 5 v) ∧
           (read = .waits → exec (.demote e) s = .next (woke s)) ∧
           ∀ bs, read = .ok bs →
             let images := placeChunks 0 ((List.range c.chunks).map (fun i => makeChunk ((bs.drop (4096 * i)).take 4096)))
             ((∃ p ∈ images, c.limit < p.1 + p.2.length) → ends (.demote e) s 2 v) ∧
             let some_ := fun (v : Avail) => (∃ p ∈ images, ioAvail s (c.dst + p.1) p.2.length = v ∨
               (natBit c.flags 0 = true ∧ ioAvail s (c.rdst + p.1) p.2.length = v)) ∨ ioAvail s c.desc (16 * c.chunks) = v
             ((∀ p ∈ images, p.1 + p.2.length ≤ c.limit) → some_ .waits → exec (.demote e) s = .next (woke s)) ∧
             ((∀ p ∈ images, p.1 + p.2.length ≤ c.limit) → ¬ some_ .waits → some_ .bad → ends (.demote e) s 5 v) ∧
             ((∀ p ∈ images, p.1 + p.2.length ≤ c.limit) → ¬ some_ .waits → ¬ some_ .bad → ∃ new : Addr, written (.demote e) (writeChunks s c images) old new ∧
               fld new 9 8 = (if natBit c.flags 2 then 2 else 1) ∧ fld new 47 12 = c.desc / 4096 % 2 ^ 36 ∧ fld new 55 48 = c.desc / 16 % 256 ∧
               fld new 7 0 = fld old 7 0 ∧ fld new 63 56 = fld old 63 56))) ∧
       ∀ (was new : Addr) (ev : Instr), mfind s.skims e = some (was, new) → (c.opc = 1 ∧ ev = .promote e) ∨ (c.opc = 2 ∧ ev = .demote e) →
         (entryUp s c.ptepa = false → exec ev s = .next (woke s)) ∧
         (entryUp s c.ptepa = true →
           (old ≠ was ∨ ioAvail s c.ptepa 8 = .bad → ends ev s 4 v) ∧
           (old = was → ioAvail s c.ptepa 8 ≠ .bad →
             let dies := List.range 4
             let swapped := dies.foldl (fun t d => invalidate t d c.ctx c.pgsz c.va) (ioWrite (drainAll s) c.ptepa (bytesLE 8 new.toNat))
             ends ev (if natBit c.flags 1 then dies.foldl (fun t d => replayCtx t d c.ctx) swapped else swapped) 0 new.toNat)))

/-- The chunk that a Skim engine makes of 4,096 bytes expands to them again (R226, R228 to R231). -/
def Obligations.ChunksExpandToTheirPage : Prop :=
  ∀ bs : List Byte, bs.length = 4096 → expandChunk (makeChunk bs) = some bs

/-! ### Grids, gangs and contexts (spec/20 R357 to R373) -/

/-- A launch unit takes the record at HEAD where TAIL differs, finishes a malformed one with LAUNCH_FAULT, and stops serving a queue whose ring it
cannot read; the dependences of a record are waited for each once and in order: where all are behind it becomes a grid as R361 lays it out, and one
that depends on a failed producer ends with ST 4; the record at HEAD of a queue that is served, or that a fault has disabled, and a grid age by the
unit's timer, in microseconds, each 4 ms raising the grid by one level; a waiting gang is placed with its lanes at ENTRY, its registers full and 0; a
gang that is done retires, and the last one writes DONE (R361 to R365; spec/01 R16, R31; spec/03 R59, R60).
It follows the model's readings of log entries 3, 18 and 36. -/
def Obligations.GridsStartAndEnd : Prop :=
  (∀ (s u v t : State) (q : Nat) (tb hb bs : List Byte),
    let base := (s.mreg ⟨.lqbase, q, 0⟩).toNat
    let head := ofBytesLE hb
    flg (s.mreg ⟨.lqctl, q, 0⟩) 15 = true → (lqOf s q).parked = false → (lqOf s q).taken = none →
    (launchRead s q base 8 = (u, .inl tb) → launchRead u q (base + 8) 8 = (v, .inl hb) →
      (ofBytesLE tb = head → exec (.launchRecord q) s = .next (woke (setLq v q { lqOf v q with age := 0 }))) ∧
      (ofBytesLE tb ≠ head → launchRead v q (base + 0x80 + 128 * (head % lqSize v q)) 128 = (t, .inl bs) →
        let taken := setLq t q { lqOf t q with taken := some bs, head := head, deps := 0, ended := false, parked := false }
        (malformedAt bs = none → exec (.launchRecord q) s = .next (woke taken)) ∧
        ∀ o, malformedAt bs = some o → exec (.launchRecord q) s = .next (woke (endRecord taken q bs 3 .launchFault o)))) ∧
    ∀ c, launchRead s q base 8 = (u, .inr (.bad c)) → ∃ t r, exec (.launchRecord q) s = .next t ∧ flg (t.mreg ⟨.lqctl, q, 0⟩) 15 = false ∧
      (lqOf t q).faulted = true ∧ (lqOf t q).head = (lqOf u q).head ∧ r ∈ t.recs ∧ r.kind = 0x43 ∧ r.body = [(0x90, 4, q), (0x98, 1, c.code)]) ∧
  (∀ (s u w : State) (q loc home n : Nat) (bs : List Byte) (x : Deps), flg (s.mreg ⟨.lqctl, q, 0⟩) 15 = true → (lqOf s q).parked = false →
    (lqOf s q).taken = some bs → (lqOf s q).ended = false → depsOf q bs ((List.range 4).drop (lqOf s q).deps) s = (u, x, n) →
    let v := setLq u q { lqOf u q with deps := (lqOf s q).deps + n }
    (x = .waits → exec (.gridReady q) s = .next (woke v)) ∧
    (x = .failed → exec (.gridReady q) s = .next (woke (endRecord v q bs 4 .dependenceFailed 0))) ∧
    (x = .passed → recN bs 8 4 ≠ 0 → vplace v (q / 16) (lqCtx v q) (BitVec.ofNat 64 (lqBase v q + 8)) .store = (w, .place loc home) →
      ∃ t k g, exec (.gridReady q) s = .next t ∧ t.grid? k = some g ∧ g.entry = BitVec.ofNat 64 (recN bs 0 8) ∧ g.ngang = recN bs 8 4 ∧
        g.grps = recN bs 0x0C 1 ∧ g.warps = recN bs 0x0D 1 ∧ g.regs = 8 * (recN bs 0x0E 1 % 16 + 1) ∧ g.scratch = recN bs 0x10 4 ∧
        g.seq = (w.die (q / 16)).seqLaunch ∧ g.done = false ∧ (lqOf t q).taken = none ∧ (lqOf t q).head = ((lqOf v q).head + 1) % 2 ^ 64)) ∧
  (∀ (s : State) (q : Nat), ∃ t, exec (.priorityAging q) s = .next t ∧
    (∀ k g, s.grid? k = some g → g.eff = min 7 (g.prio + g.age / 4000) ∧
      t.grid? k = some (if g.q / 16 = q / 16 ∧ g.done = false then { g with age := g.age + 1 } else g)) ∧
    (∀ n, lqOf t n = if n / 16 = q / 16 ∧ (flg (s.mreg ⟨.lqctl, n, 0⟩) 15 = true ∨ (lqOf s n).faulted = true) then
        { lqOf s n with age := if headEmpty s n then 0 else (lqOf s n).age + 1 } else lqOf s n) ∧
    ∀ n, (lqOf s n).taken.isSome = true → headEmpty s n = false) ∧
  (∀ (s : State) (gk close : Nat) (g : Grid) (plan : List (Nat × Nat)), waitingOf s gk = some (gk, g) → s.gang? gk = none →
    s.grid? gk = some g → fitOn s g gk close none = some plan → firstFor s (gk, g) close = true → plan ≠ [] → (∀ p ∈ s.lanes, p.1.gang ≠ s.uid) →
    ∃ t x y, exec (.gangPlacement gk close) s = .next t ∧ t.grid? gk = some { g with next := g.next + 1 } ∧ t.gang? s.uid = some x ∧
      x.grid = gk ∧ x.index = g.next ∧ x.close = close ∧ x.st = .placed ∧ t.group? ⟨s.uid, 0⟩ = some y ∧
      y = Group.placed (plan.getD 0 (0, 0)).1 y.gslot g.warps g.regs g.scratch g.idem g.expect ∧
      ∀ i < plan.length, ∀ w < g.warps, ∀ n < 32, ∃ l, t.lane? ⟨s.uid, i, w, n⟩ = some l ∧ l.pc = g.entry ∧ l.st = .run ∧ l.hx = none ∧
        l.regs = List.replicate g.regs ⟨0, true⟩ ∧ l.pend = []) ∧
  ∀ (s : State) (gang : Nat) (x : Gang) (g : Grid), s.gang? gang = some x → s.grid? x.grid = some g →
    (retireDue s gang x = false → exec (.gangRetire gang) s = .next s) ∧
    (retireDue s gang x = true → (∀ p ∈ s.gangs, p.2.byCtxop = false) → ∃ t h, exec (.gangRetire gang) s = .next t ∧ t.gang? gang = none ∧
      (∀ p ∈ t.lanes, p.1.gang ≠ gang) ∧ t.grid? x.grid = some h ∧ h.retired = g.retired + 1 ∧
      (g.retired + 1 = g.ngang → (∀ p ∈ s.gangs, p.1 ≠ gang → p.2.grid ≠ x.grid) → g.done = false → g.cplWait = [] → g.cplPark = false → g.cpl = 0 →
        let end_ := match g.ended, g.cause with
          | some p, _ => p
          | none, some c => (1, c)
          | none, none => (0, .none)
        let status := 2 ^ 31 + b2n g.trigDone * 2 ^ 30 + end_.1 * 2 ^ 16 + end_.2.code * 2 ^ 8 + g.ofs
        end_.1 < 16 → g.ofs < 256 → h.done = true ∧ t.msix = s.msix ++ [g.q] ∧ ∃ r ∈ t.recs, r.kind = 0x40 ∧ (0x90, 4, g.q) ∈ r.body ∧ (0x94, 4, status) ∈ r.body))

/-- A pre-empted gang is flushed, drains within twice DRAINB or is saved, as its groups' choice says; a drain at its deadline is saved; a save writes
the image and leaves the close, or is abandoned where there is no room; CTXOP pre-empts a context or lets it go on, KILL ends its grids with ST 2 and
the records that wait at HEAD, and DESTROY disables its queues too and, once the kill has finished, frees its sets and keys and returns its registers
to reset (R357, R362, R366, R368 to R373).
It follows the model's readings of log entries 3, 14, 19, 28 and 36. -/
def Obligations.GangsArePreempted : Prop :=
  (∀ (s : State) (gang : Nat) (x : Gang), s.gang? gang = some x → noneParked s gang →
    let untried := fun (t : State) => ∀ k l, k.gang = gang → t.lane? k = some l → l.spec = none
    let saving := fun (i : Instr) => ∃ t y, exec i s = .next t ∧ t.gang? gang = some y ∧ y.st = .saving ∧ untried t
    (x.st = .draining (some 0) → saving (.drainDeadline gang)) ∧
    (x.st ≠ .draining (some 0) → exec (.drainDeadline gang) s = .next s) ∧
    ∀ waiting, (victimDue s waiting gang = false → exec (.launchPreempt waiting gang) s = .next s) ∧
      (victimDue s waiting gang = true →
        let u := endTries (s.setGang gang { x with byCtxop := false, forGang := some waiting }) gang
        (gangChoice u gang = 0 → ∃ t n y, exec (.launchPreempt waiting gang) s = .next t ∧ t.gang? n = some y ∧ y.st = .waiting ∧
          y.grid = x.grid ∧ y.index = x.index ∧ (n = gang ∨ ∀ z, t.gang? gang = some z → z.st = .ended) ∧ ∀ p ∈ t.lanes, p.1.gang ≠ gang) ∧
        (gangChoice u gang = 1 → ∃ t y, exec (.launchPreempt waiting gang) s = .next t ∧ t.gang? gang = some y ∧
          y.st = .draining (some (2 * (s.mreg ⟨.drainb, gangCtx s gang, 0⟩).toNat)) ∧ t.lanes = u.lanes ∧ untried t) ∧
        (gangChoice u gang = 2 → saving (.launchPreempt waiting gang)))) ∧
  (∀ (s : State) (g : GroupId) (ctx : Nat) (x : Group), groupSubs s g = [] →
    (∀ p ∈ s.lanes, LaneId.grp p.1 = g → p.2.hx = none) →
    groupChoice s ctx g x = if x.expect ≠ 0 ∧ x.idem = true ∧ 20 * x.issues < x.expect then 0
      else if x.expect ≠ 0 ∧ x.expect - x.issues ≤ (s.mreg ⟨.drainb, ctx, 0⟩).toNat then 1 else 2) ∧
  (∀ (s u : State) (gang off : Nat) (x : Gang) (ps : List (Nat × Nat × Nat)) (l h : Nat) (a : Addr), s.gang? gang = some x →
    saveDue s gang x = true → (∀ p ∈ s.gangs, p.2.st = .placed → p.2.byCtxop = false) →
    let ctx := gangCtx s gang
    let len := 64 + Config.imageLength s.freeCtr % (imageBound s gang x - 63)
    (imagePlace s ctx len = none → noneParked s gang → (∀ p ∈ s.lanes, p.1.gang = gang → p.2.trigDue = false) → ∃ t y r, exec (.save gang) s = .next t ∧ t.gang? gang = some y ∧ y.st = .draining none ∧
      r ∈ t.recs ∧ r.kind = 0x41 ∧ (0x98, 1, Cause.saveFailed.code) ∈ r.body) ∧
    (imagePlace s ctx len = some off →
      bulkPlace s x.die ctx (s.mreg ⟨.savebase, ctx, 0⟩ + BitVec.ofNat 64 off) len .store = (u, ps, .place l h, a) →
      ∃ t y, exec (.save gang) s = .next t ∧ t.gang? gang = some y ∧
        y.st = (if x.byCtxop then .heldSaved off len s.freeCtr else .saved off len s.freeCtr))) ∧
  ∀ (s : State) (ctx : Nat),
    (ctxopRuns s ctx = true → exec (.preempt ctx) s = .next s ∧ exec (.kill ctx) s = .next s ∧ exec (.destroy ctx) s = .next s) ∧
    (ctxopRuns s ctx = false →
      (∃ t, exec (.preempt ctx) s = .next t ∧ ((∃ p ∈ s.gangs, gangCtx s p.1 = ctx ∧ p.2.held = true) →
        ∀ k x, s.gang? k = some x → t.gang? k = some (if gangCtx s k = ctx then x.returned else x))) ∧
      (∀ k x, s.gangs = [(k, x)] → gangCtx s k = ctx → x.st = .placed → x.close < 48 → (∀ p ∈ s.lanes, p.1.gang = k → p.2.spec = none) →
        gangChoice s k = 1 →
        ∃ t y, exec (.preempt ctx) s = .next t ∧ t.gang? k = some y ∧ y.byCtxop = true ∧
          y.st = .draining (some (2 * (s.mreg ⟨.drainb, ctx, 0⟩).toNat))) ∧
      (exec (.destroy ctx) s = .next (woke (tryDestroy (stopQueues (endCtx (ctxopStore s ctx 3) ctx 2 .kill) ctx) ctx))) ∧
      ∀ ev : Instr, (ev = .kill ctx ∨ ev = .destroy ctx) → ∃ t, exec ev s = .next t ∧
        (∀ k g, (∀ q < 64, lqCtx s q = ctx → (lqOf s q).taken = none) → (∀ p ∈ s.gangs, p.2.byCtxop = false) →
          s.grid? k = some g → g.ctx = ctx → g.done = false → g.ended = none →
          ∃ h, t.grid? k = some h ∧ h.ended = some (2, .kill) ∧ ∀ q ∈ t.gangs, q.2.grid = k → q.2.st = .ended) ∧
        (∀ q < 64, lqCtx s q = ctx → flg (s.mreg ⟨.lqctl, q, 0⟩) 15 = true → (lqOf t q).taken = none ∨ (lqOf t q).ended = true) ∧
        (ev = .destroy ctx → ∀ q < 64, lqCtx s q = ctx → flg (t.mreg ⟨.lqctl, q, 0⟩) 15 = false)) ∧
    (killRuns s ctx = true → tryDestroy s ctx = s) ∧
    (killRuns s ctx = false → ctx < 64 →
      let t := tryDestroy s ctx
      (∀ d, ∀ p ∈ (t.die d).sets, p.2.ctx ≠ ctx) ∧ (∀ p ∈ t.keys, p.2.1 ≠ ctx) ∧ t.mreg ⟨.ctxctl, ctx, 0⟩ = 0x02000001 ∧
        t.mreg ⟨.ctxkey, ctx, 0⟩ = 0 ∧ t.mreg ⟨.ctxop, ctx, 0⟩ = 0)

/-! ### The Crossing and the device as a whole (spec/02 R36 to R41; spec/03 R65 to R75; spec/21; spec/22) -/

/-- A bundle executes the instruction its fill gives, with nothing around it but what the Crossing and a debugger note. A step issues the first bundle
of a placed program, with the lanes that still stand there, in a cycle of its own; a cycle of a core ends the debugger's steps that end, does what is
due of its warps and lets each partition issue a collective that is due, else the bundle that it forms. The bytes at a PC give the instruction by the
decoder. That a word found in the instruction cache is the one used, and stays, is the choice of log entry 12 (R42), and that a cycle's partitions
issue in ascending order that of log entry 4 (spec/02 R36, R38, R41; spec/03 R65, R66, R72, R77, R79).
It follows the model's readings of log entries 1, 4, 12, 31 and 36. -/
def Obligations.StepRunsTheDecodedInstruction : Prop :=
  (∀ (s u t : State) (b : Bundle) (f : Filled),
    let at_ : State := { u with cur := { b with len := (filledInstr f).2 } }
    fillCache s b.core (gangCtx s b.gang) b.pc = (u, some f) → comparator u (gangCtx u b.gang) b.pc [] = none → b.lanes ≠ [] →
    exec (filledInstr f).1 at_ = .next t → issueBundle b s = .next (endIssue at_ (filledInstr f).1 t)) ∧
  (∀ (s : State) (b : Bundle) (r : List Bundle), s.forced = b :: r →
    let v := { s with forced := r }
    ((stillThere v b).lanes = [] → step s = .next v) ∧
    ∀ t, (stillThere v b).lanes ≠ [] → issueBundle (stillThere v b) (tick v b.core) = .next t → step s = .next (endCycle b.core t)) ∧
  (∀ (s : State) (core n : Nat) (rest : List Choice), s.forced = [] → s.agenda = .cycles core (n + 1) :: rest → core < 192 →
    let v := refresh (settleWork { s with agenda := rest })
    let ready_ := (List.range 4).foldl (fun u p => repathPart u core p) (punctual (settleSteps v core) core)
    ∀ t, issueParts core (List.range 4) (tickEngines (tick ready_ core) core) = .next t →
      step s = .next (if n = 0 then endCycle core t else { endCycle core t with agenda := .cycles core n :: (endCycle core t).agenda })) ∧
  (∀ (s : State) (core part : Nat),
    (∀ b, (dueColl s core part <|> pickBundle s core part) = some b → issuePart core part s = issueBundle b s) ∧
    (dueColl s core part = none → pickBundle s core part = none → issuePart core part s = .next s)) ∧
  (∀ (s v u : State) (core ctx : Nat) (va : Addr) (h : Byte) (bs : List Byte) (x : Byte),
    (∀ f, mfind (s.core core).icache (ctx, va) = some f → fillCache s core ctx va = (s, some f) ∧
      exec (.instructionFill core ctx va) s = .next (woke s)) ∧
    (mfind (s.core core).icache (ctx, va) = none → fetchByte s (dieOf core) ctx va = (v, .ok h) →
      fetchBytes v (dieOf core) ctx va (lengthOf h) = (u, bs, .ok x) → bs.head? = some h →
      (∀ i, decode bs = some (i, []) → (fillCache s core ctx va).2 = some (.word i (lengthOf h))) ∧
      (decode bs = none → ∃ c o, (fillCache s core ctx va).2 = some (.fault c o (lengthOf h))) ∧
      ∃ t, exec (.instructionFill core ctx va) s = .next t ∧ mfind (t.core core).icache (ctx, va) = (fillCache s core ctx va).2))

/-- The length of an instruction comes from its header byte alone, of an illegal one too (R36), and words of the spec's encoding decode to the
instructions they stand for (spec/02 R33 to R36, R43, R44, R50, R58). -/
def Obligations.KnownWordsDecode : Prop :=
  (∀ (h : Byte) (rest : List Byte),
    let bit := fun (i : Nat) => if h.getLsbD i then 1 else 0
    let len := 5 + bit 3 + bit 4 + bit 2 + 2 * bit 7 + 4 * bit 6 + 2 * bit 5
    len ≤ rest.length + 1 → (∃ i, fill (h :: rest) = .word i len) ∨ ∃ c o, c ≠ .fetchFault ∧ fill (h :: rest) = .fault c o len) ∧
  let word : IWord := { ge := false, gn := false, gr := 0, gb := 0, d := .none, a := .none, b := .none, c := .none, wc := false, wb := false,
                        wa := false, t := .none, x := 0 }
  decode [0x00, 0x00, 0xFF, 0xFF, 0x00] = some (.nop word, []) ∧
  decode [0x29, 0x41, 0x05, 0x04, 0xFE, 0x03, 0x01, 0x00] = some (.shfu { word with d := .g 5, a := .g 4, b := .imm, t := .b32, x := 1 }, []) ∧
  decode [0x2B, 0x00, 0xFF, 0xFF, 0xFE, 0x03, 0x2A, 0x00] = some (.trap { word with b := .imm, t := .b32, x := 42 }, []) ∧
  decode [0x20, 0x10, 0x9C, 0x05, 0x0C, 0x06, 0x00] = some (.loop { word with d := .lc 0, a := .g 5, t := .n32, x := 6 }, []) ∧
  decode [0x2A, 0x00, 0x04, 0xFF, 0xFE, 0x0C, 0x3F, 0x00] = some (.snew { word with d := .g 4, b := .imm, t := .n32, x := 63 }, [])

/-- A warp grows overdue after 64 cycles and changes its path to the thread ready longest when its timer runs out; an idle active warp gives its place
to a pending one, as the active one that issued longest ago does to a pending one of 256 cycles; where several have come to that in one cycle and
there are as many to give way, each has its place (spec/03 R68 to R75).
It follows the model's readings of log entries 3, 4 and 18. -/
def Obligations.WarpsTakeTurns : Prop :=
  ∀ (s : State) (w v : WarpId) (x y : Warp), gangRuns s w.gang = true → s.warp? w = some x → s.warp? v = some y →
    let ctl := s.mreg ⟨.ctxctl, gangCtx s w.gang, 0⟩
    let swapped := fun (ev : Instr) (out into : WarpId) (a b : Warp) => ∃ t, exec ev s = .next t ∧
      t.warp? out = some { a with active := false, aging := 0, starved := 0 } ∧ t.warp? into = some { b with active := true, aging := 0, starved := 0 } ∧
      t.lanes = s.lanes
    (x.active = true → 64 ≤ x.starved → exec (.overdue w) s = .next (woke (s.setWarp w { x with overdue := true }))) ∧
    (x.active = false ∨ x.starved < 64 → exec (.overdue w) s = .next s) ∧
    (x.active = false ∨ flg ctl 0 = false ∨ x.timer < fld ctl 31 16 → exec (.pathTimerExpiry w) s = .next s) ∧
    (x.active = true → flg ctl 0 = true → fld ctl 31 16 ≤ x.timer →
      let away := (warpThreads s w).filter (fun p => ready s p.1 p.2 && some p.2.pc != x.path)
      (away = [] → exec (.pathTimerExpiry w) s = .next (woke s)) ∧
      (away ≠ [] → ∃ t z p, exec (.pathTimerExpiry w) s = .next t ∧ t.warp? w = some z ∧ z.timer = 0 ∧ p ∈ away ∧ z.path = some p.2.pc ∧
        ∀ q ∈ away, q.2.since ≤ p.2.since)) ∧
    (x.active = true → y.active = false → warpIdle s w = true → nextPending s (warpCore s w) (x.slot % 4) = some v →
      swapped (.warpSwapOut w) w v x y) ∧
    (x.active = false → y.active = true → 256 ≤ x.aging → oldestActive s (warpCore s w) (x.slot % 4) = some v →
      swapped (.activeSetAging w) v w y x) ∧
    ∀ core part,
      let aged := agedWarps s core part
      let olds := activeWarps s core part
      (s.warps.map Prod.fst).Nodup → aged.length ≤ olds.length →
        ∀ p ∈ aged, ∃ z, (displaceAll aged olds s).warp? p = some z ∧ z.active = true ∧ z.aging = 0

/-- The module right after reset holds what the spec gives it: registers at their reset values, memory zeros, no grid, no lane. A module reset comes
to that, whatever resets it, but for host memory, which stands as the Skim commands it cuts off and the writes on their way leave it. Self-tests, the
boot ROM's report and the first SQOVSIZE bring functions up (spec/01 R24; spec/22 R407 to R411, R418).
It follows the model's readings of log entries 5 and 26. -/
def Obligations.ResetAndBringUp : Prop :=
  (let s := State.reset
    let reg := fun (n : MName) (i : Nat) => s.mreg ⟨n, i, 0⟩
    orderly s ∧ (∀ d a, byteAtDie s d a = 0#8) ∧ s.lanes = [] ∧ s.grids = [] ∧ s.gangs = [] ∧ s.inflight = [] ∧ s.keys = [] ∧
    (∀ d, (s.die d).vec = List.replicate 32 0 ∧ (s.die d).tlb = [] ∧ (s.die d).sets = [] ∧ (s.die d).seqSquare = 1) ∧
    (∀ c, (s.core c).cyc = 0 ∧ (s.core c).ticket = 1 ∧ (s.core c).seqLane = 1 ∧ (s.core c).mx.owner = none) ∧
    ∀ i, reg .ready i = 0 ∧ reg .fail i = 0 ∧ reg .ctxctl i = 0x02000001 ∧ reg .wdog i = 0x8000 ∧ reg .drainb i = 0x1D4C0 ∧ reg .vector i = 0 ∧
      reg .admbudget i = 1000 ∧ reg .thot i = 105 ∧ reg .tcrit i = 115 ∧ reg .ftmo i = 0x40 ∧ reg .admwd i = 0x1000 ∧ reg .dbgctl i = 0) ∧
  (∀ s : State, ∃ t, exec .mrst s = .next t ∧ exec .pcieConventionalReset s = .next t ∧ exec .functionLevelReset s = .next t ∧
    t.lanes = [] ∧ t.grids = [] ∧ t.gangs = [] ∧ t.cores = [] ∧ t.mregs = [] ∧ t.keys = [] ∧ t.inflight = [] ∧
    (∀ d a, a < 2 ^ 48 → a / 2 ^ 45 = moduleNo s ∨ a / 2 ^ 45 = 0 → byteAtDie t d a = 0#8) ∧
    (∀ d a, 2 ^ 48 ≤ a → byteAtDie t d a = byteAtDie (drainAll ([0, 1].foldl resetSkim s)) d a) ∧
    ∀ d, (t.die d).tlb = [] ∧ (t.die d).sqq = [] ∧ (t.die d).sets = [] ∧ (t.die d).vec = Vec.zero) ∧
  ∀ (s : State) (b : Nat) (svn : BitVec 32),
    let after := fun (e : Instr) (p : State → Prop) => ∃ t, exec e s = .next t ∧ p t
    (untested s b = true →
      after (.selfTest b false) (fun t => failBit t b = true ∧ readyBit t b = readyBit s b) ∧
      (b ≠ 1 → b < 22 ∨ 26 ≤ b → after (.selfTest b true) (fun t => readyBit t b = true)) ∧
      (22 ≤ b → b < 26 → after (.selfTest b true) (fun t => readyBit t b = false ∧ (t.die (b - 22)).sqTested = true))) ∧
    (untested s b = false → ∀ passed, exec (.selfTest b passed) s = .next s) ∧
    (readyBit s 1 = false → failBit s 1 = false → fld (s.mreg ⟨.fwstat, 0, 0⟩) 3 0 = 0 →
      after (.firmwareVerify 0 svn) (fun t => readyBit t 1 = true ∧ fld (t.mreg ⟨.fwstat, 0, 0⟩) 63 32 = svn.toNat ∧
        fld (t.mreg ⟨.fwstat, 0, 0⟩) 3 0 = 0) ∧
      ∀ r, 0 < r → r < 16 → after (.firmwareVerify r svn) (fun t => readyBit t 1 = false ∧ fld (t.mreg ⟨.fwstat, 0, 0⟩) 3 0 = r ∧
        fld (t.mreg ⟨.fwstat, 0, 0⟩) 63 32 = 0)) ∧
    ∀ d < 4, ∀ v, failBit s (22 + d) = false →
      after (.squareReady d v) (fun t => readyBit t (22 + d) = ((s.die d).sqTested || readyBit s (22 + d)) ∧
        fld (t.mreg ⟨.sqovsize, d, 0⟩) 23 0 = fld v 23 0)

/-- A write of a management register stores its writable bits, replaced as its entry says where they lie outside its range, and no other register
changes; a read-only or locked register ignores it, HWLOCK keeps what it guards locked once LOCK was 1, and a reset of an absent unit is refused with
ST 1 (spec/03 R71; spec/10 R223; spec/20 R357; spec/21 R383; spec/22 R407, R408, R411, R412, R415, R417).
It follows the model's readings of log entry 26. -/
def Obligations.RegisterWritesKeepTheirRules : Prop :=
  (∀ (s : State) (r : MReg) (v : BitVec 64),
    let plain := r.name ≠ .engrst ∧ r.name ≠ .ctxop ∧ r.name ≠ .fbbase ∧ r.name ≠ .fbsize ∧ r.name ≠ .fbtail ∧ r.name ≠ .nsbctl
    (plain → startsAction r v = false → ∃ t, exec (.registerWrite r v) s = .next t ∧
      t.mreg r = (if regLocked s r then s.mreg r else regNew (s.mreg r) r.name v.toNat) ∧ (∀ q, q ≠ r → t.mreg q = s.mreg q) ∧
      t.lanes = s.lanes ∧ t.dies = s.dies) ∧
    (flg v 63 = true → resetUnit s v = none → ∀ i j, ∃ t, exec (.registerWrite ⟨.engrst, i, j⟩ v) s = .next t ∧
      fld (t.mreg ⟨.engrst, 0, 0⟩) 62 60 = 1 ∧ flg (t.mreg ⟨.engrst, 0, 0⟩) 63 = false)) ∧
  (∀ (old v : BitVec 64) (n : MName),
    let new := fun (n : MName) => regNew old n v.toNat
    fld (new .thot) 7 0 = min (fld v 7 0) 105 ∧ fld (new .tcrit) 7 0 = min (fld v 7 0) 115 ∧
    fld (new .admbudget) 15 0 = min (fld v 15 0) 1000 ∧ fld (new .ftmo) 31 0 = max (fld v 31 0) 1 ∧
    fld (new .ctxctl) 31 16 = max (fld v 31 16) 64 ∧ flg (new .ctxctl) 0 = flg v 0 ∧
    fld (new .fbsize) 4 0 = (if 4 ≤ fld v 4 0 ∧ fld v 4 0 ≤ 20 then fld v 4 0 else 4) ∧
    flg (new .hwlock) 0 = flg v 0 ∧ flg (new .hwlock) 63 = (flg old 63 || flg v 0) ∧ new .vector = v ∧ new .troot = v ∧
    (n = .ready ∨ n = .fail ∨ n = .fwstat ∨ n = .admres ∨ n = .admheld ∨ n = .ctxkey ∨ n = .skhead → new n = old)) ∧
  ∀ (s : State) (c : Nat),
    (flg (s.mreg ⟨.hwlock, 0, 0⟩) 63 = true → ∀ n ∈ [MName.hwindev, .hwinhost, .hwinsize, .hostkey], ∀ i j, regLocked s ⟨n, i, j⟩ = true) ∧
    ((∃ p ∈ s.gangs, gangCtx s p.1 = c ∧ p.2.st = .placed) →
      ∀ n ∈ [MName.privroot, .privsz, .privcnt, .savebase, .savesize, .saveslot], ∀ j, regLocked s ⟨n, c, j⟩ = true)

/-- The module ends grids for heat, a failing unit and an abort by ST 1 with the cause, holds back admission above THOT and issues above TCRIT until
it is below THOT; where no try is open, an invalidation leaves no translation of its range, a replay releases what is parked; firmware reserves units
and installs routes that the host platform key signs, with the number and size that they give (what a table's signature covers and that it gives those
numbers is the choice of log entry 10); keys and attestation complete with their status (spec/03 R87; spec/10 R222, R225; spec/22 R408, R413, R415,
R417, R420, R421).
It follows the model's readings of log entries 10 and 26. -/
def Obligations.TheModuleIsManaged : Prop :=
  (∀ (s : State) (d : Nat) (u : BitVec 16) (m z : BitVec 3),
    exec (.junctionAboveThot d) s = .next (s.setDie d { s.die d with hot := true }) ∧
    (∃ t, exec (.junctionBelowThot d) s = .next t ∧ (t.die d).hot = false ∧ ∀ c < 48, (t.core (48 * d + c)).halted = false) ∧
    (readyBit s 1 = true → exec (.admresChange d u) s = .next (woke (s.setMreg ⟨.admres, d, 0⟩ (u.setWidth 64)))) ∧
    (readyBit s 1 = false → exec (.admresChange d u) s = .next s) ∧
    ∀ x : SignedTable,
      (flg (s.mreg ⟨.hwlock, 0, 0⟩) 63 = false → tableSigned s x = false) ∧
      (tableSigned s x = false → exec (.routingTableUpdate m z x) s = .next s) ∧
      (Config.tableModule x.table ≠ (m, z) → exec (.routingTableUpdate m z x) s = .next s) ∧
      (tableSigned s x = true → Config.tableModule x.table = (m, z) → ∃ t, exec (.routingTableUpdate m z x) s = .next t ∧ t.routing = x.table ∧
        t.mreg ⟨.modid, 0, 0⟩ = BitVec.ofNat 64 (16 * z.toNat + m.toNat) ∧ t.dies = s.dies ∧ t.lanes = s.lanes)) ∧
  (∀ (s : State) (c k : Nat) (d unit : Nat) (x : Gang) (g : Grid), s.gang? k = some x → x.onClose = true → s.grid? x.grid = some g → g.done = false →
    g.ended = none → (∀ p ∈ s.gangs, p.2.st ≠ .saving) →
    let ends := fun (e : Instr) (cause : Cause) => ∃ t h, exec e s = .next t ∧ t.grid? x.grid = some h ∧ h.ended = some (1, cause)
    ends .thermalHalt .thermalHalt ∧ (∃ t, exec .thermalHalt s = .next t ∧ ∀ c < 192, (t.core c).halted = true) ∧
    (onUnit s d unit k x = true → ends (.machineCheck d unit) .machineCheck) ∧
    (g.ctx = c → ends (.modctlAbort c true) .hostAbort ∧ (readyBit s 1 = true → ends (.modctlAbort c false) .firmwareAbort)) ∧
    (readyBit s 1 = false → exec (.modctlAbort c false) s = .next s)) ∧
  (∀ (s : State) (d : Nat) (v : BitVec 64),
    (flg v 0 = true → (∀ p ∈ s.lanes, p.2.spec = none) → ∃ t, exec (.xinv d v) s = .next t ∧
      ∀ e ∈ (t.die d).tlb, e.inRange (fld v 11 6) (fld v 5 3) (fld v 56 12 * 4096) = false) ∧
    (flg v 0 = false → exec (.xinv d v) s = .next (regStore s ⟨.xinv, d, 0⟩ v.toNat)) ∧
    (flg v 6 = true → ∃ t, exec (.xreplay d v) s = .next t ∧ (∀ q ∈ (t.die d).sqq, q.ctx = fld v 5 0 → q.parked = false) ∧
      ∀ k l dst, s.lane? k = some l → l.st = .replay false dst → gangRuns s k.gang = true → laneDie s k = d → laneCtx s k = fld v 5 0 →
        ∃ m, t.lane? k = some m ∧ m.st = .replay true dst ∧ m.regs = l.regs ∧ m.pc = l.pc)) ∧
  (∀ s : State,
    let at_ := (s.mreg ⟨.attaddr, 0, 0⟩).toNat
    let goes := fun (ev : Instr) (op : BitVec 64) (bs : List Byte) =>
      (availSpan s at_ bs.length = .waits → exec ev s = .next (woke (s.setMreg ⟨.attgo, 0, 0⟩ op))) ∧
      (availSpan s at_ bs.length ≠ .waits → exec ev s = .next (woke ((ioWrite s at_ bs).setMreg ⟨.attgo, 0, 0⟩ 0)))
    goes .attestationReport 1 (reportBytes s) ∧ goes .identityCertificate 2 certBytes ∧
    (reportBytes s).take 8 = bytesLE 4 1 ++ bytesLE 4 (fld (s.mreg ⟨.fwstat, 0, 0⟩) 63 32) ∧
    ((reportBytes s).drop 8).take 8 = bytesLE 8 (s.mreg ⟨.attnonce, 0, 0⟩).toNat) ∧
  (∀ (s : State) (m : List Byte), keyMessage s = (.bad, m) → ∃ t, exec .keyLoad s = .next t ∧ t.mreg ⟨.klstat, 0, 0⟩ = 1 ∧ t.mreg ⟨.klgo, 0, 0⟩ = 0 ∧
    t.keys = s.keys) ∧
  ∀ (s : State) (m : List Byte) (key : Nat), keyMessage s = (.ready, m) →
    let ctx := recN m 4 1
    let slot := recN m 5 1
    let unload := natBit (recN m 6 1) 0
    let go := if unload then Instr.keyUnload else Instr.keyLoad
    ∃ t, exec go s = .next t ∧ t.mreg ⟨.klgo, 0, 0⟩ = 0 ∧ (t.mreg ⟨.klstat, 0, 0⟩).toNat = (keyStatus s m).1 ∧
      (keyStatus s m = (0, key) → mfind t.keys slot = (if unload then none else some (ctx, key)) ∧
        (t.mreg ⟨.ctxkey, ctx, 0⟩).toNat = if unload then 0 else slot) ∧
      ((keyStatus s m).1 ≠ 0 → t.keys = s.keys) ∧
      (badMessage m = true → (keyStatus s m).1 = 1) ∧ (badMessage m = false → unwrapKey m = none → (keyStatus s m).1 = 2)

/-- HALT stops every lane of a context where it stands and GO lets them go on, those of saved gangs too; DBGSTEP lets the lanes its mode selects, the
named one among them unless it is trap-parked, issue once; DBGSEL reads and writes a stopped lane's register, or is refused with 1, 2, 3 or 4; a dump
takes an aligned address; a read of TRDROP clears it (R383 to R389, R397, R402).
It follows the model's readings of log entry 25. -/
def Obligations.DebuggersControlLanes : Prop :=
  ∀ (s : State) (ctx : Nat) (v : BitVec 64),
    (∃ t, exec (.halt ctx) s = .next t ∧ ∀ k ∈ ctxLanes s ctx, ∀ l, s.lane? k = some l → l.st ≠ .exited → l.mon = none →
      ∃ m, t.lane? k = some m ∧ m.stopped = true ∧ m.pc = l.pc ∧ m.regs = l.regs ∧ m.st = l.st) ∧
    ((∀ p ∈ s.lanes, p.2.st.parked = false ∧ p.2.trigDue = false) →
      (∃ t, exec (.go ctx) s = .next t ∧ ∀ k l, s.lane? k = some l → gangCtx s k.gang = ctx → l.st ≠ .exited → l.stopped = true →
        t.lane? k = some { l with stopped := false, stepping := false }) ∧
      ∀ k, let s1 := regStore s ⟨.dbgstep, ctx, 0⟩ v.toNat
        let ks := stepLanes s1 ctx (fld v 63 62) k
        namedLane s1 ctx (fld v 43 0) = .lane k →
        (∀ l, s.lane? k = some l → l.st ≠ .trapped → k ∈ ks) ∧
        ∃ t, exec (.dbgstep ctx v) s = .next t ∧
          (∀ j ∈ ks, ∀ l, s.lane? j = some l → t.lane? j = some { l with stopped := false, stepping := true }) ∧
          ∀ j, j ∉ ks → t.lane? j = s.lane? j) ∧
    (∀ k l,
      let code := fld v 7 0
      let data := s.mreg ⟨.dbgdata, ctx, 0⟩
      let refused := fun (st : Nat) => ∀ e ∈ [Instr.dbgselRead ctx v, Instr.dbgselWrite ctx v],
        ∃ t, exec e s = .next t ∧ fld (t.mreg ⟨.dbgsel, ctx, 0⟩) 61 59 = st ∧ flg (t.mreg ⟨.dbgsel, ctx, 0⟩) 63 = false ∧ t.lanes = s.lanes
      (ctxKeyId s ctx ≠ 0 → refused 3) ∧
      (ctxKeyId s ctx = 0 → namedLane s ctx (fld v 51 8) = .ambiguous → refused 4) ∧
      (ctxKeyId s ctx = 0 → namedLane s ctx (fld v 51 8) = .running → refused 1) ∧
      (ctxKeyId s ctx = 0 → namedLane s ctx (fld v 51 8) = .lane k → s.lane? k = some l →
        (128 ≤ code → code < 144 → refused 2) ∧
        (code < 128 → l.regs.length ≤ code → refused 2) ∧
        (code < 128 → code < l.regs.length →
          (∃ t, exec (.dbgselRead ctx v) s = .next t ∧ t.mreg ⟨.dbgdata, ctx, 0⟩ = (l.reg code).val.setWidth 64 ∧
            fld (t.mreg ⟨.dbgsel, ctx, 0⟩) 61 59 = 0 ∧ flg (t.mreg ⟨.dbgsel, ctx, 0⟩) 58 = !(l.reg code).full ∧ t.lanes = s.lanes) ∧
          ∃ t, exec (.dbgselWrite ctx v) s = .next t ∧ t.lane? k = some (l.setReg code (data.setWidth 32)) ∧
            fld (t.mreg ⟨.dbgsel, ctx, 0⟩) 61 59 = 0))) ∧
    (v.toNat % 4096 ≠ 0 → exec (.dbgdump ctx v) s = .next (s.setMreg ⟨.dbgdump, ctx, 0⟩ v)) ∧
    (v.toNat % 4096 = 0 → canonical v = true → inPrivate v = false → ∃ t, exec (.dbgdump ctx v) s = .next t ∧ t.mreg ⟨.dbgdump, ctx, 0⟩ = v ∧
      t.freeCtr = s.freeCtr + 1) ∧
    ∀ d, exec (.trdropRead d) s = .next (s.setMreg ⟨.trdrop, d, 0⟩ 0)

/-! ### Invariants of every step -/

/-- Every step keeps every memory of the machine, each die's view and each group's scratchpad, in canonical form: addresses strictly rising and no
byte listed that reads as an unlisted one does, so that memories that read alike are equal (spec/01 R23; spec/12 R244; the canonical form is the
model's own, log entry 1). -/
def Obligations.MemoriesStayCanonical : Prop :=
  ∀ s t : State, orderly s → step s = .next t → orderly t
end

