-- ==== Sys2Proof/Laws/Maps.lean ====
section
/-! SUPPORT. What keyed lists and byte memories do: read after write, writes elsewhere, and the canonical form that every memory
operation keeps. -/

namespace Sys2Proof.Machine

/-! ### Keyed lists -/

@[simp] theorem mfind_mset_same {K V : Type} [DecidableEq K] (m : List (K × V)) (k : K) (v : V) : mfind (mset m k v) k = some v := by
  induction m with
  | nil => simp [mset, mfind]
  | cons p r ih => by_cases h : p.1 = k <;> simp [mset, mfind, h, ih]

theorem mfind_mset_ne {K V : Type} [DecidableEq K] (m : List (K × V)) {j k : K} (v : V) (h : j ≠ k) :
    mfind (mset m k v) j = mfind m j := by
  induction m with
  | nil => simp [mset, mfind, Ne.symm h]
  | cons p r ih =>
    by_cases hk : p.1 = k
    · simp [mset, mfind, hk, Ne.symm h]
    · by_cases hj : p.1 = j <;> simp [mset, mfind, hk, hj, ih, h]

@[simp] theorem mget_mset_same {K V : Type} [DecidableEq K] (m : List (K × V)) (k : K) (v e : V) : mget (mset m k v) k e = v := by
  simp [mget]

theorem mget_mset_ne {K V : Type} [DecidableEq K] (m : List (K × V)) {j k : K} (v e : V) (h : j ≠ k) :
    mget (mset m k v) j e = mget m j e := by
  simp [mget, mfind_mset_ne m v h]

@[simp] theorem mset_mset {K V : Type} [DecidableEq K] (m : List (K × V)) (k : K) (v w : V) : mset (mset m k v) k w = mset m k w := by
  induction m with
  | nil => simp [mset]
  | cons p r ih => by_cases h : p.1 = k <;> simp [mset, h, ih]

theorem mset_same {K V : Type} [DecidableEq K] (m : List (K × V)) (k : K) (v : V) (h : mfind m k = some v) : mset m k v = m := by
  induction m with
  | nil => simp [mfind] at h
  | cons p r ih =>
    by_cases hk : p.1 = k
    · simp [mfind, hk] at h; simp [mset, hk, ← h]; rw [← hk]
    · simp [mfind, hk] at h; simp [mset, hk, ih h]

/-! ### Byte memories: the canonical form -/

theorem memWfFrom_weaken {a b : Nat} {m : Mem} (h : b ≤ a) (hw : memWfFrom a m = true) : memWfFrom b m = true := by
  cases m with
  | nil => rfl
  | cons p r => simp [memWfFrom] at hw ⊢; exact ⟨⟨by omega, hw.1.2⟩, hw.2⟩

theorem memWfFrom_del (m : Mem) (lo x : Nat) (hw : memWfFrom lo m = true) : memWfFrom lo (mdel m x) = true := by
  induction m generalizing lo with
  | nil => rfl
  | cons p r ih =>
    simp only [memWfFrom, Bool.and_eq_true, decide_eq_true_eq] at hw
    by_cases h : p.1 = x
    · simp only [mdel, List.filter_cons, h, ne_eq, not_true_eq_false, decide_false, Bool.false_eq_true, if_false]
      exact memWfFrom_weaken (by omega) (ih (p.1 + 1) hw.2)
    · simp only [mdel, List.filter_cons, ne_eq, h, not_false_eq_true, decide_true, if_true, memWfFrom, Bool.and_eq_true, decide_eq_true_eq]
      exact ⟨hw.1, ih (p.1 + 1) hw.2⟩

theorem mfind_mdel_same {K V : Type} [DecidableEq K] (m : List (K × V)) (k : K) : mfind (mdel m k) k = none := by
  induction m with
  | nil => rfl
  | cons p r ih => by_cases h : p.1 = k <;> simp_all [mdel, mfind]

theorem mfind_mdel_ne {K V : Type} [DecidableEq K] (m : List (K × V)) {j k : K} (h : j ≠ k) : mfind (mdel m k) j = mfind m j := by
  induction m with
  | nil => rfl
  | cons p r ih =>
    by_cases hk : p.1 = k
    · subst hk
      simp only [mdel, List.filter_cons, ne_eq, not_true_eq_false, decide_false, Bool.false_eq_true, if_false, mfind, Ne.symm h]
      exact ih
    · simp only [mdel, List.filter_cons, ne_eq, hk, not_false_eq_true, decide_true, if_true, mfind]
      split
      · rfl
      · exact ih

theorem memWfFrom_insert (m : Mem) (lo x : Nat) (v : Byte) (hx : lo ≤ x) (hv : v ≠ 0#8) (hn : mfind m x = none)
    (hw : memWfFrom lo m = true) : memWfFrom lo (memInsert m x v) = true := by
  induction m generalizing lo with
  | nil => simp [memInsert, memWfFrom, hx, hv]
  | cons p r ih =>
    obtain ⟨a, b⟩ := p
    simp only [memWfFrom, Bool.and_eq_true, decide_eq_true_eq] at hw
    have ha : a ≠ x := fun h => by simp [mfind, h] at hn
    have hr : mfind r x = none := by simpa [mfind, ha] using hn
    simp only [memInsert]
    split
    · simp only [memWfFrom, Bool.and_eq_true, decide_eq_true_eq, bne_iff_ne, ne_eq] at hw ⊢
      exact ⟨⟨hx, hv⟩, ⟨⟨by omega, hw.1.2⟩, hw.2⟩⟩
    · simp only [memWfFrom, Bool.and_eq_true, decide_eq_true_eq]
      exact ⟨hw.1, ih (a + 1) (by omega) hr hw.2⟩

theorem memWfFrom_write (m : Mem) (lo x : Nat) (v : Byte) (hx : lo ≤ x) (hw : memWfFrom lo m = true) :
    memWfFrom lo (memWrite m x v) = true := by
  unfold memWrite
  split
  · exact memWfFrom_del m lo x hw
  · next hv => exact memWfFrom_insert _ lo x v hx hv (mfind_mdel_same m x) (memWfFrom_del m lo x hw)

/-- Writing one byte keeps the canonical form. -/
theorem memWrite_wf {m : Mem} (x : Nat) (v : Byte) (h : m.wf = true) : (memWrite m x v).wf = true :=
  memWfFrom_write m 0 x v (Nat.zero_le x) h

/-- Writing bytes keeps the canonical form. -/
theorem memWrites_wf (vs : List Byte) {m : Mem} (x : Nat) (h : m.wf = true) : (memWrites m x vs).wf = true := by
  induction vs generalizing m x with
  | nil => exact h
  | cons v vs ih => exact ih (x + 1) (memWrite_wf x v h)

/-- Writing cells keeps the canonical form. -/
theorem memCells_wf (cs : List (Nat × Byte)) {m : Mem} (h : m.wf = true) : (memCells m cs).wf = true := by
  induction cs generalizing m with
  | nil => exact h
  | cons c r ih => exact ih (memWrite_wf c.1 c.2 h)

@[simp] theorem mem_nil_wf : Mem.wf [] = true := rfl

/-! ### Byte memories: reading after writing -/

theorem mfind_insert_same (m : Mem) (x : Nat) (v : Byte) (hn : mfind m x = none) : mfind (memInsert m x v) x = some v := by
  induction m with
  | nil => simp [memInsert, mfind]
  | cons p r ih =>
    have ha : p.1 ≠ x := fun h => by simp [mfind, h] at hn
    have hr : mfind r x = none := by simpa [mfind, ha] using hn
    simp only [memInsert]
    split
    · simp [mfind]
    · simp [mfind, ha, ih hr]

theorem mfind_insert_ne (m : Mem) {x y : Nat} (v : Byte) (h : y ≠ x) : mfind (memInsert m x v) y = mfind m y := by
  induction m with
  | nil => simp [memInsert, mfind, Ne.symm h]
  | cons p r ih =>
    simp only [memInsert]
    split
    · simp [mfind, Ne.symm h]
    · simp only [mfind, ih]

/-- A byte written reads back. -/
@[simp] theorem memRead_memWrite_same (m : Mem) (x : Nat) (v : Byte) : memRead (memWrite m x v) x = v := by
  unfold memWrite memRead mget
  split
  · next h => simp [mfind_mdel_same, h]
  · simp [mfind_insert_same _ x v (mfind_mdel_same m x)]

/-- A write leaves every other byte. -/
theorem memRead_memWrite_ne (m : Mem) {x y : Nat} (v : Byte) (hy : y ≠ x) : memRead (memWrite m x v) y = memRead m y := by
  unfold memWrite memRead mget
  split
  · rw [mfind_mdel_ne m hy]
  · rw [mfind_insert_ne _ v hy, mfind_mdel_ne m hy]

/-- A write of bytes leaves every byte outside them. -/
theorem memRead_memWrites_ne (vs : List Byte) (m : Mem) {x y : Nat} (hy : y < x ∨ x + vs.length ≤ y) :
    memRead (memWrites m x vs) y = memRead m y := by
  induction vs generalizing m x with
  | nil => rfl
  | cons v vs ih =>
    simp only [List.length_cons] at hy
    rw [memWrites, ih _ (by omega), memRead_memWrite_ne _ v (by omega)]

/-- Bytes written read back. -/
theorem memReads_memWrites (vs : List Byte) (m : Mem) (x : Nat) : memReads (memWrites m x vs) x vs.length = vs := by
  induction vs generalizing m x with
  | nil => rfl
  | cons v vs ih =>
    simp only [List.length_cons, memReads, memWrites]
    rw [ih _ (x + 1), memRead_memWrites_ne vs _ (by omega), memRead_memWrite_same]

theorem memRead_below {m : Mem} {lo x : Nat} (h : memWfFrom lo m = true) (hx : x < lo) : memRead m x = 0#8 := by
  induction m generalizing lo with
  | nil => rfl
  | cons p r ih =>
    simp only [memWfFrom, Bool.and_eq_true, decide_eq_true_eq] at h
    have : memRead (p :: r) x = memRead r x := by simp [memRead, mget, mfind, show p.1 ≠ x by omega]
    rw [this]
    exact ih h.2 (by omega)

theorem memRead_cons (a : Nat) (b : Byte) (r : Mem) (x : Nat) : memRead ((a, b) :: r) x = if a = x then b else memRead r x := by
  by_cases h : a = x <;> simp [memRead, mget, mfind, h]

/-- Two memories in canonical form that read alike are equal. -/
theorem mem_ext_from (m n : Mem) (lo : Nat) (hm : memWfFrom lo m = true) (hn : memWfFrom lo n = true)
    (h : ∀ x, memRead m x = memRead n x) : m = n := by
  induction m generalizing n lo with
  | nil =>
    cases n with
    | nil => rfl
    | cons p r =>
      simp [memWfFrom] at hn
      have := h p.1
      rw [memRead_cons] at this
      simp [memRead, mget, mfind] at this
      exact absurd this.symm hn.1.2
  | cons p r ih =>
    obtain ⟨a, b⟩ := p
    cases n with
    | nil =>
      simp [memWfFrom] at hm
      have := h a
      rw [memRead_cons] at this
      simp [memRead, mget, mfind] at this
      exact absurd this hm.1.2
    | cons q t =>
      obtain ⟨c, d⟩ := q
      simp only [memWfFrom, Bool.and_eq_true, decide_eq_true_eq, bne_iff_ne, ne_eq] at hm hn
      have hac : a = c := by
        rcases Nat.lt_trichotomy a c with hlt | heq | hgt
        · have := h a
          rw [memRead_cons, memRead_cons, if_pos rfl, if_neg (by omega), memRead_below hn.2 (by omega)] at this
          exact absurd this hm.1.2
        · exact heq
        · have := h c
          rw [memRead_cons, memRead_cons, if_pos rfl, if_neg (by omega), memRead_below hm.2 (by omega)] at this
          exact absurd this.symm hn.1.2
      subst hac
      have hbd : b = d := by have := h a; rwa [memRead_cons, memRead_cons, if_pos rfl, if_pos rfl] at this
      subst hbd
      refine congrArg _ (ih t (a + 1) hm.2 hn.2 (fun x => ?_))
      by_cases hx : x ≤ a
      · rw [memRead_below hm.2 (by omega), memRead_below hn.2 (by omega)]
      · have := h x
        rwa [memRead_cons, memRead_cons, if_neg (by omega), if_neg (by omega)] at this

/-- Equal memories are equal data. -/
theorem mem_ext {m n : Mem} (hm : m.wf = true) (hn : n.wf = true) (h : ∀ x, memRead m x = memRead n x) : m = n :=
  mem_ext_from m n 0 hm hn h

end Sys2Proof.Machine
end

