-- ==== Sys2Proof/Laws/State.lean ====
section
/-! SUPPORT. What each update of State leaves and gives: one lemma per field per update, and each read after each update. -/

namespace Sys2Proof.Machine

variable (s : State)

/-! ### State.setMreg -/

@[simp] theorem State.setMreg_agenda (r : MReg) (v : BitVec 64) : (s.setMreg r v).agenda = s.agenda := rfl
@[simp] theorem State.setMreg_forced (r : MReg) (v : BitVec 64) : (s.setMreg r v).forced = s.forced := rfl
@[simp] theorem State.setMreg_cur (r : MReg) (v : BitVec 64) : (s.setMreg r v).cur = s.cur := rfl
@[simp] theorem State.setMreg_blocked (r : MReg) (v : BitVec 64) : (s.setMreg r v).blocked = s.blocked := rfl
@[simp] theorem State.setMreg_shorts (r : MReg) (v : BitVec 64) : (s.setMreg r v).shorts = s.shorts := rfl
@[simp] theorem State.setMreg_met (r : MReg) (v : BitVec 64) : (s.setMreg r v).met = s.met := rfl
@[simp] theorem State.setMreg_freeCtr (r : MReg) (v : BitVec 64) : (s.setMreg r v).freeCtr = s.freeCtr := rfl
@[simp] theorem State.setMreg_uid (r : MReg) (v : BitVec 64) : (s.setMreg r v).uid = s.uid := rfl
@[simp] theorem State.setMreg_clock (r : MReg) (v : BitVec 64) : (s.setMreg r v).clock = s.clock := rfl
@[simp] theorem State.setMreg_keys (r : MReg) (v : BitVec 64) : (s.setMreg r v).keys = s.keys := rfl
@[simp] theorem State.setMreg_recs (r : MReg) (v : BitVec 64) : (s.setMreg r v).recs = s.recs := rfl
@[simp] theorem State.setMreg_msix (r : MReg) (v : BitVec 64) : (s.setMreg r v).msix = s.msix := rfl
@[simp] theorem State.setMreg_seqIo (r : MReg) (v : BitVec 64) : (s.setMreg r v).seqIo = s.seqIo := rfl
@[simp] theorem State.setMreg_spWatch (r : MReg) (v : BitVec 64) : (s.setMreg r v).spWatch = s.spWatch := rfl
@[simp] theorem State.setMreg_nvme (r : MReg) (v : BitVec 64) : (s.setMreg r v).nvme = s.nvme := rfl
@[simp] theorem State.setMreg_routing (r : MReg) (v : BitVec 64) : (s.setMreg r v).routing = s.routing := rfl
@[simp] theorem State.setMreg_nsbClear (r : MReg) (v : BitVec 64) : (s.setMreg r v).nsbClear = s.nsbClear := rfl
@[simp] theorem State.setMreg_skims (r : MReg) (v : BitVec 64) : (s.setMreg r v).skims = s.skims := rfl
@[simp] theorem State.setMreg_hostWait (r : MReg) (v : BitVec 64) : (s.setMreg r v).hostWait = s.hostWait := rfl
@[simp] theorem State.setMreg_devWait (r : MReg) (v : BitVec 64) : (s.setMreg r v).devWait = s.devWait := rfl
@[simp] theorem State.setMreg_inflight (r : MReg) (v : BitVec 64) : (s.setMreg r v).inflight = s.inflight := rfl
@[simp] theorem State.setMreg_errs (r : MReg) (v : BitVec 64) : (s.setMreg r v).errs = s.errs := rfl
@[simp] theorem State.setMreg_hostVec (r : MReg) (v : BitVec 64) : (s.setMreg r v).hostVec = s.hostVec := rfl
@[simp] theorem State.setMreg_hostSeen (r : MReg) (v : BitVec 64) : (s.setMreg r v).hostSeen = s.hostSeen := rfl
@[simp] theorem State.setMreg_hostGot (r : MReg) (v : BitVec 64) : (s.setMreg r v).hostGot = s.hostGot := rfl
@[simp] theorem State.setMreg_dies (r : MReg) (v : BitVec 64) : (s.setMreg r v).dies = s.dies := rfl
@[simp] theorem State.setMreg_cores (r : MReg) (v : BitVec 64) : (s.setMreg r v).cores = s.cores := rfl
@[simp] theorem State.setMreg_lqs (r : MReg) (v : BitVec 64) : (s.setMreg r v).lqs = s.lqs := rfl
@[simp] theorem State.setMreg_grids (r : MReg) (v : BitVec 64) : (s.setMreg r v).grids = s.grids := rfl
@[simp] theorem State.setMreg_gangs (r : MReg) (v : BitVec 64) : (s.setMreg r v).gangs = s.gangs := rfl
@[simp] theorem State.setMreg_groups (r : MReg) (v : BitVec 64) : (s.setMreg r v).groups = s.groups := rfl
@[simp] theorem State.setMreg_warps (r : MReg) (v : BitVec 64) : (s.setMreg r v).warps = s.warps := rfl
@[simp] theorem State.setMreg_lanes (r : MReg) (v : BitVec 64) : (s.setMreg r v).lanes = s.lanes := rfl
@[simp] theorem State.setMreg_mregs (r : MReg) (v : BitVec 64) : (s.setMreg r v).mregs = mset s.mregs r v := rfl
@[simp] theorem State.mreg_setMreg_same (r : MReg) (v : BitVec 64) : (s.setMreg r v).mreg r = v := by simp [State.mreg, State.setMreg]
theorem State.mreg_setMreg_ne (r : MReg) (v : BitVec 64) {j : MReg} (h : j ≠ r) : (s.setMreg r v).mreg j = s.mreg j := mget_mset_ne _ _ _ h
@[simp] theorem State.setMreg_setMreg (r : MReg) (v : BitVec 64) (w : BitVec 64) : (s.setMreg r v).setMreg r w = s.setMreg r w := by simp [State.setMreg]
@[simp] theorem State.die_setMreg (r : MReg) (v : BitVec 64) (j : Nat) : (s.setMreg r v).die j = s.die j := rfl
@[simp] theorem State.core_setMreg (r : MReg) (v : BitVec 64) (j : Nat) : (s.setMreg r v).core j = s.core j := rfl
@[simp] theorem State.grid_setMreg (r : MReg) (v : BitVec 64) (j : Nat) : (s.setMreg r v).grid? j = s.grid? j := rfl
@[simp] theorem State.gang_setMreg (r : MReg) (v : BitVec 64) (j : Nat) : (s.setMreg r v).gang? j = s.gang? j := rfl
@[simp] theorem State.group_setMreg (r : MReg) (v : BitVec 64) (j : GroupId) : (s.setMreg r v).group? j = s.group? j := rfl
@[simp] theorem State.warp_setMreg (r : MReg) (v : BitVec 64) (j : WarpId) : (s.setMreg r v).warp? j = s.warp? j := rfl
@[simp] theorem State.lane_setMreg (r : MReg) (v : BitVec 64) (j : LaneId) : (s.setMreg r v).lane? j = s.lane? j := rfl

/-! ### State.setDie -/

@[simp] theorem State.setDie_agenda (d : Nat) (v : Die) : (s.setDie d v).agenda = s.agenda := rfl
@[simp] theorem State.setDie_forced (d : Nat) (v : Die) : (s.setDie d v).forced = s.forced := rfl
@[simp] theorem State.setDie_cur (d : Nat) (v : Die) : (s.setDie d v).cur = s.cur := rfl
@[simp] theorem State.setDie_blocked (d : Nat) (v : Die) : (s.setDie d v).blocked = s.blocked := rfl
@[simp] theorem State.setDie_shorts (d : Nat) (v : Die) : (s.setDie d v).shorts = s.shorts := rfl
@[simp] theorem State.setDie_met (d : Nat) (v : Die) : (s.setDie d v).met = s.met := rfl
@[simp] theorem State.setDie_freeCtr (d : Nat) (v : Die) : (s.setDie d v).freeCtr = s.freeCtr := rfl
@[simp] theorem State.setDie_uid (d : Nat) (v : Die) : (s.setDie d v).uid = s.uid := rfl
@[simp] theorem State.setDie_clock (d : Nat) (v : Die) : (s.setDie d v).clock = s.clock := rfl
@[simp] theorem State.setDie_mregs (d : Nat) (v : Die) : (s.setDie d v).mregs = s.mregs := rfl
@[simp] theorem State.setDie_keys (d : Nat) (v : Die) : (s.setDie d v).keys = s.keys := rfl
@[simp] theorem State.setDie_recs (d : Nat) (v : Die) : (s.setDie d v).recs = s.recs := rfl
@[simp] theorem State.setDie_msix (d : Nat) (v : Die) : (s.setDie d v).msix = s.msix := rfl
@[simp] theorem State.setDie_seqIo (d : Nat) (v : Die) : (s.setDie d v).seqIo = s.seqIo := rfl
@[simp] theorem State.setDie_spWatch (d : Nat) (v : Die) : (s.setDie d v).spWatch = s.spWatch := rfl
@[simp] theorem State.setDie_nvme (d : Nat) (v : Die) : (s.setDie d v).nvme = s.nvme := rfl
@[simp] theorem State.setDie_routing (d : Nat) (v : Die) : (s.setDie d v).routing = s.routing := rfl
@[simp] theorem State.setDie_nsbClear (d : Nat) (v : Die) : (s.setDie d v).nsbClear = s.nsbClear := rfl
@[simp] theorem State.setDie_skims (d : Nat) (v : Die) : (s.setDie d v).skims = s.skims := rfl
@[simp] theorem State.setDie_hostWait (d : Nat) (v : Die) : (s.setDie d v).hostWait = s.hostWait := rfl
@[simp] theorem State.setDie_devWait (d : Nat) (v : Die) : (s.setDie d v).devWait = s.devWait := rfl
@[simp] theorem State.setDie_inflight (d : Nat) (v : Die) : (s.setDie d v).inflight = s.inflight := rfl
@[simp] theorem State.setDie_errs (d : Nat) (v : Die) : (s.setDie d v).errs = s.errs := rfl
@[simp] theorem State.setDie_hostVec (d : Nat) (v : Die) : (s.setDie d v).hostVec = s.hostVec := rfl
@[simp] theorem State.setDie_hostSeen (d : Nat) (v : Die) : (s.setDie d v).hostSeen = s.hostSeen := rfl
@[simp] theorem State.setDie_hostGot (d : Nat) (v : Die) : (s.setDie d v).hostGot = s.hostGot := rfl
@[simp] theorem State.setDie_cores (d : Nat) (v : Die) : (s.setDie d v).cores = s.cores := rfl
@[simp] theorem State.setDie_lqs (d : Nat) (v : Die) : (s.setDie d v).lqs = s.lqs := rfl
@[simp] theorem State.setDie_grids (d : Nat) (v : Die) : (s.setDie d v).grids = s.grids := rfl
@[simp] theorem State.setDie_gangs (d : Nat) (v : Die) : (s.setDie d v).gangs = s.gangs := rfl
@[simp] theorem State.setDie_groups (d : Nat) (v : Die) : (s.setDie d v).groups = s.groups := rfl
@[simp] theorem State.setDie_warps (d : Nat) (v : Die) : (s.setDie d v).warps = s.warps := rfl
@[simp] theorem State.setDie_lanes (d : Nat) (v : Die) : (s.setDie d v).lanes = s.lanes := rfl
@[simp] theorem State.setDie_dies (d : Nat) (v : Die) : (s.setDie d v).dies = mset s.dies d v := rfl
@[simp] theorem State.mreg_setDie (d : Nat) (v : Die) (j : MReg) : (s.setDie d v).mreg j = s.mreg j := rfl
@[simp] theorem State.die_setDie_same (d : Nat) (v : Die) : (s.setDie d v).die d = v := by simp [State.die, State.setDie]
theorem State.die_setDie_ne (d : Nat) (v : Die) {j : Nat} (h : j ≠ d) : (s.setDie d v).die j = s.die j := mget_mset_ne _ _ _ h
@[simp] theorem State.setDie_setDie (d : Nat) (v : Die) (w : Die) : (s.setDie d v).setDie d w = s.setDie d w := by simp [State.setDie]
@[simp] theorem State.core_setDie (d : Nat) (v : Die) (j : Nat) : (s.setDie d v).core j = s.core j := rfl
@[simp] theorem State.grid_setDie (d : Nat) (v : Die) (j : Nat) : (s.setDie d v).grid? j = s.grid? j := rfl
@[simp] theorem State.gang_setDie (d : Nat) (v : Die) (j : Nat) : (s.setDie d v).gang? j = s.gang? j := rfl
@[simp] theorem State.group_setDie (d : Nat) (v : Die) (j : GroupId) : (s.setDie d v).group? j = s.group? j := rfl
@[simp] theorem State.warp_setDie (d : Nat) (v : Die) (j : WarpId) : (s.setDie d v).warp? j = s.warp? j := rfl
@[simp] theorem State.lane_setDie (d : Nat) (v : Die) (j : LaneId) : (s.setDie d v).lane? j = s.lane? j := rfl

/-! ### State.setCore -/

@[simp] theorem State.setCore_agenda (c : Nat) (v : Core) : (s.setCore c v).agenda = s.agenda := rfl
@[simp] theorem State.setCore_forced (c : Nat) (v : Core) : (s.setCore c v).forced = s.forced := rfl
@[simp] theorem State.setCore_cur (c : Nat) (v : Core) : (s.setCore c v).cur = s.cur := rfl
@[simp] theorem State.setCore_blocked (c : Nat) (v : Core) : (s.setCore c v).blocked = s.blocked := rfl
@[simp] theorem State.setCore_shorts (c : Nat) (v : Core) : (s.setCore c v).shorts = s.shorts := rfl
@[simp] theorem State.setCore_met (c : Nat) (v : Core) : (s.setCore c v).met = s.met := rfl
@[simp] theorem State.setCore_freeCtr (c : Nat) (v : Core) : (s.setCore c v).freeCtr = s.freeCtr := rfl
@[simp] theorem State.setCore_uid (c : Nat) (v : Core) : (s.setCore c v).uid = s.uid := rfl
@[simp] theorem State.setCore_clock (c : Nat) (v : Core) : (s.setCore c v).clock = s.clock := rfl
@[simp] theorem State.setCore_mregs (c : Nat) (v : Core) : (s.setCore c v).mregs = s.mregs := rfl
@[simp] theorem State.setCore_keys (c : Nat) (v : Core) : (s.setCore c v).keys = s.keys := rfl
@[simp] theorem State.setCore_recs (c : Nat) (v : Core) : (s.setCore c v).recs = s.recs := rfl
@[simp] theorem State.setCore_msix (c : Nat) (v : Core) : (s.setCore c v).msix = s.msix := rfl
@[simp] theorem State.setCore_seqIo (c : Nat) (v : Core) : (s.setCore c v).seqIo = s.seqIo := rfl
@[simp] theorem State.setCore_spWatch (c : Nat) (v : Core) : (s.setCore c v).spWatch = s.spWatch := rfl
@[simp] theorem State.setCore_nvme (c : Nat) (v : Core) : (s.setCore c v).nvme = s.nvme := rfl
@[simp] theorem State.setCore_routing (c : Nat) (v : Core) : (s.setCore c v).routing = s.routing := rfl
@[simp] theorem State.setCore_nsbClear (c : Nat) (v : Core) : (s.setCore c v).nsbClear = s.nsbClear := rfl
@[simp] theorem State.setCore_skims (c : Nat) (v : Core) : (s.setCore c v).skims = s.skims := rfl
@[simp] theorem State.setCore_hostWait (c : Nat) (v : Core) : (s.setCore c v).hostWait = s.hostWait := rfl
@[simp] theorem State.setCore_devWait (c : Nat) (v : Core) : (s.setCore c v).devWait = s.devWait := rfl
@[simp] theorem State.setCore_inflight (c : Nat) (v : Core) : (s.setCore c v).inflight = s.inflight := rfl
@[simp] theorem State.setCore_errs (c : Nat) (v : Core) : (s.setCore c v).errs = s.errs := rfl
@[simp] theorem State.setCore_hostVec (c : Nat) (v : Core) : (s.setCore c v).hostVec = s.hostVec := rfl
@[simp] theorem State.setCore_hostSeen (c : Nat) (v : Core) : (s.setCore c v).hostSeen = s.hostSeen := rfl
@[simp] theorem State.setCore_hostGot (c : Nat) (v : Core) : (s.setCore c v).hostGot = s.hostGot := rfl
@[simp] theorem State.setCore_dies (c : Nat) (v : Core) : (s.setCore c v).dies = s.dies := rfl
@[simp] theorem State.setCore_lqs (c : Nat) (v : Core) : (s.setCore c v).lqs = s.lqs := rfl
@[simp] theorem State.setCore_grids (c : Nat) (v : Core) : (s.setCore c v).grids = s.grids := rfl
@[simp] theorem State.setCore_gangs (c : Nat) (v : Core) : (s.setCore c v).gangs = s.gangs := rfl
@[simp] theorem State.setCore_groups (c : Nat) (v : Core) : (s.setCore c v).groups = s.groups := rfl
@[simp] theorem State.setCore_warps (c : Nat) (v : Core) : (s.setCore c v).warps = s.warps := rfl
@[simp] theorem State.setCore_lanes (c : Nat) (v : Core) : (s.setCore c v).lanes = s.lanes := rfl
@[simp] theorem State.setCore_cores (c : Nat) (v : Core) : (s.setCore c v).cores = mset s.cores c v := rfl
@[simp] theorem State.mreg_setCore (c : Nat) (v : Core) (j : MReg) : (s.setCore c v).mreg j = s.mreg j := rfl
@[simp] theorem State.die_setCore (c : Nat) (v : Core) (j : Nat) : (s.setCore c v).die j = s.die j := rfl
@[simp] theorem State.core_setCore_same (c : Nat) (v : Core) : (s.setCore c v).core c = v := by simp [State.core, State.setCore]
theorem State.core_setCore_ne (c : Nat) (v : Core) {j : Nat} (h : j ≠ c) : (s.setCore c v).core j = s.core j := mget_mset_ne _ _ _ h
@[simp] theorem State.setCore_setCore (c : Nat) (v : Core) (w : Core) : (s.setCore c v).setCore c w = s.setCore c w := by simp [State.setCore]
@[simp] theorem State.grid_setCore (c : Nat) (v : Core) (j : Nat) : (s.setCore c v).grid? j = s.grid? j := rfl
@[simp] theorem State.gang_setCore (c : Nat) (v : Core) (j : Nat) : (s.setCore c v).gang? j = s.gang? j := rfl
@[simp] theorem State.group_setCore (c : Nat) (v : Core) (j : GroupId) : (s.setCore c v).group? j = s.group? j := rfl
@[simp] theorem State.warp_setCore (c : Nat) (v : Core) (j : WarpId) : (s.setCore c v).warp? j = s.warp? j := rfl
@[simp] theorem State.lane_setCore (c : Nat) (v : Core) (j : LaneId) : (s.setCore c v).lane? j = s.lane? j := rfl

/-! ### State.setGrid -/

@[simp] theorem State.setGrid_agenda (k : Nat) (v : Grid) : (s.setGrid k v).agenda = s.agenda := rfl
@[simp] theorem State.setGrid_forced (k : Nat) (v : Grid) : (s.setGrid k v).forced = s.forced := rfl
@[simp] theorem State.setGrid_cur (k : Nat) (v : Grid) : (s.setGrid k v).cur = s.cur := rfl
@[simp] theorem State.setGrid_blocked (k : Nat) (v : Grid) : (s.setGrid k v).blocked = s.blocked := rfl
@[simp] theorem State.setGrid_shorts (k : Nat) (v : Grid) : (s.setGrid k v).shorts = s.shorts := rfl
@[simp] theorem State.setGrid_met (k : Nat) (v : Grid) : (s.setGrid k v).met = s.met := rfl
@[simp] theorem State.setGrid_freeCtr (k : Nat) (v : Grid) : (s.setGrid k v).freeCtr = s.freeCtr := rfl
@[simp] theorem State.setGrid_uid (k : Nat) (v : Grid) : (s.setGrid k v).uid = s.uid := rfl
@[simp] theorem State.setGrid_clock (k : Nat) (v : Grid) : (s.setGrid k v).clock = s.clock := rfl
@[simp] theorem State.setGrid_mregs (k : Nat) (v : Grid) : (s.setGrid k v).mregs = s.mregs := rfl
@[simp] theorem State.setGrid_keys (k : Nat) (v : Grid) : (s.setGrid k v).keys = s.keys := rfl
@[simp] theorem State.setGrid_recs (k : Nat) (v : Grid) : (s.setGrid k v).recs = s.recs := rfl
@[simp] theorem State.setGrid_msix (k : Nat) (v : Grid) : (s.setGrid k v).msix = s.msix := rfl
@[simp] theorem State.setGrid_seqIo (k : Nat) (v : Grid) : (s.setGrid k v).seqIo = s.seqIo := rfl
@[simp] theorem State.setGrid_spWatch (k : Nat) (v : Grid) : (s.setGrid k v).spWatch = s.spWatch := rfl
@[simp] theorem State.setGrid_nvme (k : Nat) (v : Grid) : (s.setGrid k v).nvme = s.nvme := rfl
@[simp] theorem State.setGrid_routing (k : Nat) (v : Grid) : (s.setGrid k v).routing = s.routing := rfl
@[simp] theorem State.setGrid_nsbClear (k : Nat) (v : Grid) : (s.setGrid k v).nsbClear = s.nsbClear := rfl
@[simp] theorem State.setGrid_skims (k : Nat) (v : Grid) : (s.setGrid k v).skims = s.skims := rfl
@[simp] theorem State.setGrid_hostWait (k : Nat) (v : Grid) : (s.setGrid k v).hostWait = s.hostWait := rfl
@[simp] theorem State.setGrid_devWait (k : Nat) (v : Grid) : (s.setGrid k v).devWait = s.devWait := rfl
@[simp] theorem State.setGrid_inflight (k : Nat) (v : Grid) : (s.setGrid k v).inflight = s.inflight := rfl
@[simp] theorem State.setGrid_errs (k : Nat) (v : Grid) : (s.setGrid k v).errs = s.errs := rfl
@[simp] theorem State.setGrid_hostVec (k : Nat) (v : Grid) : (s.setGrid k v).hostVec = s.hostVec := rfl
@[simp] theorem State.setGrid_hostSeen (k : Nat) (v : Grid) : (s.setGrid k v).hostSeen = s.hostSeen := rfl
@[simp] theorem State.setGrid_hostGot (k : Nat) (v : Grid) : (s.setGrid k v).hostGot = s.hostGot := rfl
@[simp] theorem State.setGrid_dies (k : Nat) (v : Grid) : (s.setGrid k v).dies = s.dies := rfl
@[simp] theorem State.setGrid_cores (k : Nat) (v : Grid) : (s.setGrid k v).cores = s.cores := rfl
@[simp] theorem State.setGrid_lqs (k : Nat) (v : Grid) : (s.setGrid k v).lqs = s.lqs := rfl
@[simp] theorem State.setGrid_gangs (k : Nat) (v : Grid) : (s.setGrid k v).gangs = s.gangs := rfl
@[simp] theorem State.setGrid_groups (k : Nat) (v : Grid) : (s.setGrid k v).groups = s.groups := rfl
@[simp] theorem State.setGrid_warps (k : Nat) (v : Grid) : (s.setGrid k v).warps = s.warps := rfl
@[simp] theorem State.setGrid_lanes (k : Nat) (v : Grid) : (s.setGrid k v).lanes = s.lanes := rfl
@[simp] theorem State.setGrid_grids (k : Nat) (v : Grid) : (s.setGrid k v).grids = mset s.grids k v := rfl
@[simp] theorem State.mreg_setGrid (k : Nat) (v : Grid) (j : MReg) : (s.setGrid k v).mreg j = s.mreg j := rfl
@[simp] theorem State.die_setGrid (k : Nat) (v : Grid) (j : Nat) : (s.setGrid k v).die j = s.die j := rfl
@[simp] theorem State.core_setGrid (k : Nat) (v : Grid) (j : Nat) : (s.setGrid k v).core j = s.core j := rfl
@[simp] theorem State.grid_setGrid_same (k : Nat) (v : Grid) : (s.setGrid k v).grid? k = some v := by simp [State.grid?, State.setGrid]
theorem State.grid_setGrid_ne (k : Nat) (v : Grid) {j : Nat} (h : j ≠ k) : (s.setGrid k v).grid? j = s.grid? j := mfind_mset_ne _ _ h
@[simp] theorem State.setGrid_setGrid (k : Nat) (v : Grid) (w : Grid) : (s.setGrid k v).setGrid k w = s.setGrid k w := by simp [State.setGrid]
@[simp] theorem State.gang_setGrid (k : Nat) (v : Grid) (j : Nat) : (s.setGrid k v).gang? j = s.gang? j := rfl
@[simp] theorem State.group_setGrid (k : Nat) (v : Grid) (j : GroupId) : (s.setGrid k v).group? j = s.group? j := rfl
@[simp] theorem State.warp_setGrid (k : Nat) (v : Grid) (j : WarpId) : (s.setGrid k v).warp? j = s.warp? j := rfl
@[simp] theorem State.lane_setGrid (k : Nat) (v : Grid) (j : LaneId) : (s.setGrid k v).lane? j = s.lane? j := rfl

/-! ### State.setGang -/

@[simp] theorem State.setGang_agenda (k : Nat) (v : Gang) : (s.setGang k v).agenda = s.agenda := rfl
@[simp] theorem State.setGang_forced (k : Nat) (v : Gang) : (s.setGang k v).forced = s.forced := rfl
@[simp] theorem State.setGang_cur (k : Nat) (v : Gang) : (s.setGang k v).cur = s.cur := rfl
@[simp] theorem State.setGang_blocked (k : Nat) (v : Gang) : (s.setGang k v).blocked = s.blocked := rfl
@[simp] theorem State.setGang_shorts (k : Nat) (v : Gang) : (s.setGang k v).shorts = s.shorts := rfl
@[simp] theorem State.setGang_met (k : Nat) (v : Gang) : (s.setGang k v).met = s.met := rfl
@[simp] theorem State.setGang_freeCtr (k : Nat) (v : Gang) : (s.setGang k v).freeCtr = s.freeCtr := rfl
@[simp] theorem State.setGang_uid (k : Nat) (v : Gang) : (s.setGang k v).uid = s.uid := rfl
@[simp] theorem State.setGang_clock (k : Nat) (v : Gang) : (s.setGang k v).clock = s.clock := rfl
@[simp] theorem State.setGang_mregs (k : Nat) (v : Gang) : (s.setGang k v).mregs = s.mregs := rfl
@[simp] theorem State.setGang_keys (k : Nat) (v : Gang) : (s.setGang k v).keys = s.keys := rfl
@[simp] theorem State.setGang_recs (k : Nat) (v : Gang) : (s.setGang k v).recs = s.recs := rfl
@[simp] theorem State.setGang_msix (k : Nat) (v : Gang) : (s.setGang k v).msix = s.msix := rfl
@[simp] theorem State.setGang_seqIo (k : Nat) (v : Gang) : (s.setGang k v).seqIo = s.seqIo := rfl
@[simp] theorem State.setGang_spWatch (k : Nat) (v : Gang) : (s.setGang k v).spWatch = s.spWatch := rfl
@[simp] theorem State.setGang_nvme (k : Nat) (v : Gang) : (s.setGang k v).nvme = s.nvme := rfl
@[simp] theorem State.setGang_routing (k : Nat) (v : Gang) : (s.setGang k v).routing = s.routing := rfl
@[simp] theorem State.setGang_nsbClear (k : Nat) (v : Gang) : (s.setGang k v).nsbClear = s.nsbClear := rfl
@[simp] theorem State.setGang_skims (k : Nat) (v : Gang) : (s.setGang k v).skims = s.skims := rfl
@[simp] theorem State.setGang_hostWait (k : Nat) (v : Gang) : (s.setGang k v).hostWait = s.hostWait := rfl
@[simp] theorem State.setGang_devWait (k : Nat) (v : Gang) : (s.setGang k v).devWait = s.devWait := rfl
@[simp] theorem State.setGang_inflight (k : Nat) (v : Gang) : (s.setGang k v).inflight = s.inflight := rfl
@[simp] theorem State.setGang_errs (k : Nat) (v : Gang) : (s.setGang k v).errs = s.errs := rfl
@[simp] theorem State.setGang_hostVec (k : Nat) (v : Gang) : (s.setGang k v).hostVec = s.hostVec := rfl
@[simp] theorem State.setGang_hostSeen (k : Nat) (v : Gang) : (s.setGang k v).hostSeen = s.hostSeen := rfl
@[simp] theorem State.setGang_hostGot (k : Nat) (v : Gang) : (s.setGang k v).hostGot = s.hostGot := rfl
@[simp] theorem State.setGang_dies (k : Nat) (v : Gang) : (s.setGang k v).dies = s.dies := rfl
@[simp] theorem State.setGang_cores (k : Nat) (v : Gang) : (s.setGang k v).cores = s.cores := rfl
@[simp] theorem State.setGang_lqs (k : Nat) (v : Gang) : (s.setGang k v).lqs = s.lqs := rfl
@[simp] theorem State.setGang_grids (k : Nat) (v : Gang) : (s.setGang k v).grids = s.grids := rfl
@[simp] theorem State.setGang_groups (k : Nat) (v : Gang) : (s.setGang k v).groups = s.groups := rfl
@[simp] theorem State.setGang_warps (k : Nat) (v : Gang) : (s.setGang k v).warps = s.warps := rfl
@[simp] theorem State.setGang_lanes (k : Nat) (v : Gang) : (s.setGang k v).lanes = s.lanes := rfl
@[simp] theorem State.setGang_gangs (k : Nat) (v : Gang) : (s.setGang k v).gangs = mset s.gangs k v := rfl
@[simp] theorem State.mreg_setGang (k : Nat) (v : Gang) (j : MReg) : (s.setGang k v).mreg j = s.mreg j := rfl
@[simp] theorem State.die_setGang (k : Nat) (v : Gang) (j : Nat) : (s.setGang k v).die j = s.die j := rfl
@[simp] theorem State.core_setGang (k : Nat) (v : Gang) (j : Nat) : (s.setGang k v).core j = s.core j := rfl
@[simp] theorem State.grid_setGang (k : Nat) (v : Gang) (j : Nat) : (s.setGang k v).grid? j = s.grid? j := rfl
@[simp] theorem State.gang_setGang_same (k : Nat) (v : Gang) : (s.setGang k v).gang? k = some v := by simp [State.gang?, State.setGang]
theorem State.gang_setGang_ne (k : Nat) (v : Gang) {j : Nat} (h : j ≠ k) : (s.setGang k v).gang? j = s.gang? j := mfind_mset_ne _ _ h
@[simp] theorem State.setGang_setGang (k : Nat) (v : Gang) (w : Gang) : (s.setGang k v).setGang k w = s.setGang k w := by simp [State.setGang]
@[simp] theorem State.group_setGang (k : Nat) (v : Gang) (j : GroupId) : (s.setGang k v).group? j = s.group? j := rfl
@[simp] theorem State.warp_setGang (k : Nat) (v : Gang) (j : WarpId) : (s.setGang k v).warp? j = s.warp? j := rfl
@[simp] theorem State.lane_setGang (k : Nat) (v : Gang) (j : LaneId) : (s.setGang k v).lane? j = s.lane? j := rfl

/-! ### State.setGroup -/

@[simp] theorem State.setGroup_agenda (k : GroupId) (v : Group) : (s.setGroup k v).agenda = s.agenda := rfl
@[simp] theorem State.setGroup_forced (k : GroupId) (v : Group) : (s.setGroup k v).forced = s.forced := rfl
@[simp] theorem State.setGroup_cur (k : GroupId) (v : Group) : (s.setGroup k v).cur = s.cur := rfl
@[simp] theorem State.setGroup_blocked (k : GroupId) (v : Group) : (s.setGroup k v).blocked = s.blocked := rfl
@[simp] theorem State.setGroup_shorts (k : GroupId) (v : Group) : (s.setGroup k v).shorts = s.shorts := rfl
@[simp] theorem State.setGroup_met (k : GroupId) (v : Group) : (s.setGroup k v).met = s.met := rfl
@[simp] theorem State.setGroup_freeCtr (k : GroupId) (v : Group) : (s.setGroup k v).freeCtr = s.freeCtr := rfl
@[simp] theorem State.setGroup_uid (k : GroupId) (v : Group) : (s.setGroup k v).uid = s.uid := rfl
@[simp] theorem State.setGroup_clock (k : GroupId) (v : Group) : (s.setGroup k v).clock = s.clock := rfl
@[simp] theorem State.setGroup_mregs (k : GroupId) (v : Group) : (s.setGroup k v).mregs = s.mregs := rfl
@[simp] theorem State.setGroup_keys (k : GroupId) (v : Group) : (s.setGroup k v).keys = s.keys := rfl
@[simp] theorem State.setGroup_recs (k : GroupId) (v : Group) : (s.setGroup k v).recs = s.recs := rfl
@[simp] theorem State.setGroup_msix (k : GroupId) (v : Group) : (s.setGroup k v).msix = s.msix := rfl
@[simp] theorem State.setGroup_seqIo (k : GroupId) (v : Group) : (s.setGroup k v).seqIo = s.seqIo := rfl
@[simp] theorem State.setGroup_spWatch (k : GroupId) (v : Group) : (s.setGroup k v).spWatch = s.spWatch := rfl
@[simp] theorem State.setGroup_nvme (k : GroupId) (v : Group) : (s.setGroup k v).nvme = s.nvme := rfl
@[simp] theorem State.setGroup_routing (k : GroupId) (v : Group) : (s.setGroup k v).routing = s.routing := rfl
@[simp] theorem State.setGroup_nsbClear (k : GroupId) (v : Group) : (s.setGroup k v).nsbClear = s.nsbClear := rfl
@[simp] theorem State.setGroup_skims (k : GroupId) (v : Group) : (s.setGroup k v).skims = s.skims := rfl
@[simp] theorem State.setGroup_hostWait (k : GroupId) (v : Group) : (s.setGroup k v).hostWait = s.hostWait := rfl
@[simp] theorem State.setGroup_devWait (k : GroupId) (v : Group) : (s.setGroup k v).devWait = s.devWait := rfl
@[simp] theorem State.setGroup_inflight (k : GroupId) (v : Group) : (s.setGroup k v).inflight = s.inflight := rfl
@[simp] theorem State.setGroup_errs (k : GroupId) (v : Group) : (s.setGroup k v).errs = s.errs := rfl
@[simp] theorem State.setGroup_hostVec (k : GroupId) (v : Group) : (s.setGroup k v).hostVec = s.hostVec := rfl
@[simp] theorem State.setGroup_hostSeen (k : GroupId) (v : Group) : (s.setGroup k v).hostSeen = s.hostSeen := rfl
@[simp] theorem State.setGroup_hostGot (k : GroupId) (v : Group) : (s.setGroup k v).hostGot = s.hostGot := rfl
@[simp] theorem State.setGroup_dies (k : GroupId) (v : Group) : (s.setGroup k v).dies = s.dies := rfl
@[simp] theorem State.setGroup_cores (k : GroupId) (v : Group) : (s.setGroup k v).cores = s.cores := rfl
@[simp] theorem State.setGroup_lqs (k : GroupId) (v : Group) : (s.setGroup k v).lqs = s.lqs := rfl
@[simp] theorem State.setGroup_grids (k : GroupId) (v : Group) : (s.setGroup k v).grids = s.grids := rfl
@[simp] theorem State.setGroup_gangs (k : GroupId) (v : Group) : (s.setGroup k v).gangs = s.gangs := rfl
@[simp] theorem State.setGroup_warps (k : GroupId) (v : Group) : (s.setGroup k v).warps = s.warps := rfl
@[simp] theorem State.setGroup_lanes (k : GroupId) (v : Group) : (s.setGroup k v).lanes = s.lanes := rfl
@[simp] theorem State.setGroup_groups (k : GroupId) (v : Group) : (s.setGroup k v).groups = mset s.groups k v := rfl
@[simp] theorem State.mreg_setGroup (k : GroupId) (v : Group) (j : MReg) : (s.setGroup k v).mreg j = s.mreg j := rfl
@[simp] theorem State.die_setGroup (k : GroupId) (v : Group) (j : Nat) : (s.setGroup k v).die j = s.die j := rfl
@[simp] theorem State.core_setGroup (k : GroupId) (v : Group) (j : Nat) : (s.setGroup k v).core j = s.core j := rfl
@[simp] theorem State.grid_setGroup (k : GroupId) (v : Group) (j : Nat) : (s.setGroup k v).grid? j = s.grid? j := rfl
@[simp] theorem State.gang_setGroup (k : GroupId) (v : Group) (j : Nat) : (s.setGroup k v).gang? j = s.gang? j := rfl
@[simp] theorem State.group_setGroup_same (k : GroupId) (v : Group) : (s.setGroup k v).group? k = some v := by simp [State.group?, State.setGroup]
theorem State.group_setGroup_ne (k : GroupId) (v : Group) {j : GroupId} (h : j ≠ k) : (s.setGroup k v).group? j = s.group? j := mfind_mset_ne _ _ h
@[simp] theorem State.setGroup_setGroup (k : GroupId) (v : Group) (w : Group) : (s.setGroup k v).setGroup k w = s.setGroup k w := by simp [State.setGroup]
@[simp] theorem State.warp_setGroup (k : GroupId) (v : Group) (j : WarpId) : (s.setGroup k v).warp? j = s.warp? j := rfl
@[simp] theorem State.lane_setGroup (k : GroupId) (v : Group) (j : LaneId) : (s.setGroup k v).lane? j = s.lane? j := rfl

/-! ### State.setWarp -/

@[simp] theorem State.setWarp_agenda (k : WarpId) (v : Warp) : (s.setWarp k v).agenda = s.agenda := rfl
@[simp] theorem State.setWarp_forced (k : WarpId) (v : Warp) : (s.setWarp k v).forced = s.forced := rfl
@[simp] theorem State.setWarp_cur (k : WarpId) (v : Warp) : (s.setWarp k v).cur = s.cur := rfl
@[simp] theorem State.setWarp_blocked (k : WarpId) (v : Warp) : (s.setWarp k v).blocked = s.blocked := rfl
@[simp] theorem State.setWarp_shorts (k : WarpId) (v : Warp) : (s.setWarp k v).shorts = s.shorts := rfl
@[simp] theorem State.setWarp_met (k : WarpId) (v : Warp) : (s.setWarp k v).met = s.met := rfl
@[simp] theorem State.setWarp_freeCtr (k : WarpId) (v : Warp) : (s.setWarp k v).freeCtr = s.freeCtr := rfl
@[simp] theorem State.setWarp_uid (k : WarpId) (v : Warp) : (s.setWarp k v).uid = s.uid := rfl
@[simp] theorem State.setWarp_clock (k : WarpId) (v : Warp) : (s.setWarp k v).clock = s.clock := rfl
@[simp] theorem State.setWarp_mregs (k : WarpId) (v : Warp) : (s.setWarp k v).mregs = s.mregs := rfl
@[simp] theorem State.setWarp_keys (k : WarpId) (v : Warp) : (s.setWarp k v).keys = s.keys := rfl
@[simp] theorem State.setWarp_recs (k : WarpId) (v : Warp) : (s.setWarp k v).recs = s.recs := rfl
@[simp] theorem State.setWarp_msix (k : WarpId) (v : Warp) : (s.setWarp k v).msix = s.msix := rfl
@[simp] theorem State.setWarp_seqIo (k : WarpId) (v : Warp) : (s.setWarp k v).seqIo = s.seqIo := rfl
@[simp] theorem State.setWarp_spWatch (k : WarpId) (v : Warp) : (s.setWarp k v).spWatch = s.spWatch := rfl
@[simp] theorem State.setWarp_nvme (k : WarpId) (v : Warp) : (s.setWarp k v).nvme = s.nvme := rfl
@[simp] theorem State.setWarp_routing (k : WarpId) (v : Warp) : (s.setWarp k v).routing = s.routing := rfl
@[simp] theorem State.setWarp_nsbClear (k : WarpId) (v : Warp) : (s.setWarp k v).nsbClear = s.nsbClear := rfl
@[simp] theorem State.setWarp_skims (k : WarpId) (v : Warp) : (s.setWarp k v).skims = s.skims := rfl
@[simp] theorem State.setWarp_hostWait (k : WarpId) (v : Warp) : (s.setWarp k v).hostWait = s.hostWait := rfl
@[simp] theorem State.setWarp_devWait (k : WarpId) (v : Warp) : (s.setWarp k v).devWait = s.devWait := rfl
@[simp] theorem State.setWarp_inflight (k : WarpId) (v : Warp) : (s.setWarp k v).inflight = s.inflight := rfl
@[simp] theorem State.setWarp_errs (k : WarpId) (v : Warp) : (s.setWarp k v).errs = s.errs := rfl
@[simp] theorem State.setWarp_hostVec (k : WarpId) (v : Warp) : (s.setWarp k v).hostVec = s.hostVec := rfl
@[simp] theorem State.setWarp_hostSeen (k : WarpId) (v : Warp) : (s.setWarp k v).hostSeen = s.hostSeen := rfl
@[simp] theorem State.setWarp_hostGot (k : WarpId) (v : Warp) : (s.setWarp k v).hostGot = s.hostGot := rfl
@[simp] theorem State.setWarp_dies (k : WarpId) (v : Warp) : (s.setWarp k v).dies = s.dies := rfl
@[simp] theorem State.setWarp_cores (k : WarpId) (v : Warp) : (s.setWarp k v).cores = s.cores := rfl
@[simp] theorem State.setWarp_lqs (k : WarpId) (v : Warp) : (s.setWarp k v).lqs = s.lqs := rfl
@[simp] theorem State.setWarp_grids (k : WarpId) (v : Warp) : (s.setWarp k v).grids = s.grids := rfl
@[simp] theorem State.setWarp_gangs (k : WarpId) (v : Warp) : (s.setWarp k v).gangs = s.gangs := rfl
@[simp] theorem State.setWarp_groups (k : WarpId) (v : Warp) : (s.setWarp k v).groups = s.groups := rfl
@[simp] theorem State.setWarp_lanes (k : WarpId) (v : Warp) : (s.setWarp k v).lanes = s.lanes := rfl
@[simp] theorem State.setWarp_warps (k : WarpId) (v : Warp) : (s.setWarp k v).warps = mset s.warps k v := rfl
@[simp] theorem State.mreg_setWarp (k : WarpId) (v : Warp) (j : MReg) : (s.setWarp k v).mreg j = s.mreg j := rfl
@[simp] theorem State.die_setWarp (k : WarpId) (v : Warp) (j : Nat) : (s.setWarp k v).die j = s.die j := rfl
@[simp] theorem State.core_setWarp (k : WarpId) (v : Warp) (j : Nat) : (s.setWarp k v).core j = s.core j := rfl
@[simp] theorem State.grid_setWarp (k : WarpId) (v : Warp) (j : Nat) : (s.setWarp k v).grid? j = s.grid? j := rfl
@[simp] theorem State.gang_setWarp (k : WarpId) (v : Warp) (j : Nat) : (s.setWarp k v).gang? j = s.gang? j := rfl
@[simp] theorem State.group_setWarp (k : WarpId) (v : Warp) (j : GroupId) : (s.setWarp k v).group? j = s.group? j := rfl
@[simp] theorem State.warp_setWarp_same (k : WarpId) (v : Warp) : (s.setWarp k v).warp? k = some v := by simp [State.warp?, State.setWarp]
theorem State.warp_setWarp_ne (k : WarpId) (v : Warp) {j : WarpId} (h : j ≠ k) : (s.setWarp k v).warp? j = s.warp? j := mfind_mset_ne _ _ h
@[simp] theorem State.setWarp_setWarp (k : WarpId) (v : Warp) (w : Warp) : (s.setWarp k v).setWarp k w = s.setWarp k w := by simp [State.setWarp]
@[simp] theorem State.lane_setWarp (k : WarpId) (v : Warp) (j : LaneId) : (s.setWarp k v).lane? j = s.lane? j := rfl

/-! ### State.setLane -/

@[simp] theorem State.setLane_agenda (k : LaneId) (v : Lane) : (s.setLane k v).agenda = s.agenda := rfl
@[simp] theorem State.setLane_forced (k : LaneId) (v : Lane) : (s.setLane k v).forced = s.forced := rfl
@[simp] theorem State.setLane_cur (k : LaneId) (v : Lane) : (s.setLane k v).cur = s.cur := rfl
@[simp] theorem State.setLane_blocked (k : LaneId) (v : Lane) : (s.setLane k v).blocked = s.blocked := rfl
@[simp] theorem State.setLane_shorts (k : LaneId) (v : Lane) : (s.setLane k v).shorts = s.shorts := rfl
@[simp] theorem State.setLane_met (k : LaneId) (v : Lane) : (s.setLane k v).met = s.met := rfl
@[simp] theorem State.setLane_freeCtr (k : LaneId) (v : Lane) : (s.setLane k v).freeCtr = s.freeCtr := rfl
@[simp] theorem State.setLane_uid (k : LaneId) (v : Lane) : (s.setLane k v).uid = s.uid := rfl
@[simp] theorem State.setLane_clock (k : LaneId) (v : Lane) : (s.setLane k v).clock = s.clock := rfl
@[simp] theorem State.setLane_mregs (k : LaneId) (v : Lane) : (s.setLane k v).mregs = s.mregs := rfl
@[simp] theorem State.setLane_keys (k : LaneId) (v : Lane) : (s.setLane k v).keys = s.keys := rfl
@[simp] theorem State.setLane_recs (k : LaneId) (v : Lane) : (s.setLane k v).recs = s.recs := rfl
@[simp] theorem State.setLane_msix (k : LaneId) (v : Lane) : (s.setLane k v).msix = s.msix := rfl
@[simp] theorem State.setLane_seqIo (k : LaneId) (v : Lane) : (s.setLane k v).seqIo = s.seqIo := rfl
@[simp] theorem State.setLane_spWatch (k : LaneId) (v : Lane) : (s.setLane k v).spWatch = s.spWatch := rfl
@[simp] theorem State.setLane_nvme (k : LaneId) (v : Lane) : (s.setLane k v).nvme = s.nvme := rfl
@[simp] theorem State.setLane_routing (k : LaneId) (v : Lane) : (s.setLane k v).routing = s.routing := rfl
@[simp] theorem State.setLane_nsbClear (k : LaneId) (v : Lane) : (s.setLane k v).nsbClear = s.nsbClear := rfl
@[simp] theorem State.setLane_skims (k : LaneId) (v : Lane) : (s.setLane k v).skims = s.skims := rfl
@[simp] theorem State.setLane_hostWait (k : LaneId) (v : Lane) : (s.setLane k v).hostWait = s.hostWait := rfl
@[simp] theorem State.setLane_devWait (k : LaneId) (v : Lane) : (s.setLane k v).devWait = s.devWait := rfl
@[simp] theorem State.setLane_inflight (k : LaneId) (v : Lane) : (s.setLane k v).inflight = s.inflight := rfl
@[simp] theorem State.setLane_errs (k : LaneId) (v : Lane) : (s.setLane k v).errs = s.errs := rfl
@[simp] theorem State.setLane_hostVec (k : LaneId) (v : Lane) : (s.setLane k v).hostVec = s.hostVec := rfl
@[simp] theorem State.setLane_hostSeen (k : LaneId) (v : Lane) : (s.setLane k v).hostSeen = s.hostSeen := rfl
@[simp] theorem State.setLane_hostGot (k : LaneId) (v : Lane) : (s.setLane k v).hostGot = s.hostGot := rfl
@[simp] theorem State.setLane_dies (k : LaneId) (v : Lane) : (s.setLane k v).dies = s.dies := rfl
@[simp] theorem State.setLane_cores (k : LaneId) (v : Lane) : (s.setLane k v).cores = s.cores := rfl
@[simp] theorem State.setLane_lqs (k : LaneId) (v : Lane) : (s.setLane k v).lqs = s.lqs := rfl
@[simp] theorem State.setLane_grids (k : LaneId) (v : Lane) : (s.setLane k v).grids = s.grids := rfl
@[simp] theorem State.setLane_gangs (k : LaneId) (v : Lane) : (s.setLane k v).gangs = s.gangs := rfl
@[simp] theorem State.setLane_groups (k : LaneId) (v : Lane) : (s.setLane k v).groups = s.groups := rfl
@[simp] theorem State.setLane_warps (k : LaneId) (v : Lane) : (s.setLane k v).warps = s.warps := rfl
@[simp] theorem State.setLane_lanes (k : LaneId) (v : Lane) : (s.setLane k v).lanes = mset s.lanes k v := rfl
@[simp] theorem State.mreg_setLane (k : LaneId) (v : Lane) (j : MReg) : (s.setLane k v).mreg j = s.mreg j := rfl
@[simp] theorem State.die_setLane (k : LaneId) (v : Lane) (j : Nat) : (s.setLane k v).die j = s.die j := rfl
@[simp] theorem State.core_setLane (k : LaneId) (v : Lane) (j : Nat) : (s.setLane k v).core j = s.core j := rfl
@[simp] theorem State.grid_setLane (k : LaneId) (v : Lane) (j : Nat) : (s.setLane k v).grid? j = s.grid? j := rfl
@[simp] theorem State.gang_setLane (k : LaneId) (v : Lane) (j : Nat) : (s.setLane k v).gang? j = s.gang? j := rfl
@[simp] theorem State.group_setLane (k : LaneId) (v : Lane) (j : GroupId) : (s.setLane k v).group? j = s.group? j := rfl
@[simp] theorem State.warp_setLane (k : LaneId) (v : Lane) (j : WarpId) : (s.setLane k v).warp? j = s.warp? j := rfl
@[simp] theorem State.lane_setLane_same (k : LaneId) (v : Lane) : (s.setLane k v).lane? k = some v := by simp [State.lane?, State.setLane]
theorem State.lane_setLane_ne (k : LaneId) (v : Lane) {j : LaneId} (h : j ≠ k) : (s.setLane k v).lane? j = s.lane? j := mfind_mset_ne _ _ h
@[simp] theorem State.setLane_setLane (k : LaneId) (v : Lane) (w : Lane) : (s.setLane k v).setLane k w = s.setLane k w := by simp [State.setLane]

end Sys2Proof.Machine
end

