-- ==== Sys2Proof/Laws/Lane.lean ====
section
/-! SUPPORT. What each operation on one lane leaves: the register fills of spec/01 R13, the flags of spec/04 R106, the end check of spec/05
R130 and the moves built on them. -/

namespace Sys2Proof.Machine

variable (l : Lane)

/-! ### Lane.setReg and Lane.emptyReg (spec/01 R13) -/

@[simp] theorem Lane.setReg_pc (n : Nat) (v : Word) : (l.setReg n v).pc = l.pc := rfl
@[simp] theorem Lane.setReg_lc (n : Nat) (v : Word) : (l.setReg n v).lc = l.lc := rfl
@[simp] theorem Lane.setReg_loops (n : Nat) (v : Word) : (l.setReg n v).loops = l.loops := rfl
@[simp] theorem Lane.setReg_fflags (n : Nat) (v : Word) : (l.setReg n v).fflags = l.fflags := rfl
@[simp] theorem Lane.setReg_rm (n : Nat) (v : Word) : (l.setReg n v).rm = l.rm := rfl
@[simp] theorem Lane.setReg_te (n : Nat) (v : Word) : (l.setReg n v).te = l.te := rfl
@[simp] theorem Lane.setReg_tsUser (n : Nat) (v : Word) : (l.setReg n v).tsUser = l.tsUser := rfl
@[simp] theorem Lane.setReg_tsKill (n : Nat) (v : Word) : (l.setReg n v).tsKill = l.tsKill := rfl
@[simp] theorem Lane.setReg_tsCode (n : Nat) (v : Word) : (l.setReg n v).tsCode = l.tsCode := rfl
@[simp] theorem Lane.setReg_st (n : Nat) (v : Word) : (l.setReg n v).st = l.st := rfl
@[simp] theorem Lane.setReg_priv (n : Nat) (v : Word) : (l.setReg n v).priv = l.priv := rfl
@[simp] theorem Lane.setReg_triggered (n : Nat) (v : Word) : (l.setReg n v).triggered = l.triggered := rfl
@[simp] theorem Lane.setReg_trigDue (n : Nat) (v : Word) : (l.setReg n v).trigDue = l.trigDue := rfl
@[simp] theorem Lane.setReg_spec (n : Nat) (v : Word) : (l.setReg n v).spec = l.spec := rfl
@[simp] theorem Lane.setReg_hx (n : Nat) (v : Word) : (l.setReg n v).hx = l.hx := rfl
@[simp] theorem Lane.setReg_xout (n : Nat) (v : Word) : (l.setReg n v).xout = l.xout := rfl
@[simp] theorem Lane.setReg_pend (n : Nat) (v : Word) : (l.setReg n v).pend = l.pend := rfl
@[simp] theorem Lane.setReg_mon (n : Nat) (v : Word) : (l.setReg n v).mon = l.mon := rfl
@[simp] theorem Lane.setReg_cq (n : Nat) (v : Word) : (l.setReg n v).cq = l.cq := rfl
@[simp] theorem Lane.setReg_owed (n : Nat) (v : Word) : (l.setReg n v).owed = l.owed := rfl
@[simp] theorem Lane.setReg_owedBad (n : Nat) (v : Word) : (l.setReg n v).owedBad = l.owedBad := rfl
@[simp] theorem Lane.setReg_stopped (n : Nat) (v : Word) : (l.setReg n v).stopped = l.stopped := rfl
@[simp] theorem Lane.setReg_stepping (n : Nat) (v : Word) : (l.setReg n v).stepping = l.stepping := rfl
@[simp] theorem Lane.setReg_stepTrap (n : Nat) (v : Word) : (l.setReg n v).stepTrap = l.stepTrap := rfl
@[simp] theorem Lane.setReg_stepDue (n : Nat) (v : Word) : (l.setReg n v).stepDue = l.stepDue := rfl
@[simp] theorem Lane.setReg_cmpSkip (n : Nat) (v : Word) : (l.setReg n v).cmpSkip = l.cmpSkip := rfl
@[simp] theorem Lane.setReg_since (n : Nat) (v : Word) : (l.setReg n v).since = l.since := rfl
@[simp] theorem Lane.setReg_token (n : Nat) (v : Word) : (l.setReg n v).token = l.token := rfl
@[simp] theorem Lane.emptyReg_pc (n : Nat) : (l.emptyReg n).pc = l.pc := rfl
@[simp] theorem Lane.emptyReg_lc (n : Nat) : (l.emptyReg n).lc = l.lc := rfl
@[simp] theorem Lane.emptyReg_loops (n : Nat) : (l.emptyReg n).loops = l.loops := rfl
@[simp] theorem Lane.emptyReg_fflags (n : Nat) : (l.emptyReg n).fflags = l.fflags := rfl
@[simp] theorem Lane.emptyReg_rm (n : Nat) : (l.emptyReg n).rm = l.rm := rfl
@[simp] theorem Lane.emptyReg_te (n : Nat) : (l.emptyReg n).te = l.te := rfl
@[simp] theorem Lane.emptyReg_tsUser (n : Nat) : (l.emptyReg n).tsUser = l.tsUser := rfl
@[simp] theorem Lane.emptyReg_tsKill (n : Nat) : (l.emptyReg n).tsKill = l.tsKill := rfl
@[simp] theorem Lane.emptyReg_tsCode (n : Nat) : (l.emptyReg n).tsCode = l.tsCode := rfl
@[simp] theorem Lane.emptyReg_st (n : Nat) : (l.emptyReg n).st = l.st := rfl
@[simp] theorem Lane.emptyReg_priv (n : Nat) : (l.emptyReg n).priv = l.priv := rfl
@[simp] theorem Lane.emptyReg_triggered (n : Nat) : (l.emptyReg n).triggered = l.triggered := rfl
@[simp] theorem Lane.emptyReg_trigDue (n : Nat) : (l.emptyReg n).trigDue = l.trigDue := rfl
@[simp] theorem Lane.emptyReg_spec (n : Nat) : (l.emptyReg n).spec = l.spec := rfl
@[simp] theorem Lane.emptyReg_hx (n : Nat) : (l.emptyReg n).hx = l.hx := rfl
@[simp] theorem Lane.emptyReg_xout (n : Nat) : (l.emptyReg n).xout = l.xout := rfl
@[simp] theorem Lane.emptyReg_pend (n : Nat) : (l.emptyReg n).pend = l.pend := rfl
@[simp] theorem Lane.emptyReg_mon (n : Nat) : (l.emptyReg n).mon = l.mon := rfl
@[simp] theorem Lane.emptyReg_cq (n : Nat) : (l.emptyReg n).cq = l.cq := rfl
@[simp] theorem Lane.emptyReg_owed (n : Nat) : (l.emptyReg n).owed = l.owed := rfl
@[simp] theorem Lane.emptyReg_owedBad (n : Nat) : (l.emptyReg n).owedBad = l.owedBad := rfl
@[simp] theorem Lane.emptyReg_stopped (n : Nat) : (l.emptyReg n).stopped = l.stopped := rfl
@[simp] theorem Lane.emptyReg_stepping (n : Nat) : (l.emptyReg n).stepping = l.stepping := rfl
@[simp] theorem Lane.emptyReg_stepTrap (n : Nat) : (l.emptyReg n).stepTrap = l.stepTrap := rfl
@[simp] theorem Lane.emptyReg_stepDue (n : Nat) : (l.emptyReg n).stepDue = l.stepDue := rfl
@[simp] theorem Lane.emptyReg_cmpSkip (n : Nat) : (l.emptyReg n).cmpSkip = l.cmpSkip := rfl
@[simp] theorem Lane.emptyReg_since (n : Nat) : (l.emptyReg n).since = l.since := rfl
@[simp] theorem Lane.emptyReg_token (n : Nat) : (l.emptyReg n).token = l.token := rfl

@[simp] theorem Lane.setReg_length (n : Nat) (v : Word) : (l.setReg n v).regs.length = l.regs.length := by simp [Lane.setReg]
@[simp] theorem Lane.emptyReg_length (n : Nat) : (l.emptyReg n).regs.length = l.regs.length := by simp [Lane.emptyReg]

/-- A register written holds the value, full. -/
theorem Lane.reg_setReg_same {n : Nat} (v : Word) (h : n < l.regs.length) : (l.setReg n v).reg n = ⟨v, true⟩ := by
  simp [Lane.reg, Lane.setReg, List.getD, h]

/-- A write of a register leaves the others. -/
theorem Lane.reg_setReg_ne {n m : Nat} (v : Word) (h : m ≠ n) : (l.setReg n v).reg m = l.reg m := by
  simp [Lane.reg, Lane.setReg, List.getD, Ne.symm h]

/-- A register emptied is empty and keeps its value. -/
theorem Lane.reg_emptyReg_same {n : Nat} (h : n < l.regs.length) : (l.emptyReg n).reg n = ⟨(l.reg n).val, false⟩ := by
  simp [Lane.reg, Lane.emptyReg, List.getD, h]

/-- Emptying a register leaves the others. -/
theorem Lane.reg_emptyReg_ne {n m : Nat} (h : m ≠ n) : (l.emptyReg n).reg m = l.reg m := by
  simp [Lane.reg, Lane.emptyReg, List.getD, Ne.symm h]

/-! ### Registers in a row -/

theorem Lane.fill_fold_pc (ps : List (Word × Nat)) (r : Nat) (l : Lane) :
    (ps.foldl (fun (l : Lane) p => l.setReg (r + p.2) p.1) l).pc = l.pc := by
  induction ps generalizing l with
  | nil => rfl
  | cons p ps ih => simp [ih]
@[simp] theorem Lane.fillRegs_pc (r : Nat) (vs : List Word) : (l.fillRegs r vs).pc = l.pc := Lane.fill_fold_pc _ _ _
@[simp] theorem Lane.emptyRegs_pc (rs : List Nat) : (l.emptyRegs rs).pc = l.pc := by
  unfold Lane.emptyRegs
  induction rs generalizing l with
  | nil => rfl
  | cons r rs ih => simp [ih]
theorem Lane.fill_fold_lc (ps : List (Word × Nat)) (r : Nat) (l : Lane) :
    (ps.foldl (fun (l : Lane) p => l.setReg (r + p.2) p.1) l).lc = l.lc := by
  induction ps generalizing l with
  | nil => rfl
  | cons p ps ih => simp [ih]
@[simp] theorem Lane.fillRegs_lc (r : Nat) (vs : List Word) : (l.fillRegs r vs).lc = l.lc := Lane.fill_fold_lc _ _ _
@[simp] theorem Lane.emptyRegs_lc (rs : List Nat) : (l.emptyRegs rs).lc = l.lc := by
  unfold Lane.emptyRegs
  induction rs generalizing l with
  | nil => rfl
  | cons r rs ih => simp [ih]
theorem Lane.fill_fold_loops (ps : List (Word × Nat)) (r : Nat) (l : Lane) :
    (ps.foldl (fun (l : Lane) p => l.setReg (r + p.2) p.1) l).loops = l.loops := by
  induction ps generalizing l with
  | nil => rfl
  | cons p ps ih => simp [ih]
@[simp] theorem Lane.fillRegs_loops (r : Nat) (vs : List Word) : (l.fillRegs r vs).loops = l.loops := Lane.fill_fold_loops _ _ _
@[simp] theorem Lane.emptyRegs_loops (rs : List Nat) : (l.emptyRegs rs).loops = l.loops := by
  unfold Lane.emptyRegs
  induction rs generalizing l with
  | nil => rfl
  | cons r rs ih => simp [ih]
theorem Lane.fill_fold_fflags (ps : List (Word × Nat)) (r : Nat) (l : Lane) :
    (ps.foldl (fun (l : Lane) p => l.setReg (r + p.2) p.1) l).fflags = l.fflags := by
  induction ps generalizing l with
  | nil => rfl
  | cons p ps ih => simp [ih]
@[simp] theorem Lane.fillRegs_fflags (r : Nat) (vs : List Word) : (l.fillRegs r vs).fflags = l.fflags := Lane.fill_fold_fflags _ _ _
@[simp] theorem Lane.emptyRegs_fflags (rs : List Nat) : (l.emptyRegs rs).fflags = l.fflags := by
  unfold Lane.emptyRegs
  induction rs generalizing l with
  | nil => rfl
  | cons r rs ih => simp [ih]
theorem Lane.fill_fold_rm (ps : List (Word × Nat)) (r : Nat) (l : Lane) :
    (ps.foldl (fun (l : Lane) p => l.setReg (r + p.2) p.1) l).rm = l.rm := by
  induction ps generalizing l with
  | nil => rfl
  | cons p ps ih => simp [ih]
@[simp] theorem Lane.fillRegs_rm (r : Nat) (vs : List Word) : (l.fillRegs r vs).rm = l.rm := Lane.fill_fold_rm _ _ _
@[simp] theorem Lane.emptyRegs_rm (rs : List Nat) : (l.emptyRegs rs).rm = l.rm := by
  unfold Lane.emptyRegs
  induction rs generalizing l with
  | nil => rfl
  | cons r rs ih => simp [ih]
theorem Lane.fill_fold_te (ps : List (Word × Nat)) (r : Nat) (l : Lane) :
    (ps.foldl (fun (l : Lane) p => l.setReg (r + p.2) p.1) l).te = l.te := by
  induction ps generalizing l with
  | nil => rfl
  | cons p ps ih => simp [ih]
@[simp] theorem Lane.fillRegs_te (r : Nat) (vs : List Word) : (l.fillRegs r vs).te = l.te := Lane.fill_fold_te _ _ _
@[simp] theorem Lane.emptyRegs_te (rs : List Nat) : (l.emptyRegs rs).te = l.te := by
  unfold Lane.emptyRegs
  induction rs generalizing l with
  | nil => rfl
  | cons r rs ih => simp [ih]
theorem Lane.fill_fold_tsUser (ps : List (Word × Nat)) (r : Nat) (l : Lane) :
    (ps.foldl (fun (l : Lane) p => l.setReg (r + p.2) p.1) l).tsUser = l.tsUser := by
  induction ps generalizing l with
  | nil => rfl
  | cons p ps ih => simp [ih]
@[simp] theorem Lane.fillRegs_tsUser (r : Nat) (vs : List Word) : (l.fillRegs r vs).tsUser = l.tsUser := Lane.fill_fold_tsUser _ _ _
@[simp] theorem Lane.emptyRegs_tsUser (rs : List Nat) : (l.emptyRegs rs).tsUser = l.tsUser := by
  unfold Lane.emptyRegs
  induction rs generalizing l with
  | nil => rfl
  | cons r rs ih => simp [ih]
theorem Lane.fill_fold_tsKill (ps : List (Word × Nat)) (r : Nat) (l : Lane) :
    (ps.foldl (fun (l : Lane) p => l.setReg (r + p.2) p.1) l).tsKill = l.tsKill := by
  induction ps generalizing l with
  | nil => rfl
  | cons p ps ih => simp [ih]
@[simp] theorem Lane.fillRegs_tsKill (r : Nat) (vs : List Word) : (l.fillRegs r vs).tsKill = l.tsKill := Lane.fill_fold_tsKill _ _ _
@[simp] theorem Lane.emptyRegs_tsKill (rs : List Nat) : (l.emptyRegs rs).tsKill = l.tsKill := by
  unfold Lane.emptyRegs
  induction rs generalizing l with
  | nil => rfl
  | cons r rs ih => simp [ih]
theorem Lane.fill_fold_tsCode (ps : List (Word × Nat)) (r : Nat) (l : Lane) :
    (ps.foldl (fun (l : Lane) p => l.setReg (r + p.2) p.1) l).tsCode = l.tsCode := by
  induction ps generalizing l with
  | nil => rfl
  | cons p ps ih => simp [ih]
@[simp] theorem Lane.fillRegs_tsCode (r : Nat) (vs : List Word) : (l.fillRegs r vs).tsCode = l.tsCode := Lane.fill_fold_tsCode _ _ _
@[simp] theorem Lane.emptyRegs_tsCode (rs : List Nat) : (l.emptyRegs rs).tsCode = l.tsCode := by
  unfold Lane.emptyRegs
  induction rs generalizing l with
  | nil => rfl
  | cons r rs ih => simp [ih]
theorem Lane.fill_fold_st (ps : List (Word × Nat)) (r : Nat) (l : Lane) :
    (ps.foldl (fun (l : Lane) p => l.setReg (r + p.2) p.1) l).st = l.st := by
  induction ps generalizing l with
  | nil => rfl
  | cons p ps ih => simp [ih]
@[simp] theorem Lane.fillRegs_st (r : Nat) (vs : List Word) : (l.fillRegs r vs).st = l.st := Lane.fill_fold_st _ _ _
@[simp] theorem Lane.emptyRegs_st (rs : List Nat) : (l.emptyRegs rs).st = l.st := by
  unfold Lane.emptyRegs
  induction rs generalizing l with
  | nil => rfl
  | cons r rs ih => simp [ih]
theorem Lane.fill_fold_priv (ps : List (Word × Nat)) (r : Nat) (l : Lane) :
    (ps.foldl (fun (l : Lane) p => l.setReg (r + p.2) p.1) l).priv = l.priv := by
  induction ps generalizing l with
  | nil => rfl
  | cons p ps ih => simp [ih]
@[simp] theorem Lane.fillRegs_priv (r : Nat) (vs : List Word) : (l.fillRegs r vs).priv = l.priv := Lane.fill_fold_priv _ _ _
@[simp] theorem Lane.emptyRegs_priv (rs : List Nat) : (l.emptyRegs rs).priv = l.priv := by
  unfold Lane.emptyRegs
  induction rs generalizing l with
  | nil => rfl
  | cons r rs ih => simp [ih]
theorem Lane.fill_fold_triggered (ps : List (Word × Nat)) (r : Nat) (l : Lane) :
    (ps.foldl (fun (l : Lane) p => l.setReg (r + p.2) p.1) l).triggered = l.triggered := by
  induction ps generalizing l with
  | nil => rfl
  | cons p ps ih => simp [ih]
@[simp] theorem Lane.fillRegs_triggered (r : Nat) (vs : List Word) : (l.fillRegs r vs).triggered = l.triggered := Lane.fill_fold_triggered _ _ _
@[simp] theorem Lane.emptyRegs_triggered (rs : List Nat) : (l.emptyRegs rs).triggered = l.triggered := by
  unfold Lane.emptyRegs
  induction rs generalizing l with
  | nil => rfl
  | cons r rs ih => simp [ih]
theorem Lane.fill_fold_trigDue (ps : List (Word × Nat)) (r : Nat) (l : Lane) :
    (ps.foldl (fun (l : Lane) p => l.setReg (r + p.2) p.1) l).trigDue = l.trigDue := by
  induction ps generalizing l with
  | nil => rfl
  | cons p ps ih => simp [ih]
@[simp] theorem Lane.fillRegs_trigDue (r : Nat) (vs : List Word) : (l.fillRegs r vs).trigDue = l.trigDue := Lane.fill_fold_trigDue _ _ _
@[simp] theorem Lane.emptyRegs_trigDue (rs : List Nat) : (l.emptyRegs rs).trigDue = l.trigDue := by
  unfold Lane.emptyRegs
  induction rs generalizing l with
  | nil => rfl
  | cons r rs ih => simp [ih]
theorem Lane.fill_fold_spec (ps : List (Word × Nat)) (r : Nat) (l : Lane) :
    (ps.foldl (fun (l : Lane) p => l.setReg (r + p.2) p.1) l).spec = l.spec := by
  induction ps generalizing l with
  | nil => rfl
  | cons p ps ih => simp [ih]
@[simp] theorem Lane.fillRegs_spec (r : Nat) (vs : List Word) : (l.fillRegs r vs).spec = l.spec := Lane.fill_fold_spec _ _ _
@[simp] theorem Lane.emptyRegs_spec (rs : List Nat) : (l.emptyRegs rs).spec = l.spec := by
  unfold Lane.emptyRegs
  induction rs generalizing l with
  | nil => rfl
  | cons r rs ih => simp [ih]
theorem Lane.fill_fold_hx (ps : List (Word × Nat)) (r : Nat) (l : Lane) :
    (ps.foldl (fun (l : Lane) p => l.setReg (r + p.2) p.1) l).hx = l.hx := by
  induction ps generalizing l with
  | nil => rfl
  | cons p ps ih => simp [ih]
@[simp] theorem Lane.fillRegs_hx (r : Nat) (vs : List Word) : (l.fillRegs r vs).hx = l.hx := Lane.fill_fold_hx _ _ _
@[simp] theorem Lane.emptyRegs_hx (rs : List Nat) : (l.emptyRegs rs).hx = l.hx := by
  unfold Lane.emptyRegs
  induction rs generalizing l with
  | nil => rfl
  | cons r rs ih => simp [ih]
theorem Lane.fill_fold_xout (ps : List (Word × Nat)) (r : Nat) (l : Lane) :
    (ps.foldl (fun (l : Lane) p => l.setReg (r + p.2) p.1) l).xout = l.xout := by
  induction ps generalizing l with
  | nil => rfl
  | cons p ps ih => simp [ih]
@[simp] theorem Lane.fillRegs_xout (r : Nat) (vs : List Word) : (l.fillRegs r vs).xout = l.xout := Lane.fill_fold_xout _ _ _
@[simp] theorem Lane.emptyRegs_xout (rs : List Nat) : (l.emptyRegs rs).xout = l.xout := by
  unfold Lane.emptyRegs
  induction rs generalizing l with
  | nil => rfl
  | cons r rs ih => simp [ih]
theorem Lane.fill_fold_pend (ps : List (Word × Nat)) (r : Nat) (l : Lane) :
    (ps.foldl (fun (l : Lane) p => l.setReg (r + p.2) p.1) l).pend = l.pend := by
  induction ps generalizing l with
  | nil => rfl
  | cons p ps ih => simp [ih]
@[simp] theorem Lane.fillRegs_pend (r : Nat) (vs : List Word) : (l.fillRegs r vs).pend = l.pend := Lane.fill_fold_pend _ _ _
@[simp] theorem Lane.emptyRegs_pend (rs : List Nat) : (l.emptyRegs rs).pend = l.pend := by
  unfold Lane.emptyRegs
  induction rs generalizing l with
  | nil => rfl
  | cons r rs ih => simp [ih]
theorem Lane.fill_fold_mon (ps : List (Word × Nat)) (r : Nat) (l : Lane) :
    (ps.foldl (fun (l : Lane) p => l.setReg (r + p.2) p.1) l).mon = l.mon := by
  induction ps generalizing l with
  | nil => rfl
  | cons p ps ih => simp [ih]
@[simp] theorem Lane.fillRegs_mon (r : Nat) (vs : List Word) : (l.fillRegs r vs).mon = l.mon := Lane.fill_fold_mon _ _ _
@[simp] theorem Lane.emptyRegs_mon (rs : List Nat) : (l.emptyRegs rs).mon = l.mon := by
  unfold Lane.emptyRegs
  induction rs generalizing l with
  | nil => rfl
  | cons r rs ih => simp [ih]
theorem Lane.fill_fold_cq (ps : List (Word × Nat)) (r : Nat) (l : Lane) :
    (ps.foldl (fun (l : Lane) p => l.setReg (r + p.2) p.1) l).cq = l.cq := by
  induction ps generalizing l with
  | nil => rfl
  | cons p ps ih => simp [ih]
@[simp] theorem Lane.fillRegs_cq (r : Nat) (vs : List Word) : (l.fillRegs r vs).cq = l.cq := Lane.fill_fold_cq _ _ _
@[simp] theorem Lane.emptyRegs_cq (rs : List Nat) : (l.emptyRegs rs).cq = l.cq := by
  unfold Lane.emptyRegs
  induction rs generalizing l with
  | nil => rfl
  | cons r rs ih => simp [ih]
theorem Lane.fill_fold_owed (ps : List (Word × Nat)) (r : Nat) (l : Lane) :
    (ps.foldl (fun (l : Lane) p => l.setReg (r + p.2) p.1) l).owed = l.owed := by
  induction ps generalizing l with
  | nil => rfl
  | cons p ps ih => simp [ih]
@[simp] theorem Lane.fillRegs_owed (r : Nat) (vs : List Word) : (l.fillRegs r vs).owed = l.owed := Lane.fill_fold_owed _ _ _
@[simp] theorem Lane.emptyRegs_owed (rs : List Nat) : (l.emptyRegs rs).owed = l.owed := by
  unfold Lane.emptyRegs
  induction rs generalizing l with
  | nil => rfl
  | cons r rs ih => simp [ih]
theorem Lane.fill_fold_owedBad (ps : List (Word × Nat)) (r : Nat) (l : Lane) :
    (ps.foldl (fun (l : Lane) p => l.setReg (r + p.2) p.1) l).owedBad = l.owedBad := by
  induction ps generalizing l with
  | nil => rfl
  | cons p ps ih => simp [ih]
@[simp] theorem Lane.fillRegs_owedBad (r : Nat) (vs : List Word) : (l.fillRegs r vs).owedBad = l.owedBad := Lane.fill_fold_owedBad _ _ _
@[simp] theorem Lane.emptyRegs_owedBad (rs : List Nat) : (l.emptyRegs rs).owedBad = l.owedBad := by
  unfold Lane.emptyRegs
  induction rs generalizing l with
  | nil => rfl
  | cons r rs ih => simp [ih]
theorem Lane.fill_fold_stopped (ps : List (Word × Nat)) (r : Nat) (l : Lane) :
    (ps.foldl (fun (l : Lane) p => l.setReg (r + p.2) p.1) l).stopped = l.stopped := by
  induction ps generalizing l with
  | nil => rfl
  | cons p ps ih => simp [ih]
@[simp] theorem Lane.fillRegs_stopped (r : Nat) (vs : List Word) : (l.fillRegs r vs).stopped = l.stopped := Lane.fill_fold_stopped _ _ _
@[simp] theorem Lane.emptyRegs_stopped (rs : List Nat) : (l.emptyRegs rs).stopped = l.stopped := by
  unfold Lane.emptyRegs
  induction rs generalizing l with
  | nil => rfl
  | cons r rs ih => simp [ih]
theorem Lane.fill_fold_stepping (ps : List (Word × Nat)) (r : Nat) (l : Lane) :
    (ps.foldl (fun (l : Lane) p => l.setReg (r + p.2) p.1) l).stepping = l.stepping := by
  induction ps generalizing l with
  | nil => rfl
  | cons p ps ih => simp [ih]
@[simp] theorem Lane.fillRegs_stepping (r : Nat) (vs : List Word) : (l.fillRegs r vs).stepping = l.stepping := Lane.fill_fold_stepping _ _ _
@[simp] theorem Lane.emptyRegs_stepping (rs : List Nat) : (l.emptyRegs rs).stepping = l.stepping := by
  unfold Lane.emptyRegs
  induction rs generalizing l with
  | nil => rfl
  | cons r rs ih => simp [ih]
theorem Lane.fill_fold_stepTrap (ps : List (Word × Nat)) (r : Nat) (l : Lane) :
    (ps.foldl (fun (l : Lane) p => l.setReg (r + p.2) p.1) l).stepTrap = l.stepTrap := by
  induction ps generalizing l with
  | nil => rfl
  | cons p ps ih => simp [ih]
@[simp] theorem Lane.fillRegs_stepTrap (r : Nat) (vs : List Word) : (l.fillRegs r vs).stepTrap = l.stepTrap := Lane.fill_fold_stepTrap _ _ _
@[simp] theorem Lane.emptyRegs_stepTrap (rs : List Nat) : (l.emptyRegs rs).stepTrap = l.stepTrap := by
  unfold Lane.emptyRegs
  induction rs generalizing l with
  | nil => rfl
  | cons r rs ih => simp [ih]
theorem Lane.fill_fold_stepDue (ps : List (Word × Nat)) (r : Nat) (l : Lane) :
    (ps.foldl (fun (l : Lane) p => l.setReg (r + p.2) p.1) l).stepDue = l.stepDue := by
  induction ps generalizing l with
  | nil => rfl
  | cons p ps ih => simp [ih]
@[simp] theorem Lane.fillRegs_stepDue (r : Nat) (vs : List Word) : (l.fillRegs r vs).stepDue = l.stepDue := Lane.fill_fold_stepDue _ _ _
@[simp] theorem Lane.emptyRegs_stepDue (rs : List Nat) : (l.emptyRegs rs).stepDue = l.stepDue := by
  unfold Lane.emptyRegs
  induction rs generalizing l with
  | nil => rfl
  | cons r rs ih => simp [ih]
theorem Lane.fill_fold_cmpSkip (ps : List (Word × Nat)) (r : Nat) (l : Lane) :
    (ps.foldl (fun (l : Lane) p => l.setReg (r + p.2) p.1) l).cmpSkip = l.cmpSkip := by
  induction ps generalizing l with
  | nil => rfl
  | cons p ps ih => simp [ih]
@[simp] theorem Lane.fillRegs_cmpSkip (r : Nat) (vs : List Word) : (l.fillRegs r vs).cmpSkip = l.cmpSkip := Lane.fill_fold_cmpSkip _ _ _
@[simp] theorem Lane.emptyRegs_cmpSkip (rs : List Nat) : (l.emptyRegs rs).cmpSkip = l.cmpSkip := by
  unfold Lane.emptyRegs
  induction rs generalizing l with
  | nil => rfl
  | cons r rs ih => simp [ih]
theorem Lane.fill_fold_since (ps : List (Word × Nat)) (r : Nat) (l : Lane) :
    (ps.foldl (fun (l : Lane) p => l.setReg (r + p.2) p.1) l).since = l.since := by
  induction ps generalizing l with
  | nil => rfl
  | cons p ps ih => simp [ih]
@[simp] theorem Lane.fillRegs_since (r : Nat) (vs : List Word) : (l.fillRegs r vs).since = l.since := Lane.fill_fold_since _ _ _
@[simp] theorem Lane.emptyRegs_since (rs : List Nat) : (l.emptyRegs rs).since = l.since := by
  unfold Lane.emptyRegs
  induction rs generalizing l with
  | nil => rfl
  | cons r rs ih => simp [ih]
theorem Lane.fill_fold_token (ps : List (Word × Nat)) (r : Nat) (l : Lane) :
    (ps.foldl (fun (l : Lane) p => l.setReg (r + p.2) p.1) l).token = l.token := by
  induction ps generalizing l with
  | nil => rfl
  | cons p ps ih => simp [ih]
@[simp] theorem Lane.fillRegs_token (r : Nat) (vs : List Word) : (l.fillRegs r vs).token = l.token := Lane.fill_fold_token _ _ _
@[simp] theorem Lane.emptyRegs_token (rs : List Nat) : (l.emptyRegs rs).token = l.token := by
  unfold Lane.emptyRegs
  induction rs generalizing l with
  | nil => rfl
  | cons r rs ih => simp [ih]

/-! ### Lane.raise (spec/04 R106) -/

@[simp] theorem Lane.raise_pc (fl : Flags) : (l.raise fl).pc = l.pc := rfl
@[simp] theorem Lane.raise_regs (fl : Flags) : (l.raise fl).regs = l.regs := rfl
@[simp] theorem Lane.raise_lc (fl : Flags) : (l.raise fl).lc = l.lc := rfl
@[simp] theorem Lane.raise_loops (fl : Flags) : (l.raise fl).loops = l.loops := rfl
@[simp] theorem Lane.raise_rm (fl : Flags) : (l.raise fl).rm = l.rm := rfl
@[simp] theorem Lane.raise_te (fl : Flags) : (l.raise fl).te = l.te := rfl
@[simp] theorem Lane.raise_tsUser (fl : Flags) : (l.raise fl).tsUser = l.tsUser := rfl
@[simp] theorem Lane.raise_tsKill (fl : Flags) : (l.raise fl).tsKill = l.tsKill := rfl
@[simp] theorem Lane.raise_tsCode (fl : Flags) : (l.raise fl).tsCode = l.tsCode := rfl
@[simp] theorem Lane.raise_st (fl : Flags) : (l.raise fl).st = l.st := rfl
@[simp] theorem Lane.raise_priv (fl : Flags) : (l.raise fl).priv = l.priv := rfl
@[simp] theorem Lane.raise_triggered (fl : Flags) : (l.raise fl).triggered = l.triggered := rfl
@[simp] theorem Lane.raise_trigDue (fl : Flags) : (l.raise fl).trigDue = l.trigDue := rfl
@[simp] theorem Lane.raise_spec (fl : Flags) : (l.raise fl).spec = l.spec := rfl
@[simp] theorem Lane.raise_hx (fl : Flags) : (l.raise fl).hx = l.hx := rfl
@[simp] theorem Lane.raise_xout (fl : Flags) : (l.raise fl).xout = l.xout := rfl
@[simp] theorem Lane.raise_pend (fl : Flags) : (l.raise fl).pend = l.pend := rfl
@[simp] theorem Lane.raise_mon (fl : Flags) : (l.raise fl).mon = l.mon := rfl
@[simp] theorem Lane.raise_cq (fl : Flags) : (l.raise fl).cq = l.cq := rfl
@[simp] theorem Lane.raise_owed (fl : Flags) : (l.raise fl).owed = l.owed := rfl
@[simp] theorem Lane.raise_owedBad (fl : Flags) : (l.raise fl).owedBad = l.owedBad := rfl
@[simp] theorem Lane.raise_stopped (fl : Flags) : (l.raise fl).stopped = l.stopped := rfl
@[simp] theorem Lane.raise_stepping (fl : Flags) : (l.raise fl).stepping = l.stepping := rfl
@[simp] theorem Lane.raise_stepTrap (fl : Flags) : (l.raise fl).stepTrap = l.stepTrap := rfl
@[simp] theorem Lane.raise_stepDue (fl : Flags) : (l.raise fl).stepDue = l.stepDue := rfl
@[simp] theorem Lane.raise_cmpSkip (fl : Flags) : (l.raise fl).cmpSkip = l.cmpSkip := rfl
@[simp] theorem Lane.raise_since (fl : Flags) : (l.raise fl).since = l.since := rfl
@[simp] theorem Lane.raise_token (fl : Flags) : (l.raise fl).token = l.token := rfl
@[simp] theorem Lane.raise_fflags_eq (fl : Flags) : (l.raise fl).fflags = l.fflags ||| fl := rfl

/-! ### The end check and the moves of a PC (spec/05 R130) -/

@[simp] theorem Lane.loopOff_regs (n : Nat) : (l.loopOff n).regs = l.regs := by
  unfold Lane.loopOff; repeat' split
  all_goals rfl
@[simp] theorem endCheck_regs (a : Addr) (ns : List Nat) (l : Lane) : (endCheck a ns l).regs = l.regs := by
  induction ns generalizing l with
  | nil => rfl
  | cons n r ih =>
    simp only [endCheck]
    repeat' split
    all_goals simp [ih]
@[simp] theorem Lane.goto_regs (a : Addr) : (l.goto a).regs = l.regs := by simp [Lane.goto]
@[simp] theorem Lane.advance_regs (s : State) : (l.advance s).regs = l.regs := by simp [Lane.advance]
@[simp] theorem Lane.loopOff_fflags (n : Nat) : (l.loopOff n).fflags = l.fflags := by
  unfold Lane.loopOff; repeat' split
  all_goals rfl
@[simp] theorem endCheck_fflags (a : Addr) (ns : List Nat) (l : Lane) : (endCheck a ns l).fflags = l.fflags := by
  induction ns generalizing l with
  | nil => rfl
  | cons n r ih =>
    simp only [endCheck]
    repeat' split
    all_goals simp [ih]
@[simp] theorem Lane.goto_fflags (a : Addr) : (l.goto a).fflags = l.fflags := by simp [Lane.goto]
@[simp] theorem Lane.advance_fflags (s : State) : (l.advance s).fflags = l.fflags := by simp [Lane.advance]
@[simp] theorem Lane.loopOff_rm (n : Nat) : (l.loopOff n).rm = l.rm := by
  unfold Lane.loopOff; repeat' split
  all_goals rfl
@[simp] theorem endCheck_rm (a : Addr) (ns : List Nat) (l : Lane) : (endCheck a ns l).rm = l.rm := by
  induction ns generalizing l with
  | nil => rfl
  | cons n r ih =>
    simp only [endCheck]
    repeat' split
    all_goals simp [ih]
@[simp] theorem Lane.goto_rm (a : Addr) : (l.goto a).rm = l.rm := by simp [Lane.goto]
@[simp] theorem Lane.advance_rm (s : State) : (l.advance s).rm = l.rm := by simp [Lane.advance]
@[simp] theorem Lane.loopOff_te (n : Nat) : (l.loopOff n).te = l.te := by
  unfold Lane.loopOff; repeat' split
  all_goals rfl
@[simp] theorem endCheck_te (a : Addr) (ns : List Nat) (l : Lane) : (endCheck a ns l).te = l.te := by
  induction ns generalizing l with
  | nil => rfl
  | cons n r ih =>
    simp only [endCheck]
    repeat' split
    all_goals simp [ih]
@[simp] theorem Lane.goto_te (a : Addr) : (l.goto a).te = l.te := by simp [Lane.goto]
@[simp] theorem Lane.advance_te (s : State) : (l.advance s).te = l.te := by simp [Lane.advance]
@[simp] theorem Lane.loopOff_tsUser (n : Nat) : (l.loopOff n).tsUser = l.tsUser := by
  unfold Lane.loopOff; repeat' split
  all_goals rfl
@[simp] theorem endCheck_tsUser (a : Addr) (ns : List Nat) (l : Lane) : (endCheck a ns l).tsUser = l.tsUser := by
  induction ns generalizing l with
  | nil => rfl
  | cons n r ih =>
    simp only [endCheck]
    repeat' split
    all_goals simp [ih]
@[simp] theorem Lane.goto_tsUser (a : Addr) : (l.goto a).tsUser = l.tsUser := by simp [Lane.goto]
@[simp] theorem Lane.advance_tsUser (s : State) : (l.advance s).tsUser = l.tsUser := by simp [Lane.advance]
@[simp] theorem Lane.loopOff_tsKill (n : Nat) : (l.loopOff n).tsKill = l.tsKill := by
  unfold Lane.loopOff; repeat' split
  all_goals rfl
@[simp] theorem endCheck_tsKill (a : Addr) (ns : List Nat) (l : Lane) : (endCheck a ns l).tsKill = l.tsKill := by
  induction ns generalizing l with
  | nil => rfl
  | cons n r ih =>
    simp only [endCheck]
    repeat' split
    all_goals simp [ih]
@[simp] theorem Lane.goto_tsKill (a : Addr) : (l.goto a).tsKill = l.tsKill := by simp [Lane.goto]
@[simp] theorem Lane.advance_tsKill (s : State) : (l.advance s).tsKill = l.tsKill := by simp [Lane.advance]
@[simp] theorem Lane.loopOff_tsCode (n : Nat) : (l.loopOff n).tsCode = l.tsCode := by
  unfold Lane.loopOff; repeat' split
  all_goals rfl
@[simp] theorem endCheck_tsCode (a : Addr) (ns : List Nat) (l : Lane) : (endCheck a ns l).tsCode = l.tsCode := by
  induction ns generalizing l with
  | nil => rfl
  | cons n r ih =>
    simp only [endCheck]
    repeat' split
    all_goals simp [ih]
@[simp] theorem Lane.goto_tsCode (a : Addr) : (l.goto a).tsCode = l.tsCode := by simp [Lane.goto]
@[simp] theorem Lane.advance_tsCode (s : State) : (l.advance s).tsCode = l.tsCode := by simp [Lane.advance]
@[simp] theorem Lane.loopOff_st (n : Nat) : (l.loopOff n).st = l.st := by
  unfold Lane.loopOff; repeat' split
  all_goals rfl
@[simp] theorem endCheck_st (a : Addr) (ns : List Nat) (l : Lane) : (endCheck a ns l).st = l.st := by
  induction ns generalizing l with
  | nil => rfl
  | cons n r ih =>
    simp only [endCheck]
    repeat' split
    all_goals simp [ih]
@[simp] theorem Lane.goto_st (a : Addr) : (l.goto a).st = l.st := by simp [Lane.goto]
@[simp] theorem Lane.advance_st (s : State) : (l.advance s).st = l.st := by simp [Lane.advance]
@[simp] theorem Lane.loopOff_priv (n : Nat) : (l.loopOff n).priv = l.priv := by
  unfold Lane.loopOff; repeat' split
  all_goals rfl
@[simp] theorem endCheck_priv (a : Addr) (ns : List Nat) (l : Lane) : (endCheck a ns l).priv = l.priv := by
  induction ns generalizing l with
  | nil => rfl
  | cons n r ih =>
    simp only [endCheck]
    repeat' split
    all_goals simp [ih]
@[simp] theorem Lane.goto_priv (a : Addr) : (l.goto a).priv = l.priv := by simp [Lane.goto]
@[simp] theorem Lane.advance_priv (s : State) : (l.advance s).priv = l.priv := by simp [Lane.advance]
@[simp] theorem Lane.loopOff_triggered (n : Nat) : (l.loopOff n).triggered = l.triggered := by
  unfold Lane.loopOff; repeat' split
  all_goals rfl
@[simp] theorem endCheck_triggered (a : Addr) (ns : List Nat) (l : Lane) : (endCheck a ns l).triggered = l.triggered := by
  induction ns generalizing l with
  | nil => rfl
  | cons n r ih =>
    simp only [endCheck]
    repeat' split
    all_goals simp [ih]
@[simp] theorem Lane.goto_triggered (a : Addr) : (l.goto a).triggered = l.triggered := by simp [Lane.goto]
@[simp] theorem Lane.advance_triggered (s : State) : (l.advance s).triggered = l.triggered := by simp [Lane.advance]
@[simp] theorem Lane.loopOff_trigDue (n : Nat) : (l.loopOff n).trigDue = l.trigDue := by
  unfold Lane.loopOff; repeat' split
  all_goals rfl
@[simp] theorem endCheck_trigDue (a : Addr) (ns : List Nat) (l : Lane) : (endCheck a ns l).trigDue = l.trigDue := by
  induction ns generalizing l with
  | nil => rfl
  | cons n r ih =>
    simp only [endCheck]
    repeat' split
    all_goals simp [ih]
@[simp] theorem Lane.goto_trigDue (a : Addr) : (l.goto a).trigDue = l.trigDue := by simp [Lane.goto]
@[simp] theorem Lane.advance_trigDue (s : State) : (l.advance s).trigDue = l.trigDue := by simp [Lane.advance]
@[simp] theorem Lane.loopOff_spec (n : Nat) : (l.loopOff n).spec = l.spec := by
  unfold Lane.loopOff; repeat' split
  all_goals rfl
@[simp] theorem endCheck_spec (a : Addr) (ns : List Nat) (l : Lane) : (endCheck a ns l).spec = l.spec := by
  induction ns generalizing l with
  | nil => rfl
  | cons n r ih =>
    simp only [endCheck]
    repeat' split
    all_goals simp [ih]
@[simp] theorem Lane.goto_spec (a : Addr) : (l.goto a).spec = l.spec := by simp [Lane.goto]
@[simp] theorem Lane.advance_spec (s : State) : (l.advance s).spec = l.spec := by simp [Lane.advance]
@[simp] theorem Lane.loopOff_hx (n : Nat) : (l.loopOff n).hx = l.hx := by
  unfold Lane.loopOff; repeat' split
  all_goals rfl
@[simp] theorem endCheck_hx (a : Addr) (ns : List Nat) (l : Lane) : (endCheck a ns l).hx = l.hx := by
  induction ns generalizing l with
  | nil => rfl
  | cons n r ih =>
    simp only [endCheck]
    repeat' split
    all_goals simp [ih]
@[simp] theorem Lane.goto_hx (a : Addr) : (l.goto a).hx = l.hx := by simp [Lane.goto]
@[simp] theorem Lane.advance_hx (s : State) : (l.advance s).hx = l.hx := by simp [Lane.advance]
@[simp] theorem Lane.loopOff_xout (n : Nat) : (l.loopOff n).xout = l.xout := by
  unfold Lane.loopOff; repeat' split
  all_goals rfl
@[simp] theorem endCheck_xout (a : Addr) (ns : List Nat) (l : Lane) : (endCheck a ns l).xout = l.xout := by
  induction ns generalizing l with
  | nil => rfl
  | cons n r ih =>
    simp only [endCheck]
    repeat' split
    all_goals simp [ih]
@[simp] theorem Lane.goto_xout (a : Addr) : (l.goto a).xout = l.xout := by simp [Lane.goto]
@[simp] theorem Lane.advance_xout (s : State) : (l.advance s).xout = l.xout := by simp [Lane.advance]
@[simp] theorem Lane.loopOff_pend (n : Nat) : (l.loopOff n).pend = l.pend := by
  unfold Lane.loopOff; repeat' split
  all_goals rfl
@[simp] theorem endCheck_pend (a : Addr) (ns : List Nat) (l : Lane) : (endCheck a ns l).pend = l.pend := by
  induction ns generalizing l with
  | nil => rfl
  | cons n r ih =>
    simp only [endCheck]
    repeat' split
    all_goals simp [ih]
@[simp] theorem Lane.goto_pend (a : Addr) : (l.goto a).pend = l.pend := by simp [Lane.goto]
@[simp] theorem Lane.advance_pend (s : State) : (l.advance s).pend = l.pend := by simp [Lane.advance]
@[simp] theorem Lane.loopOff_mon (n : Nat) : (l.loopOff n).mon = l.mon := by
  unfold Lane.loopOff; repeat' split
  all_goals rfl
@[simp] theorem endCheck_mon (a : Addr) (ns : List Nat) (l : Lane) : (endCheck a ns l).mon = l.mon := by
  induction ns generalizing l with
  | nil => rfl
  | cons n r ih =>
    simp only [endCheck]
    repeat' split
    all_goals simp [ih]
@[simp] theorem Lane.goto_mon (a : Addr) : (l.goto a).mon = l.mon := by simp [Lane.goto]
@[simp] theorem Lane.advance_mon (s : State) : (l.advance s).mon = l.mon := by simp [Lane.advance]
@[simp] theorem Lane.loopOff_cq (n : Nat) : (l.loopOff n).cq = l.cq := by
  unfold Lane.loopOff; repeat' split
  all_goals rfl
@[simp] theorem endCheck_cq (a : Addr) (ns : List Nat) (l : Lane) : (endCheck a ns l).cq = l.cq := by
  induction ns generalizing l with
  | nil => rfl
  | cons n r ih =>
    simp only [endCheck]
    repeat' split
    all_goals simp [ih]
@[simp] theorem Lane.goto_cq (a : Addr) : (l.goto a).cq = l.cq := by simp [Lane.goto]
@[simp] theorem Lane.advance_cq (s : State) : (l.advance s).cq = l.cq := by simp [Lane.advance]
@[simp] theorem Lane.loopOff_owed (n : Nat) : (l.loopOff n).owed = l.owed := by
  unfold Lane.loopOff; repeat' split
  all_goals rfl
@[simp] theorem endCheck_owed (a : Addr) (ns : List Nat) (l : Lane) : (endCheck a ns l).owed = l.owed := by
  induction ns generalizing l with
  | nil => rfl
  | cons n r ih =>
    simp only [endCheck]
    repeat' split
    all_goals simp [ih]
@[simp] theorem Lane.goto_owed (a : Addr) : (l.goto a).owed = l.owed := by simp [Lane.goto]
@[simp] theorem Lane.advance_owed (s : State) : (l.advance s).owed = l.owed := by simp [Lane.advance]
@[simp] theorem Lane.loopOff_owedBad (n : Nat) : (l.loopOff n).owedBad = l.owedBad := by
  unfold Lane.loopOff; repeat' split
  all_goals rfl
@[simp] theorem endCheck_owedBad (a : Addr) (ns : List Nat) (l : Lane) : (endCheck a ns l).owedBad = l.owedBad := by
  induction ns generalizing l with
  | nil => rfl
  | cons n r ih =>
    simp only [endCheck]
    repeat' split
    all_goals simp [ih]
@[simp] theorem Lane.goto_owedBad (a : Addr) : (l.goto a).owedBad = l.owedBad := by simp [Lane.goto]
@[simp] theorem Lane.advance_owedBad (s : State) : (l.advance s).owedBad = l.owedBad := by simp [Lane.advance]
@[simp] theorem Lane.loopOff_stopped (n : Nat) : (l.loopOff n).stopped = l.stopped := by
  unfold Lane.loopOff; repeat' split
  all_goals rfl
@[simp] theorem endCheck_stopped (a : Addr) (ns : List Nat) (l : Lane) : (endCheck a ns l).stopped = l.stopped := by
  induction ns generalizing l with
  | nil => rfl
  | cons n r ih =>
    simp only [endCheck]
    repeat' split
    all_goals simp [ih]
@[simp] theorem Lane.goto_stopped (a : Addr) : (l.goto a).stopped = l.stopped := by simp [Lane.goto]
@[simp] theorem Lane.advance_stopped (s : State) : (l.advance s).stopped = l.stopped := by simp [Lane.advance]
@[simp] theorem Lane.loopOff_stepping (n : Nat) : (l.loopOff n).stepping = l.stepping := by
  unfold Lane.loopOff; repeat' split
  all_goals rfl
@[simp] theorem endCheck_stepping (a : Addr) (ns : List Nat) (l : Lane) : (endCheck a ns l).stepping = l.stepping := by
  induction ns generalizing l with
  | nil => rfl
  | cons n r ih =>
    simp only [endCheck]
    repeat' split
    all_goals simp [ih]
@[simp] theorem Lane.goto_stepping (a : Addr) : (l.goto a).stepping = l.stepping := by simp [Lane.goto]
@[simp] theorem Lane.advance_stepping (s : State) : (l.advance s).stepping = l.stepping := by simp [Lane.advance]
@[simp] theorem Lane.loopOff_stepTrap (n : Nat) : (l.loopOff n).stepTrap = l.stepTrap := by
  unfold Lane.loopOff; repeat' split
  all_goals rfl
@[simp] theorem endCheck_stepTrap (a : Addr) (ns : List Nat) (l : Lane) : (endCheck a ns l).stepTrap = l.stepTrap := by
  induction ns generalizing l with
  | nil => rfl
  | cons n r ih =>
    simp only [endCheck]
    repeat' split
    all_goals simp [ih]
@[simp] theorem Lane.goto_stepTrap (a : Addr) : (l.goto a).stepTrap = l.stepTrap := by simp [Lane.goto]
@[simp] theorem Lane.advance_stepTrap (s : State) : (l.advance s).stepTrap = l.stepTrap := by simp [Lane.advance]
@[simp] theorem Lane.loopOff_stepDue (n : Nat) : (l.loopOff n).stepDue = l.stepDue := by
  unfold Lane.loopOff; repeat' split
  all_goals rfl
@[simp] theorem endCheck_stepDue (a : Addr) (ns : List Nat) (l : Lane) : (endCheck a ns l).stepDue = l.stepDue := by
  induction ns generalizing l with
  | nil => rfl
  | cons n r ih =>
    simp only [endCheck]
    repeat' split
    all_goals simp [ih]
@[simp] theorem Lane.goto_stepDue (a : Addr) : (l.goto a).stepDue = l.stepDue := by simp [Lane.goto]
@[simp] theorem Lane.advance_stepDue (s : State) : (l.advance s).stepDue = l.stepDue := by simp [Lane.advance]
@[simp] theorem Lane.loopOff_cmpSkip (n : Nat) : (l.loopOff n).cmpSkip = l.cmpSkip := by
  unfold Lane.loopOff; repeat' split
  all_goals rfl
@[simp] theorem endCheck_cmpSkip (a : Addr) (ns : List Nat) (l : Lane) : (endCheck a ns l).cmpSkip = l.cmpSkip := by
  induction ns generalizing l with
  | nil => rfl
  | cons n r ih =>
    simp only [endCheck]
    repeat' split
    all_goals simp [ih]
@[simp] theorem Lane.goto_cmpSkip (a : Addr) : (l.goto a).cmpSkip = l.cmpSkip := by simp [Lane.goto]
@[simp] theorem Lane.advance_cmpSkip (s : State) : (l.advance s).cmpSkip = l.cmpSkip := by simp [Lane.advance]
@[simp] theorem Lane.loopOff_since (n : Nat) : (l.loopOff n).since = l.since := by
  unfold Lane.loopOff; repeat' split
  all_goals rfl
@[simp] theorem endCheck_since (a : Addr) (ns : List Nat) (l : Lane) : (endCheck a ns l).since = l.since := by
  induction ns generalizing l with
  | nil => rfl
  | cons n r ih =>
    simp only [endCheck]
    repeat' split
    all_goals simp [ih]
@[simp] theorem Lane.goto_since (a : Addr) : (l.goto a).since = l.since := by simp [Lane.goto]
@[simp] theorem Lane.advance_since (s : State) : (l.advance s).since = l.since := by simp [Lane.advance]
@[simp] theorem Lane.loopOff_token (n : Nat) : (l.loopOff n).token = l.token := by
  unfold Lane.loopOff; repeat' split
  all_goals rfl
@[simp] theorem endCheck_token (a : Addr) (ns : List Nat) (l : Lane) : (endCheck a ns l).token = l.token := by
  induction ns generalizing l with
  | nil => rfl
  | cons n r ih =>
    simp only [endCheck]
    repeat' split
    all_goals simp [ih]
@[simp] theorem Lane.goto_token (a : Addr) : (l.goto a).token = l.token := by simp [Lane.goto]
@[simp] theorem Lane.advance_token (s : State) : (l.advance s).token = l.token := by simp [Lane.advance]

/-- With no active loop that ends at `a`, the lane's PC is `a` and nothing else changes (R130). -/
theorem endCheck_plain (a : Addr) (ns : List Nat) (h : ∀ n ∈ ns, ∀ x, l.loops[n]? = some x → x.act = true → x.stop ≠ a) :
    endCheck a ns l = { l with pc := a } := by
  induction ns with
  | nil => rfl
  | cons n r ih =>
    have hr := ih (fun m hm => h m (List.mem_cons_of_mem _ hm))
    simp only [endCheck]
    split
    · next x hx =>
      have := h n (List.mem_cons_self ..) x hx
      by_cases ha : x.act = true
      · simp [ha, this ha, hr]
      · simp [ha, hr]
    · exact hr

theorem Lane.goto_plain (a : Addr) (h : ∀ x ∈ l.loops, x.act = true → x.stop ≠ a) : l.goto a = { l with pc := a } := by
  refine endCheck_plain l a _ (fun n _ x hx ha => ?_)
  exact h x (List.mem_of_getElem? hx) ha

/-- Without an active loop the PC moves as told. -/
theorem Lane.goto_pc_idle (a : Addr) (h : ∀ x ∈ l.loops, x.act = false) : (l.goto a).pc = a := by
  rw [Lane.goto_plain l a (fun x hx ha => by simp [h x hx] at ha)]

end Sys2Proof.Machine
end

