-- ==== Sys2Proof/Laws/Bundle.lean ====
section
/-! SUPPORT. What a bundle does: the turns of its lanes one after another (spec/02 R57; spec/03 R83, R89), and the bundle of one lane. -/

namespace Sys2Proof.Machine

@[simp] theorem formTraps_nil (s : State) (pc : Addr) (len : Nat) : formTraps s pc len [] = s := rfl
@[simp] theorem postAll_nil (s : State) : postAll s [] = s := rfl

/-- The trap of one lane forms one sub-warp (R83). -/
theorem formTraps_one (s : State) (pc : Addr) (len : Nat) (k : LaneId) (t : TrapInfo) :
    formTraps s pc len [(k, t)] = parkSub s (LaneId.wid k) pc len [(k.lane, t)] := by
  simp [formTraps, warpsOf, List.firsts]

/-- A bundle without lanes leaves the state. -/
theorem runLanes_none (f : LaneId → Lane → State → LaneOut) (s : State) (h : s.cur.lanes = []) : runLanes f s = s := by
  simp [runLanes, h]

section one
variable {f : LaneId → Lane → State → LaneOut} {s : State} {k : LaneId} {l : Lane} (hc : s.cur.lanes = [k]) (hl : s.lane? k = some l)
include hc hl

/-- A lane alone that performs its instruction. -/
theorem runLanes_ok {t : State} (h : f k l s = .ok t) : runLanes f s = t := by simp [runLanes, hc, laneTurn, hl, h]

/-- A lane alone that traps. -/
theorem runLanes_trap {t : TrapInfo} (h : f k l s = .trap t) :
    runLanes f s = parkSub s (LaneId.wid k) s.cur.pc s.cur.len [(k.lane, t)] := by
  simp [runLanes, hc, laneTurn, hl, h, formTraps_one]

/-- A lane alone that traps after an effect. -/
theorem runLanes_trapWith {u : State} {t : TrapInfo} (h : f k l s = .trapWith u t) :
    runLanes f s = parkSub u (LaneId.wid k) s.cur.pc s.cur.len [(k.lane, t)] := by
  simp [runLanes, hc, laneTurn, hl, h, formTraps_one]

/-- A lane alone that waits. -/
theorem runLanes_wait (h : f k l s = .wait) : runLanes f s = { s with blocked := k :: s.blocked } := by
  simp [runLanes, hc, laneTurn, hl, h]

/-- What the abort of a lane's try by an instruction leaves: a conflict aborts before the issue, which the lane has then not made (spec/08 R206). -/
theorem runLanes_abort_any {u : State} {c : Nat} {v : BitVec 8} (h : f k l s = .abort u c v) :
    runLanes f s = if c = 4 then notIssued (abortTries u [k] c v) [k] else abortTries u [k] c v := by
  simp [runLanes, hc, laneTurn, hl, h]

/-- A lane alone whose try aborts at its own instruction. -/
theorem runLanes_abort {u : State} {c : Nat} {v : BitVec 8} (h : f k l s = .abort u c v) (h4 : c ≠ 4) : runLanes f s = abortTries u [k] c v := by
  simp [runLanes_abort_any hc hl h, h4]

end one

section gates
variable {e : Entry} {w : IWord} {f : LaneId → Lane → State → LaneOut} {k : LaneId} {l : Lane} {s : State}

theorem gated_go (h : gate e w k l s = .go) : gated e w f k l s = f k l s := by simp [gated, h]
theorem gated_skip (h : gate e w k l s = .skip) : gated e w f k l s = .ok (s.setLane k (l.advance s)) := by simp [gated, h]
theorem gated_wait (h : gate e w k l s = .wait) : gated e w f k l s = .wait := by simp [gated, h]
theorem gated_trap {t : TrapInfo} (h : gate e w k l s = .trap t) : gated e w f k l s = .trap t := by simp [gated, h]
theorem gated_abort {c : Nat} (h : gate e w k l s = .abort c) : gated e w f k l s = .abort s c 0 := by simp [gated, h]

end gates

section perLane
variable {e : Entry} {w : IWord} {f : IWord → LaneId → Lane → State → LaneOut} {s : State} {k : LaneId} {l : Lane}
  (hc : s.cur.lanes = [k]) (hl : s.lane? k = some l)
include hc hl

/-- A lane alone whose checks pass and that performs its instruction. -/
theorem perLane_ok {t : State} (hg : gate e w k l s = .go) (h : f w k l s = .ok t) : perLane e f w s = t :=
  runLanes_ok hc hl (by rw [gated_go hg, h])

/-- A lane alone whose checks pass and that traps. -/
theorem perLane_trap {t : TrapInfo} (hg : gate e w k l s = .go) (h : f w k l s = .trap t) :
    perLane e f w s = parkSub s (LaneId.wid k) s.cur.pc s.cur.len [(k.lane, t)] :=
  runLanes_trap hc hl (by rw [gated_go hg, h])

/-- A lane alone that is guarded off goes on at the next instruction (spec/02 R57; spec/05 R118). -/
theorem perLane_skip (hg : gate e w k l s = .skip) : perLane e f w s = s.setLane k (l.advance s) :=
  runLanes_ok hc hl (gated_skip hg)

/-- A lane alone that a check stops traps. -/
theorem perLane_check {t : TrapInfo} (hg : gate e w k l s = .trap t) :
    perLane e f w s = parkSub s (LaneId.wid k) s.cur.pc s.cur.len [(k.lane, t)] :=
  runLanes_trap hc hl (gated_trap hg)

/-- A lane alone that waits for its guard. -/
theorem perLane_blocked (hg : gate e w k l s = .wait) : perLane e f w s = { s with blocked := k :: s.blocked } :=
  runLanes_wait hc hl (gated_wait hg)

/-- A lane alone whose try aborts at the checks. -/
theorem perLane_abort {c : Nat} (hg : gate e w k l s = .abort c) :
    perLane e f w s = if c = 4 then notIssued (abortTries s [k] c 0) [k] else abortTries s [k] c 0 :=
  runLanes_abort_any hc hl (gated_abort hg)

end perLane

/-- A value of one operand has been read. -/
theorem withSrcs_val {s s1 s2 u : State} {k : LaneId} {l : Lane} {w : IWord} {ta tb tc : Ty} {a b c : Nat}
    {f : State → Nat → Nat → Nat → LaneOut} (ha : readSrc s k l w w.a w.wa ta = .val s1 a)
    (hb : readSrc s1 k l w w.b w.wb tb = .val s2 b) (hc : readSrc s2 k l w w.c w.wc tc = .val u c) :
    withSrcs s k l w ta tb tc f = f u a b c := by
  simp [withSrcs, ha, hb, hc]

end Sys2Proof.Machine
end

