-- ==== Sys2Proof/Laws/Delivered.lean ====
section
/-! SUPPORT. What delivering a result comes to, in the vocabulary of the statements (spec/01 R13, R15, R18 to R20; spec/04 R108). -/

namespace Sys2Proof.Machine

open Sys2Proof.Claims

/-- A lane that can deliver its result performs its instruction and leaves the state that `delivered` names. -/
theorem finish_of_delivered {s u : State} {k : LaneId} {w : IWord} {t : Ty} {v : Nat} {fl : Flags}
    (h : delivered s k w t v fl = some u) : finish s k w t v fl = .ok u := by
  unfold delivered at h
  unfold finish
  cases hl : s.lane? k with
  | none => simp [hl] at h
  | some l =>
    simp only [hl] at h ⊢
    by_cases ht : l.te &&& fl ≠ 0
    · rw [if_pos ht] at h; exact absurd h (by simp)
    · rw [if_neg ht] at h
      have hf : l.fpTraps fl = false := by simpa [Lane.fpTraps] using ht
      simp only [hf, Bool.false_eq_true, if_false]
      cases hd : w.d <;> simp only [hd, destReady, Option.some.injEq] at h ⊢
      case g r =>
        by_cases hr : l.regsFull (destRegs (.g r) t) = true
        · simp only [hr, if_true, Option.some.injEq] at h
          simp only [hr, Bool.not_true, Bool.false_eq_true, if_false]
          rw [← h]; rfl
        · simp [hr] at h
      case q n =>
        cases hp : pushQ s k n (List.replicate (tyRegs t) 0#32) w.b.code <;> simp only [hp] at h ⊢ <;>
          first
          | (simp at h; done)
          | (cases hq : pushQ (s.setLane k (l.raise fl)) k n (partsOf (tyRegs t) (extend t v)) w.b.code <;> simp only [hq] at h ⊢ <;>
              first
              | (simp at h; done)
              | (simp only [Option.map_eq_some_iff] at h
                 obtain ⟨m, hm, rfl⟩ := h
                 simp [hm]))
      all_goals simp [h]

/-- A lane alone whose checks pass and whose instruction ends in delivering a result. -/
theorem perLane_delivered {e : Entry} {w : IWord} {f : IWord → LaneId → Lane → State → LaneOut} {s s' u : State} {k : LaneId} {l : Lane} {t : Ty}
    {v : Nat} {fl : Flags} (hc : s.cur.lanes = [k]) (hl : s.lane? k = some l) (hg : gate e w k l s = .go)
    (h : f w k l s = finish s' k w t v fl) (hd : delivered s' k w t v fl = some u) : perLane e f w s = u :=
  perLane_ok hc hl hg (h.trans (finish_of_delivered hd))

end Sys2Proof.Machine
end

