-- ==== Sys2Proof/Laws/PerInstr.lean ====
section
/-! SUPPORT. One family of lemmas, an instruction each: the stored form of an instruction has the length that its header byte gives
(spec/02 R34, R36). -/

namespace Sys2Proof.Laws

/-- The header byte of an encoding and its other bytes. -/
theorem encodeWord_header (op : Nat) (w : IWord) (h : op < 1024) :
    ∃ b r, encodeWord op w = b :: r ∧ (encodeWord op w).length = lengthOf b := by
  have four : op / 256 < 4 := by omega
  unfold encodeWord
  simp only [List.cons_append, List.nil_append]
  refine ⟨_, _, rfl, ?_⟩
  generalize op / 256 = q at four ⊢
  simp only [List.length_cons, List.length_append, lengthOf]
  generalize w.ge = g
  generalize (w.c == .none) = c
  generalize (w.b == .none) = b
  generalize (w.wa || w.wb || w.wc) = v
  generalize (w.x == 0#32) = z
  generalize fitsX2 w.x = f
  have lens : (bytesLE 4 w.x.toNat).length = 4 ∧ (bytesLE 2 w.x.toNat).length = 2 := by constructor <;> rfl
  rcases lens with ⟨l4, l2⟩
  interval_cases q <;> cases g <;> cases c <;> cases b <;> cases v <;> cases z <;> cases f <;>
    simp [l4, l2] <;> decide

namespace StoredLength

/-- An instruction that has an internal word is stored in as many bytes as its header byte says; an event of the device is not stored. -/
def Statement (i : Instr) : Prop :=
  match i.word with
  | some _ => ∃ b r, encode i = b :: r ∧ (encode i).length = lengthOf b
  | none => encode i = []

theorem of_word {i : Instr} (op : Nat) (w : IWord) (h : op < 1024) (ho : i.op = some op) (hw : i.word = some w) : Statement i := by
  have e : encode i = encodeWord op w := by simp only [encode, ho, hw]
  unfold Statement
  rw [hw, e]
  exact encodeWord_header op w h

theorem of_event (i : Instr) (hw : i.word = none) : Statement i := by
  unfold Statement encode
  rw [hw]
  cases i.op <;> rfl

theorem nop (w : IWord) : Statement (.nop w) := of_word 0x000 w (by decide) rfl rfl
theorem bra (w : IWord) : Statement (.bra w) := of_word 0x001 w (by decide) rfl rfl
theorem brx (w : IWord) : Statement (.brx w) := of_word 0x002 w (by decide) rfl rfl
theorem call (w : IWord) : Statement (.call w) := of_word 0x003 w (by decide) rfl rfl
theorem callx (w : IWord) : Statement (.callx w) := of_word 0x004 w (by decide) rfl rfl
theorem ret (w : IWord) : Statement (.ret w) := of_word 0x005 w (by decide) rfl rfl
theorem exit (w : IWord) : Statement (.exit w) := of_word 0x006 w (by decide) rfl rfl
theorem join (w : IWord) : Statement (.join w) := of_word 0x007 w (by decide) rfl rfl
theorem leave (w : IWord) : Statement (.leave w) := of_word 0x008 w (by decide) rfl rfl
theorem waitm (w : IWord) : Statement (.waitm w) := of_word 0x009 w (by decide) rfl rfl
theorem mset (w : IWord) : Statement (.mset w) := of_word 0x00A w (by decide) rfl rfl
theorem mget (w : IWord) : Statement (.mget w) := of_word 0x00B w (by decide) rfl rfl
theorem mand (w : IWord) : Statement (.mand w) := of_word 0x00C w (by decide) rfl rfl
theorem mor (w : IWord) : Statement (.mor w) := of_word 0x00D w (by decide) rfl rfl
theorem mnot (w : IWord) : Statement (.mnot w) := of_word 0x00E w (by decide) rfl rfl
theorem yield (w : IWord) : Statement (.yield w) := of_word 0x00F w (by decide) rfl rfl
theorem loop (w : IWord) : Statement (.loop w) := of_word 0x010 w (by decide) rfl rfl
theorem loopx (w : IWord) : Statement (.loopx w) := of_word 0x011 w (by decide) rfl rfl
theorem lbrk (w : IWord) : Statement (.lbrk w) := of_word 0x012 w (by decide) rfl rfl
theorem barg (w : IWord) : Statement (.barg w) := of_word 0x013 w (by decide) rfl rfl
theorem barn (w : IWord) : Statement (.barn w) := of_word 0x014 w (by decide) rfl rfl
theorem feset (w : IWord) : Statement (.feset w) := of_word 0x015 w (by decide) rfl rfl
theorem feclr (w : IWord) : Statement (.feclr w) := of_word 0x016 w (by decide) rfl rfl
theorem mov (w : IWord) : Statement (.mov w) := of_word 0x040 w (by decide) rfl rfl
theorem movi (w : IWord) : Statement (.movi w) := of_word 0x041 w (by decide) rfl rfl
theorem iadd (w : IWord) : Statement (.iadd w) := of_word 0x042 w (by decide) rfl rfl
theorem isub (w : IWord) : Statement (.isub w) := of_word 0x043 w (by decide) rfl rfl
theorem ineg (w : IWord) : Statement (.ineg w) := of_word 0x044 w (by decide) rfl rfl
theorem iabs (w : IWord) : Statement (.iabs w) := of_word 0x045 w (by decide) rfl rfl
theorem imul (w : IWord) : Statement (.imul w) := of_word 0x046 w (by decide) rfl rfl
theorem imulh (w : IWord) : Statement (.imulh w) := of_word 0x047 w (by decide) rfl rfl
theorem imad (w : IWord) : Statement (.imad w) := of_word 0x048 w (by decide) rfl rfl
theorem imadw (w : IWord) : Statement (.imadw w) := of_word 0x049 w (by decide) rfl rfl
theorem idiv (w : IWord) : Statement (.idiv w) := of_word 0x04A w (by decide) rfl rfl
theorem irem (w : IWord) : Statement (.irem w) := of_word 0x04B w (by decide) rfl rfl
theorem imin (w : IWord) : Statement (.imin w) := of_word 0x04C w (by decide) rfl rfl
theorem imax (w : IWord) : Statement (.imax w) := of_word 0x04D w (by decide) rfl rfl
theorem iset (w : IWord) : Statement (.iset w) := of_word 0x04E w (by decide) rfl rfl
theorem sel (w : IWord) : Statement (.sel w) := of_word 0x04F w (by decide) rfl rfl
theorem and (w : IWord) : Statement (.and w) := of_word 0x050 w (by decide) rfl rfl
theorem or (w : IWord) : Statement (.or w) := of_word 0x051 w (by decide) rfl rfl
theorem xor (w : IWord) : Statement (.xor w) := of_word 0x052 w (by decide) rfl rfl
theorem not (w : IWord) : Statement (.not w) := of_word 0x053 w (by decide) rfl rfl
theorem shl (w : IWord) : Statement (.shl w) := of_word 0x054 w (by decide) rfl rfl
theorem shr (w : IWord) : Statement (.shr w) := of_word 0x055 w (by decide) rfl rfl
theorem sar (w : IWord) : Statement (.sar w) := of_word 0x056 w (by decide) rfl rfl
theorem rot (w : IWord) : Statement (.rot w) := of_word 0x057 w (by decide) rfl rfl
theorem bfx (w : IWord) : Statement (.bfx w) := of_word 0x058 w (by decide) rfl rfl
theorem bfi (w : IWord) : Statement (.bfi w) := of_word 0x059 w (by decide) rfl rfl
theorem popc (w : IWord) : Statement (.popc w) := of_word 0x05A w (by decide) rfl rfl
theorem clz (w : IWord) : Statement (.clz w) := of_word 0x05B w (by decide) rfl rfl
theorem ctz (w : IWord) : Statement (.ctz w) := of_word 0x05C w (by decide) rfl rfl
theorem brev (w : IWord) : Statement (.brev w) := of_word 0x05D w (by decide) rfl rfl
theorem prmb (w : IWord) : Statement (.prmb w) := of_word 0x05E w (by decide) rfl rfl
theorem lea (w : IWord) : Statement (.lea w) := of_word 0x05F w (by decide) rfl rfl
theorem fadd (w : IWord) : Statement (.fadd w) := of_word 0x080 w (by decide) rfl rfl
theorem fsub (w : IWord) : Statement (.fsub w) := of_word 0x081 w (by decide) rfl rfl
theorem fmul (w : IWord) : Statement (.fmul w) := of_word 0x082 w (by decide) rfl rfl
theorem ffma (w : IWord) : Statement (.ffma w) := of_word 0x083 w (by decide) rfl rfl
theorem fmin (w : IWord) : Statement (.fmin w) := of_word 0x084 w (by decide) rfl rfl
theorem fmax (w : IWord) : Statement (.fmax w) := of_word 0x085 w (by decide) rfl rfl
theorem fabs (w : IWord) : Statement (.fabs w) := of_word 0x086 w (by decide) rfl rfl
theorem fneg (w : IWord) : Statement (.fneg w) := of_word 0x087 w (by decide) rfl rfl
theorem fset (w : IWord) : Statement (.fset w) := of_word 0x088 w (by decide) rfl rfl
theorem fclass (w : IWord) : Statement (.fclass w) := of_word 0x089 w (by decide) rfl rfl
theorem fdot2 (w : IWord) : Statement (.fdot2 w) := of_word 0x08A w (by decide) rfl rfl
theorem hadd2 (w : IWord) : Statement (.hadd2 w) := of_word 0x08B w (by decide) rfl rfl
theorem hmul2 (w : IWord) : Statement (.hmul2 w) := of_word 0x08C w (by decide) rfl rfl
theorem hfma2 (w : IWord) : Statement (.hfma2 w) := of_word 0x08D w (by decide) rfl rfl
theorem cvt (w : IWord) : Statement (.cvt w) := of_word 0x0C0 w (by decide) rfl rfl
theorem qgrp (w : IWord) : Statement (.qgrp w) := of_word 0x0C1 w (by decide) rfl rfl
theorem dqgrp (w : IWord) : Statement (.dqgrp w) := of_word 0x0C2 w (by decide) rfl rfl
theorem amxrec (w : IWord) : Statement (.amxrec w) := of_word 0x0C3 w (by decide) rfl rfl
theorem amxget (w : IWord) : Statement (.amxget w) := of_word 0x0C4 w (by decide) rfl rfl
theorem bexp (w : IWord) : Statement (.bexp w) := of_word 0x0C5 w (by decide) rfl rfl
theorem absent (w : IWord) : Statement (.absent w) := of_word 0x0C6 w (by decide) rfl rfl
theorem absentMk (w : IWord) : Statement (.absentMk w) := of_word 0x0C6 w (by decide) rfl rfl
theorem rcp (w : IWord) : Statement (.rcp w) := of_word 0x100 w (by decide) rfl rfl
theorem rsq (w : IWord) : Statement (.rsq w) := of_word 0x101 w (by decide) rfl rfl
theorem sqrt (w : IWord) : Statement (.sqrt w) := of_word 0x102 w (by decide) rfl rfl
theorem exp2 (w : IWord) : Statement (.exp2 w) := of_word 0x103 w (by decide) rfl rfl
theorem log2 (w : IWord) : Statement (.log2 w) := of_word 0x104 w (by decide) rfl rfl
theorem sinpi (w : IWord) : Statement (.sinpi w) := of_word 0x105 w (by decide) rfl rfl
theorem cospi (w : IWord) : Statement (.cospi w) := of_word 0x106 w (by decide) rfl rfl
theorem tanh (w : IWord) : Statement (.tanh w) := of_word 0x107 w (by decide) rfl rfl
theorem padd (w : IWord) : Statement (.padd w) := of_word 0x108 w (by decide) rfl rfl
theorem psub (w : IWord) : Statement (.psub w) := of_word 0x109 w (by decide) rfl rfl
theorem pmin (w : IWord) : Statement (.pmin w) := of_word 0x10A w (by decide) rfl rfl
theorem pmax (w : IWord) : Statement (.pmax w) := of_word 0x10B w (by decide) rfl rfl
theorem pavg (w : IWord) : Statement (.pavg w) := of_word 0x10C w (by decide) rfl rfl
theorem pabd (w : IWord) : Statement (.pabd w) := of_word 0x10D w (by decide) rfl rfl
theorem psad (w : IWord) : Statement (.psad w) := of_word 0x10E w (by decide) rfl rfl
theorem pmad (w : IWord) : Statement (.pmad w) := of_word 0x10F w (by decide) rfl rfl
theorem pshr (w : IWord) : Statement (.pshr w) := of_word 0x110 w (by decide) rfl rfl
theorem ppack (w : IWord) : Statement (.ppack w) := of_word 0x111 w (by decide) rfl rfl
theorem punpk (w : IWord) : Statement (.punpk w) := of_word 0x112 w (by decide) rfl rfl
theorem pclmp (w : IWord) : Statement (.pclmp w) := of_word 0x113 w (by decide) rfl rfl
theorem shfi (w : IWord) : Statement (.shfi w) := of_word 0x140 w (by decide) rfl rfl
theorem shfu (w : IWord) : Statement (.shfu w) := of_word 0x141 w (by decide) rfl rfl
theorem shfd (w : IWord) : Statement (.shfd w) := of_word 0x142 w (by decide) rfl rfl
theorem shfx (w : IWord) : Statement (.shfx w) := of_word 0x143 w (by decide) rfl rfl
theorem bcst (w : IWord) : Statement (.bcst w) := of_word 0x144 w (by decide) rfl rfl
theorem qswh (w : IWord) : Statement (.qswh w) := of_word 0x145 w (by decide) rfl rfl
theorem qswv (w : IWord) : Statement (.qswv w) := of_word 0x146 w (by decide) rfl rfl
theorem qswd (w : IWord) : Statement (.qswd w) := of_word 0x147 w (by decide) rfl rfl
theorem qbcst (w : IWord) : Statement (.qbcst w) := of_word 0x148 w (by decide) rfl rfl
theorem vany (w : IWord) : Statement (.vany w) := of_word 0x149 w (by decide) rfl rfl
theorem vall (w : IWord) : Statement (.vall w) := of_word 0x14A w (by decide) rfl rfl
theorem vbal (w : IWord) : Statement (.vbal w) := of_word 0x14B w (by decide) rfl rfl
theorem scani (w : IWord) : Statement (.scani w) := of_word 0x14C w (by decide) rfl rfl
theorem scane (w : IWord) : Statement (.scane w) := of_word 0x14D w (by decide) rfl rfl
theorem redw (w : IWord) : Statement (.redw w) := of_word 0x14E w (by decide) rfl rfl
theorem matchLanes (w : IWord) : Statement (.matchLanes w) := of_word 0x14F w (by decide) rfl rfl
theorem elect (w : IWord) : Statement (.elect w) := of_word 0x150 w (by decide) rfl rfl
theorem ld (w : IWord) : Statement (.ld w) := of_word 0x180 w (by decide) rfl rfl
theorem st (w : IWord) : Statement (.st w) := of_word 0x181 w (by decide) rfl rfl
theorem lds (w : IWord) : Statement (.lds w) := of_word 0x182 w (by decide) rfl rfl
theorem sts (w : IWord) : Statement (.sts w) := of_word 0x183 w (by decide) rfl rfl
theorem ldc (w : IWord) : Statement (.ldc w) := of_word 0x184 w (by decide) rfl rfl
theorem pref (w : IWord) : Statement (.pref w) := of_word 0x185 w (by decide) rfl rfl
theorem fence (w : IWord) : Statement (.fence w) := of_word 0x186 w (by decide) rfl rfl
theorem aadd (w : IWord) : Statement (.aadd w) := of_word 0x1C0 w (by decide) rfl rfl
theorem amin (w : IWord) : Statement (.amin w) := of_word 0x1C1 w (by decide) rfl rfl
theorem amax (w : IWord) : Statement (.amax w) := of_word 0x1C2 w (by decide) rfl rfl
theorem aand (w : IWord) : Statement (.aand w) := of_word 0x1C3 w (by decide) rfl rfl
theorem aor (w : IWord) : Statement (.aor w) := of_word 0x1C4 w (by decide) rfl rfl
theorem axor (w : IWord) : Statement (.axor w) := of_word 0x1C5 w (by decide) rfl rfl
theorem axch (w : IWord) : Statement (.axch w) := of_word 0x1C6 w (by decide) rfl rfl
theorem acas (w : IWord) : Statement (.acas w) := of_word 0x1C7 w (by decide) rfl rfl
theorem aincb (w : IWord) : Statement (.aincb w) := of_word 0x1C8 w (by decide) rfl rfl
theorem aincw (w : IWord) : Statement (.aincw w) := of_word 0x1C9 w (by decide) rfl rfl
theorem adecz (w : IWord) : Statement (.adecz w) := of_word 0x1CA w (by decide) rfl rfl
theorem aaddl (w : IWord) : Statement (.aaddl w) := of_word 0x1CB w (by decide) rfl rfl
theorem radd (w : IWord) : Statement (.radd w) := of_word 0x1CC w (by decide) rfl rfl
theorem rmin (w : IWord) : Statement (.rmin w) := of_word 0x1CD w (by decide) rfl rfl
theorem rmax (w : IWord) : Statement (.rmax w) := of_word 0x1CE w (by decide) rfl rfl
theorem dqpush (w : IWord) : Statement (.dqpush w) := of_word 0x1CF w (by decide) rfl rfl
theorem dqpop (w : IWord) : Statement (.dqpop w) := of_word 0x1D0 w (by decide) rfl rfl
theorem dqsteal (w : IWord) : Statement (.dqsteal w) := of_word 0x1D1 w (by decide) rfl rfl
theorem marm (w : IWord) : Statement (.marm w) := of_word 0x1D2 w (by decide) rfl rfl
theorem mwait (w : IWord) : Statement (.mwait w) := of_word 0x1D3 w (by decide) rfl rfl
theorem snew (w : IWord) : Statement (.snew w) := of_word 0x200 w (by decide) rfl rfl
theorem sfree (w : IWord) : Statement (.sfree w) := of_word 0x201 w (by decide) rfl rfl
theorem sins (w : IWord) : Statement (.sins w) := of_word 0x202 w (by decide) rfl rfl
theorem sdel (w : IWord) : Statement (.sdel w) := of_word 0x203 w (by decide) rfl rfl
theorem shas (w : IWord) : Statement (.shas w) := of_word 0x204 w (by decide) rfl rfl
theorem scard (w : IWord) : Statement (.scard w) := of_word 0x205 w (by decide) rfl rfl
theorem suni (w : IWord) : Statement (.suni w) := of_word 0x206 w (by decide) rfl rfl
theorem sint (w : IWord) : Statement (.sint w) := of_word 0x207 w (by decide) rfl rfl
theorem sdif (w : IWord) : Statement (.sdif w) := of_word 0x208 w (by decide) rfl rfl
theorem scpy (w : IWord) : Statement (.scpy w) := of_word 0x209 w (by decide) rfl rfl
theorem sclr (w : IWord) : Statement (.sclr w) := of_word 0x20A w (by decide) rfl rfl
theorem snext (w : IWord) : Statement (.snext w) := of_word 0x20B w (by decide) rfl rfl
theorem srank (w : IWord) : Statement (.srank w) := of_word 0x20C w (by decide) rfl rfl
theorem sload (w : IWord) : Statement (.sload w) := of_word 0x20D w (by decide) rfl rfl
theorem sstor (w : IWord) : Statement (.sstor w) := of_word 0x20E w (by decide) rfl rfl
theorem scost (w : IWord) : Statement (.scost w) := of_word 0x20F w (by decide) rfl rfl
theorem srep (w : IWord) : Statement (.srep w) := of_word 0x210 w (by decide) rfl rfl
theorem macq (w : IWord) : Statement (.macq w) := of_word 0x240 w (by decide) rfl rfl
theorem mrel (w : IWord) : Statement (.mrel w) := of_word 0x241 w (by decide) rfl rfl
theorem mcfg (w : IWord) : Statement (.mcfg w) := of_word 0x242 w (by decide) rfl rfl
theorem mwld (w : IWord) : Statement (.mwld w) := of_word 0x243 w (by decide) rfl rfl
theorem mstr (w : IWord) : Statement (.mstr w) := of_word 0x244 w (by decide) rfl rfl
theorem mspr (w : IWord) : Statement (.mspr w) := of_word 0x245 w (by decide) rfl rfl
theorem mdrn (w : IWord) : Statement (.mdrn w) := of_word 0x246 w (by decide) rfl rfl
theorem mzer (w : IWord) : Statement (.mzer w) := of_word 0x247 w (by decide) rfl rfl
theorem mlda (w : IWord) : Statement (.mlda w) := of_word 0x248 w (by decide) rfl rfl
theorem msta (w : IWord) : Statement (.msta w) := of_word 0x249 w (by decide) rfl rfl
theorem mcnt (w : IWord) : Statement (.mcnt w) := of_word 0x24A w (by decide) rfl rfl
theorem msync (w : IWord) : Statement (.msync w) := of_word 0x24B w (by decide) rfl rfl
theorem mstat (w : IWord) : Statement (.mstat w) := of_word 0x24C w (by decide) rfl rfl
theorem cpy (w : IWord) : Statement (.cpy w) := of_word 0x280 w (by decide) rfl rfl
theorem cpyw (w : IWord) : Statement (.cpyw w) := of_word 0x281 w (by decide) rfl rfl
theorem cpywClr (w : IWord) : Statement (.cpywClr w) := of_word 0x281 w (by decide) rfl rfl
theorem cpyt (w : IWord) : Statement (.cpyt w) := of_word 0x282 w (by decide) rfl rfl
theorem chwp (w : IWord) : Statement (.chwp w) := of_word 0x283 w (by decide) rfl rfl
theorem swait (w : IWord) : Statement (.swait w) := of_word 0x284 w (by decide) rfl rfl
theorem swaitAll (w : IWord) : Statement (.swaitAll w) := of_word 0x284 w (by decide) rfl rfl
theorem iscfg (w : IWord) : Statement (.iscfg w) := of_word 0x285 w (by decide) rfl rfl
theorem isgo (w : IWord) : Statement (.isgo w) := of_word 0x286 w (by decide) rfl rfl
theorem isstp (w : IWord) : Statement (.isstp w) := of_word 0x287 w (by decide) rfl rfl
theorem itdef (w : IWord) : Statement (.itdef w) := of_word 0x288 w (by decide) rfl rfl
theorem sweep (w : IWord) : Statement (.sweep w) := of_word 0x289 w (by decide) rfl rfl
theorem srd (w : IWord) : Statement (.srd w) := of_word 0x28A w (by decide) rfl rfl
theorem tryOpen (w : IWord) : Statement (.tryOpen w) := of_word 0x2C0 w (by decide) rfl rfl
theorem commit (w : IWord) : Statement (.commit w) := of_word 0x2C1 w (by decide) rfl rfl
theorem abortTry (w : IWord) : Statement (.abortTry w) := of_word 0x2C2 w (by decide) rfl rfl
theorem tstat (w : IWord) : Statement (.tstat w) := of_word 0x2C3 w (by decide) rfl rfl
theorem qcfg (w : IWord) : Statement (.qcfg w) := of_word 0x2C4 w (by decide) rfl rfl
theorem qlen (w : IWord) : Statement (.qlen w) := of_word 0x2C5 w (by decide) rfl rfl
theorem qrst (w : IWord) : Statement (.qrst w) := of_word 0x2C6 w (by decide) rfl rfl
theorem trap (w : IWord) : Statement (.trap w) := of_word 0x300 w (by decide) rfl rfl
theorem tret (w : IWord) : Statement (.tret w) := of_word 0x301 w (by decide) rfl rfl
theorem tretSkip (w : IWord) : Statement (.tretSkip w) := of_word 0x301 w (by decide) rfl rfl
theorem tretEndg (w : IWord) : Statement (.tretEndg w) := of_word 0x301 w (by decide) rfl rfl
theorem tretEndr (w : IWord) : Statement (.tretEndr w) := of_word 0x301 w (by decide) rfl rfl
theorem mfs (w : IWord) : Statement (.mfs w) := of_word 0x302 w (by decide) rfl rfl
theorem mts (w : IWord) : Statement (.mts w) := of_word 0x303 w (by decide) rfl rfl
theorem lnch (w : IWord) : Statement (.lnch w) := of_word 0x304 w (by decide) rfl rfl
theorem ltrig (w : IWord) : Statement (.ltrig w) := of_word 0x305 w (by decide) rfl rfl
theorem idem (w : IWord) : Statement (.idem w) := of_word 0x306 w (by decide) rfl rfl
theorem bkpt (w : IWord) : Statement (.bkpt w) := of_word 0x340 w (by decide) rfl rfl
theorem watch (w : IWord) : Statement (.watch w) := of_word 0x341 w (by decide) rfl rfl
theorem unwatch (w : IWord) : Statement (.unwatch w) := of_word 0x342 w (by decide) rfl rfl
theorem cntr (w : IWord) : Statement (.cntr w) := of_word 0x343 w (by decide) rfl rfl
theorem cntrst (w : IWord) : Statement (.cntrst w) := of_word 0x344 w (by decide) rfl rfl
theorem tmark (w : IWord) : Statement (.tmark w) := of_word 0x345 w (by decide) rfl rfl
theorem faultWord (cause : Cause) (offset : Nat) (len : Nat) : Statement (.faultWord cause offset len) := of_event _ rfl
theorem instructionFill (core : Nat) (ctx : Nat) (va : BitVec 64) : Statement (.instructionFill core ctx va) := of_event _ rfl
theorem overdue (w : WarpId) : Statement (.overdue w) := of_event _ rfl
theorem pathTimerExpiry (w : WarpId) : Statement (.pathTimerExpiry w) := of_event _ rfl
theorem warpSwapOut (out : WarpId) : Statement (.warpSwapOut out) := of_event _ rfl
theorem activeSetAging (w : WarpId) : Statement (.activeSetAging w) := of_event _ rfl
theorem delivery (l : LaneId) (k : Nat) : Statement (.delivery l k) := of_event _ rfl
theorem failedDelivery (l : LaneId) (k : Nat) (cause : Cause) : Statement (.failedDelivery l k cause) := of_event _ rfl
theorem trapDelivery (g : GroupId) : Statement (.trapDelivery g) := of_event _ rfl
theorem replay (w : WarpId) : Statement (.replay w) := of_event _ rfl
theorem watchdog (g : GroupId) : Statement (.watchdog g) := of_event _ rfl
theorem admissionGrant (die : Nat) : Statement (.admissionGrant die) := of_event _ rfl
theorem admissionTimeout (die : Nat) (k : Nat) : Statement (.admissionTimeout die k) := of_event _ rfl
theorem mwaitTimeout (l : LaneId) : Statement (.mwaitTimeout l) := of_event _ rfl
theorem writeApply (die : Nat) (k : Nat) : Statement (.writeApply die k) := of_event _ rfl
theorem squareOperation (die : Nat) : Statement (.squareOperation die) := of_event _ rfl
theorem setOperation (die : Nat) : Statement (.setOperation die) := of_event _ rfl
theorem cqCommand (l : LaneId) : Statement (.cqCommand l) := of_event _ rfl
theorem copyChunk (core : Nat) (ticket : BitVec 32) (chunk : Nat) : Statement (.copyChunk core ticket chunk) := of_event _ rfl
theorem sweepRetire (core : Nat) (ticket : BitVec 32) : Statement (.sweepRetire core ticket) := of_event _ rfl
theorem indirectStreamPush (core : Nat) (ticket : BitVec 32) : Statement (.indirectStreamPush core ticket) := of_event _ rfl
theorem streamCompletion (core : Nat) (ticket : BitVec 32) : Statement (.streamCompletion core ticket) := of_event _ rfl
theorem cdEntryDelivery (core : Nat) : Statement (.cdEntryDelivery core) := of_event _ rfl
theorem matrixCommand (core : Nat) : Statement (.matrixCommand core) := of_event _ rfl
theorem nvmeCompletion (ctx : Nat) (binding : Nat) (cid : BitVec 16) : Statement (.nvmeCompletion ctx binding cid) := of_event _ rfl
theorem nvmeTimeout (core : Nat) (ticket : BitVec 32) : Statement (.nvmeTimeout core ticket) := of_event _ rfl
theorem remoteTimeout (l : LaneId) (k : Nat) : Statement (.remoteTimeout l k) := of_event _ rfl
theorem launchRecord (q : Nat) : Statement (.launchRecord q) := of_event _ rfl
theorem gridReady (q : Nat) : Statement (.gridReady q) := of_event _ rfl
theorem priorityAging (q : Nat) : Statement (.priorityAging q) := of_event _ rfl
theorem gangPlacement (gang : Nat) (close : Nat) : Statement (.gangPlacement gang close) := of_event _ rfl
theorem gangRetire (gang : Nat) : Statement (.gangRetire gang) := of_event _ rfl
theorem launchPreempt (waiting : Nat) (victim : Nat) : Statement (.launchPreempt waiting victim) := of_event _ rfl
theorem drainDeadline (gang : Nat) : Statement (.drainDeadline gang) := of_event _ rfl
theorem save (gang : Nat) : Statement (.save gang) := of_event _ rfl
theorem preempt (ctx : Nat) : Statement (.preempt ctx) := of_event _ rfl
theorem kill (ctx : Nat) : Statement (.kill ctx) := of_event _ rfl
theorem destroy (ctx : Nat) : Statement (.destroy ctx) := of_event _ rfl
theorem xinv (die : Nat) (value : BitVec 64) : Statement (.xinv die value) := of_event _ rfl
theorem xreplay (die : Nat) (value : BitVec 64) : Statement (.xreplay die value) := of_event _ rfl
theorem promote (engine : Nat) : Statement (.promote engine) := of_event _ rfl
theorem demote (engine : Nat) : Statement (.demote engine) := of_event _ rfl
theorem engineResetStream (core : Nat) : Statement (.engineResetStream core) := of_event _ rfl
theorem engineResetMatrix (core : Nat) : Statement (.engineResetMatrix core) := of_event _ rfl
theorem engineResetSquare (die : Nat) : Statement (.engineResetSquare die) := of_event _ rfl
theorem engineResetSkim (engine : Nat) : Statement (.engineResetSkim engine) := of_event _ rfl
theorem mrst : Statement .mrst := of_event _ rfl
theorem pcieConventionalReset : Statement .pcieConventionalReset := of_event _ rfl
theorem functionLevelReset : Statement .functionLevelReset := of_event _ rfl
theorem modctlAbort (ctx : Nat) (byHost : Bool) : Statement (.modctlAbort ctx byHost) := of_event _ rfl
theorem selfTest (bit : Nat) (passed : Bool) : Statement (.selfTest bit passed) := of_event _ rfl
theorem firmwareVerify (result : Nat) (svn : BitVec 32) : Statement (.firmwareVerify result svn) := of_event _ rfl
theorem squareReady (die : Nat) (value : BitVec 64) : Statement (.squareReady die value) := of_event _ rfl
theorem junctionAboveThot (die : Nat) : Statement (.junctionAboveThot die) := of_event _ rfl
theorem thermalHalt : Statement .thermalHalt := of_event _ rfl
theorem machineCheck (die : Nat) (unit : Nat) : Statement (.machineCheck die unit) := of_event _ rfl
theorem attestationReport : Statement .attestationReport := of_event _ rfl
theorem identityCertificate : Statement .identityCertificate := of_event _ rfl
theorem keyLoad : Statement .keyLoad := of_event _ rfl
theorem keyUnload : Statement .keyUnload := of_event _ rfl
theorem halt (ctx : Nat) : Statement (.halt ctx) := of_event _ rfl
theorem go (ctx : Nat) : Statement (.go ctx) := of_event _ rfl
theorem dbgstep (ctx : Nat) (value : BitVec 64) : Statement (.dbgstep ctx value) := of_event _ rfl
theorem dbgselRead (ctx : Nat) (value : BitVec 64) : Statement (.dbgselRead ctx value) := of_event _ rfl
theorem dbgselWrite (ctx : Nat) (value : BitVec 64) : Statement (.dbgselWrite ctx value) := of_event _ rfl
theorem dbgdump (ctx : Nat) (value : BitVec 64) : Statement (.dbgdump ctx value) := of_event _ rfl
theorem trdropRead (die : Nat) : Statement (.trdropRead die) := of_event _ rfl
theorem registerWrite (r : MReg) (value : BitVec 64) : Statement (.registerWrite r value) := of_event _ rfl
theorem junctionBelowThot (die : Nat) : Statement (.junctionBelowThot die) := of_event _ rfl
theorem spuriousWake (l : LaneId) : Statement (.spuriousWake l) := of_event _ rfl
theorem fabricError (l : LaneId) (k : Nat) : Statement (.fabricError l k) := of_event _ rfl
theorem admresChange (die : Nat) (units : BitVec 16) : Statement (.admresChange die units) := of_event _ rfl
theorem routingTableUpdate (module : BitVec 3) (dsize : BitVec 3) (signed : SignedTable) :
    Statement (.routingTableUpdate module dsize signed) := of_event _ rfl
theorem badcmd (engine : Nat) : Statement (.badcmd engine) := of_event _ rfl

end StoredLength

end Sys2Proof.Laws
end

