-- ==== Sys2Proof/Laws/Recheck.lean ====
section
/-! SUPPORT. The rechecks of masks and barriers where no lane is parked: nothing changes (spec/03 R77, R78; spec/05 R134). -/

namespace Sys2Proof.Machine

theorem mfind_mem {K V : Type} [DecidableEq K] {m : List (K × V)} {k : K} {v : V} (h : mfind m k = some v) : (k, v) ∈ m := by
  induction m with
  | nil => simp [mfind] at h
  | cons p r ih =>
    by_cases hk : p.1 = k
    · simp [mfind, hk] at h; subst hk; subst h; exact List.mem_cons_self ..
    · simp [mfind, hk] at h; exact List.mem_cons_of_mem _ (ih h)

/-- A lane found among a warp's lanes is in the map under its name. -/
theorem mem_warpLanes {s : State} {w : WarpId} {p : Nat × Lane} (h : p ∈ warpLanes s w) :
    s.lane? ⟨w.gang, w.group, w.warp, p.1⟩ = some p.2 := by
  simp only [warpLanes, List.mem_filterMap, Option.map_eq_some_iff] at h
  obtain ⟨i, _, l, hl, rfl⟩ := h
  exact hl

theorem TState.parked_waitsOn {st : TState} {m : Nat} (h : st.waitsOn m = true) : st.parked = true := by cases st <;> simp_all [TState.waitsOn, TState.parked]
theorem TState.parked_atBarg {st : TState} (h : st.atBarg = true) : st.parked = true := by cases st <;> simp_all [TState.atBarg, TState.parked]
theorem TState.parked_barrier {st : TState} (h : st.barrier.isSome = true) : st.parked = true := by
  cases st <;> simp_all [TState.barrier, TState.parked]

/-- No lane of a warp is parked. -/
def warpUnparked (s : State) (w : WarpId) : Prop := ∀ p ∈ warpLanes s w, p.2.st.parked = false

/-- A fold whose steps leave the state leaves it. -/
theorem foldl_fixed {A B : Type} {f : A → B → A} {s : A} (ms : List B) (h : ∀ m ∈ ms, f s m = s) : ms.foldl f s = s := by
  induction ms with
  | nil => rfl
  | cons m ms ih =>
    rw [List.foldl_cons, h m (List.mem_cons_self ..)]
    exact ih (fun n hn => h n (List.mem_cons_of_mem _ hn))

theorem recheckWaits_idle {s : State} {w : WarpId} (h : warpUnparked s w) : recheckWaits s w = s := by
  have hp : ∀ m, (warpLanes s w).filter (fun p => p.2.st.waitsOn m) = [] := by
    intro m
    refine List.filter_eq_nil_iff.2 (fun p hp => ?_)
    exact fun hw => by have := TState.parked_waitsOn hw; rw [h p hp] at this; exact absurd this (by decide)
  refine foldl_fixed _ (fun m _ => ?_)
  cases hw : s.warp? w with
  | none => rfl
  | some x => simp only [hp m, List.filter_nil, List.isEmpty_nil, if_true, true_or]

/-- No unexited lane of a gang is parked. -/
def gangIdle (s : State) (gang : Nat) : Prop := ∀ p ∈ liveLanes s gang, p.2.st.parked = false

theorem barrierMet_idle {s : State} {ls : List (LaneId × Lane)} {n : Bool} (h : ∀ p ∈ ls, p.2.st.parked = false) :
    barrierMet s ls n = false := by
  cases ls with
  | nil => rfl
  | cons p r =>
    have := h p (List.mem_cons_self ..)
    cases hs : p.2.st <;> simp only [hs, TState.parked, Bool.true_eq_false] at this <;> simp only [barrierMet, hs, TState.barrier]

/-- Where no lane of the gang is parked, no barrier changes. -/
theorem recheckBars_idle {s : State} {gang : Nat} (h : gangIdle s gang) : recheckBars s gang = s := by
  have fst : ∀ g, (∀ p ∈ (liveLanes s gang).filter (fun p => LaneId.grp p.1 == g), p.2.st.parked = false) :=
    fun g p hp => h p (List.mem_of_mem_filter hp)
  have all1 : ∀ (ls : List (LaneId × Lane)), (∀ p ∈ ls, p.2.st.parked = false) →
      ¬ (ls ≠ [] ∧ ls.all (fun p => p.2.st.atBarg) = true) := by
    intro ls hl ⟨hn, ha⟩
    cases ls with
    | nil => exact hn rfl
    | cons p r =>
      simp only [List.all_cons, Bool.and_eq_true] at ha
      have := TState.parked_atBarg ha.1
      rw [hl p (List.mem_cons_self ..)] at this
      exact absurd this (by decide)
  have all2 : ∀ (ls : List (LaneId × Lane)), (∀ p ∈ ls, p.2.st.parked = false) →
      ¬ (ls ≠ [] ∧ ls.all (fun p => p.2.st.barrier.isSome) = true) := by
    intro ls hl ⟨hn, ha⟩
    cases ls with
    | nil => exact hn rfl
    | cons p r =>
      simp only [List.all_cons, Bool.and_eq_true] at ha
      have := TState.parked_barrier ha.1
      rw [hl p (List.mem_cons_self ..)] at this
      exact absurd this (by decide)
  have fold := foldl_fixed (f := fun s g =>
      let ls := (liveLanes s gang).filter (fun p => LaneId.grp p.1 == g)
      if barrierMet s ls false then releaseBar s gang ls
      else if ls ≠ [] ∧ ls.all (fun p => p.2.st.atBarg) ∧ !barrierSame ls false then mismatch s ls
      else s) (s := s) (gangGroups s gang) (fun g _ => by
    have h1 := barrierMet_idle (s := s) (n := false) (fst g)
    have h2 := all1 _ (fst g)
    simp only [h1, Bool.false_eq_true, if_false]
    exact if_neg (fun hx => h2 ⟨hx.1, hx.2.1⟩))
  unfold recheckBars
  simp only [fold]
  rw [barrierMet_idle h]
  simp only [Bool.false_eq_true, if_false]
  exact if_neg (fun hx => all2 _ h ⟨hx.1, hx.2.1⟩)

end Sys2Proof.Machine
end

