-- ==== Sys2Proof/Laws/Units.lean ====
section
/-! SUPPORT. What the shared operations of the units around the lanes leave alone: rings, roadworks, saves and grants. -/

namespace Sys2Proof.Machine

/-- An entry of the Roadworks table whose range has shrunk to nothing holds no byte (spec/13 R269, R270). -/
theorem Road.holds_empty (r : Road) (lo n : Nat) (h : r.hi ≤ r.lo) : r.holds lo n = false := by
  simp only [Road.holds, decide_eq_false_iff_not]
  omega

/-- A cycle of a core moves the clock and the core's own count, and no warp (spec/02 R46; spec/03 R66). -/
theorem endCycle_frame (core : Nat) (s : State) :
    (endCycle core s).clock = s.clock + 1 ∧ (endCycle core s).warps = s.warps ∧ (endCycle core s).lanes = s.lanes := ⟨rfl, rfl, rfl⟩

/-- What a save keeps of a lane goes into its gang, and into nothing else (spec/01 R30; spec/03 R88). -/
theorem keepAsk_frame (s : State) (k : LaneId) (l : Lane) :
    (keepAsk s k l).lanes = s.lanes ∧ (keepAsk s k l).warps = s.warps ∧ (keepAsk s k l).groups = s.groups ∧ (keepAsk s k l).dies = s.dies ∧
      (keepAsk s k l).mregs = s.mregs := by
  unfold keepAsk
  split <;> exact ⟨rfl, rfl, rfl, rfl, rfl⟩

/-- A restored lane that still waits to issue holds its token again, and nothing else changes (spec/01 R30). -/
theorem regrant_run {s : State} {p : LaneId × Nat} {l : Lane} (h : s.lane? p.1 = some l) (r : l.st = .run) :
    regrant s p = s.setLane p.1 { l with token := p.2 } := by
  simp [regrant, h, r]

/-- An aged warp has the place of the active warp whose last issue lies furthest back, and the next aged one chooses among the others (spec/03
R74). -/
theorem displaceAll_cons {w o : WarpId} {ws : List WarpId} {olds : List (WarpId × Warp)} (s : State) (h : oldestOf olds = some o) :
    displaceAll (w :: ws) olds s = displaceAll ws (olds.filter (fun p => p.1 != o)) (swapWarps s o w) := by
  simp [displaceAll, h]

/-- Entries of a fault buffer wait whole, in their order, while the next slot cannot be written (spec/10 R225). -/
theorem fbWrite_waits {d : Nat} {r : Record} {rs : List Record} {s : State} (h : fbOpen s d = false) :
    fbWrite d (r :: rs) s = s.setDie d { s.die d with fbWait := r :: rs } := by
  simp [fbWrite, h]

/-- Where the next slot can be written the oldest entry goes into it, and FBHEAD counts it (spec/10 R223). -/
theorem fbWrite_open {d : Nat} {r : Record} {rs : List Record} {s : State} (h : fbOpen s d = true) :
    fbWrite d (r :: rs) s = fbWrite d rs (fbPut s d r) := by
  simp [fbWrite, h]

/-- A Square performs the first of its requests that can be performed, with those that belong to it, and else stands (spec/16 R312, R320). -/
theorem squareStep_cases (s : State) (d : Nat) :
    squareStep s d = s ∨ ∃ q ∈ (s.die d).sqq, q.parked = false ∧ squareTry s d q = some (squareStep s d) := by
  unfold squareStep
  cases h : ((s.die d).sqq.filter (fun r => !r.parked)).findSome? (squareTry s d) with
  | none => exact .inl rfl
  | some t =>
    obtain ⟨q, m, e⟩ := List.exists_of_findSome?_eq_some h
    exact .inr ⟨q, (List.mem_filter.mp m).1, by simpa using (List.mem_filter.mp m).2, e⟩

/-- The same of its set operations (spec/17 R335). -/
theorem setStep_cases (s : State) (d : Nat) :
    setStep s d = s ∨ ∃ q ∈ (s.die d).setq, q.parked = false ∧ setTry s d q = some (setStep s d) := by
  unfold setStep
  cases h : ((s.die d).setq.filter (fun r => !r.parked)).findSome? (setTry s d) with
  | none => exact .inl rfl
  | some t =>
    obtain ⟨q, m, e⟩ := List.exists_of_findSome?_eq_some h
    exact .inr ⟨q, (List.mem_filter.mp m).1, by simpa using (List.mem_filter.mp m).2, e⟩

end Sys2Proof.Machine
end

