-- ==== Sys2Proof/Tests/Slice0.lean ====
section
/-! SUPPORT. Tests of the model against words and examples of the spec, and witnesses that the statements' hypotheses can be met. -/

namespace Sys2Proof.Tests

open Sys2Proof.Machine Sys2Proof.Claims

/-- An internal word with no guard, no operand, T none and X 0 (spec/02 R43). -/
def plain : IWord :=
  { ge := false, gn := false, gr := 0, gb := 0, d := .none, a := .none, b := .none, c := .none, wc := false, wb := false, wa := false
    t := .none, x := 0 }

/-- NOP at 0x0040_0FF0 of the page example (spec/02 R42). -/
theorem test_decode_nop : decode [0x00, 0x00, 0xFF, 0xFF, 0x00] = some (.nop plain, []) := by decide

/-- The guarded FADD that crosses a page (spec/02 R38): guard bit 3 of g12, wait on B, T f32, X 1. -/
theorem test_decode_fadd : decode [0xAC, 0x80, 0x04, 0x05, 0x06, 0x02, 0x0C, 0x03, 0x10, 0x01, 0x00] = some (.fadd { plain with ge := true, gr := 12, gb := 3, d := .g 4, a := .g 5, b := .g 6, wb := true, t := .f32, x := 1 }, []) := by decide

/-- `padd.px2.ai g6, g4, g5` (spec/06 R163). -/
theorem test_decode_padd : decode [0x29, 0x08, 0x06, 0x04, 0x05, 0x15, 0x10, 0x00] = some (.padd { plain with d := .g 6, a := .g 4, b := .g 5, t := .px2, x := 16 }, []) := by decide

/-- `scane.add.i32.m1 g7, g6` (spec/07). -/
theorem test_decode_scane : decode [0x21, 0x4D, 0x07, 0x06, 0x08, 0x01, 0x00] = some (.scane { plain with d := .g 7, a := .g 6, t := .i32, x := 1 }, []) := by decide

/-- `fence.sc.pk` (spec/08 R192): ORD 4 in X[26:24], SCP 5 in X[29:27]. -/
theorem test_decode_fence : decode [0x41, 0x86, 0xFF, 0xFF, 0x00, 0x00, 0x00, 0x00, 0x2C] = some (.fence { plain with x := 0x2C000000 }, []) := by decide

/-- `cpyw.ch2 g20, spad[g3], [g8], g5` (spec/13). -/
theorem test_decode_cpyw : decode [0x3A, 0x81, 0x14, 0x03, 0x08, 0x05, 0x00, 0x02, 0x20] = some (.cpyw { plain with d := .g 20, a := .g 3, b := .g 8, c := .g 5, x := 0x2002 }, []) := by decide

/-- `mdrn.f32.mean.ezero.a1 spad[g7], g5, g6, 2` (spec/14): X 0x0002_0A01. -/
theorem test_decode_mdrn : decode [0x5A, 0x46, 0xFF, 0x07, 0x05, 0x06, 0x10, 0x01, 0x0A, 0x02, 0x00] = some (.mdrn { plain with a := .g 7, b := .g 5, c := .g 6, t := .f32, x := 0x00020A01 }, []) := by decide

/-- `acas.b64.ar.dd g10, [g8+16], g12, g14` (spec/16): X 0x2300_0010. -/
theorem test_decode_acas : decode [0x59, 0xC7, 0x0A, 0x08, 0x0C, 0x0E, 0x04, 0x10, 0x00, 0x00, 0x23] = some (.acas { plain with d := .g 10, a := .g 8, b := .g 12, c := .g 14, t := .b64, x := 0x23000010 }, []) := by decide

/-- `sins g6, g4, g5` (spec/17): no X bytes. -/
theorem test_decode_sins : decode [0x0A, 0x02, 0x06, 0x04, 0x05, 0x0C] = some (.sins { plain with d := .g 6, a := .g 4, b := .g 5, t := .n32 }, []) := by decide

/-- `tret.skip` (spec/20 R378): MODE 1 in X[1:0]. -/
theorem test_decode_tret_skip : decode [0x23, 0x01, 0xFF, 0xFF, 0x00, 0x01, 0x00] = some (.tretSkip { plain with x := 1 }, []) := by decide

/-- `watch 3, [g8], g5` (spec/21). -/
theorem test_decode_watch : decode [0x2B, 0x41, 0xFF, 0x08, 0x05, 0x00, 0x03, 0x00] = some (.watch { plain with a := .g 8, b := .g 5, x := 3 }, []) := by decide

/-- `try g6, 2, label` 52 bytes on (spec/08 R204). -/
theorem test_decode_try : decode [0x42, 0xC0, 0xFF, 0x06, 0x00, 0x01, 0x00, 0x34, 0x00] = some (.tryOpen { plain with a := .g 6, x := 0x00340001 }, []) := by decide

/-- CVT is 0xC0: H[1:0] is 0 and OPL 0xC0 (spec/02 R58, spec/06 R157). -/
theorem test_decode_cvt_group : decode [0x20, 0xC0, 0x04, 0x05, 0x10, 0x01, 0x00] = some (.cvt { plain with d := .g 4, a := .g 5, t := .f32, x := 1 }, []) := by decide

/-- RCP opens the special group, OP 0x100 (spec/06 R162). -/
theorem test_decode_rcp : decode [0x01, 0x00, 0x04, 0x05, 0x10] = some (.rcp { plain with d := .g 4, a := .g 5, t := .f32 }, []) := by decide

/-- OP 0x390 is in group 0xE: ILL_OPCODE at offset 1 (spec/02 R38). -/
theorem test_fill_illegal_opcode : fill [0x03, 0x90, 0xFF, 0xFF, 0x00] = .fault .illOpcode 1 5 := by decide

/-- Six bytes of eleven could be fetched: FETCH_FAULT at offset 6 (spec/02 R38). -/
theorem test_fill_cut : fill [0xAC, 0x80, 0x04, 0x05, 0x06, 0x02] = .fault .fetchFault 6 11 := by decide

/-- X4 and X2 together are no encoding (spec/02 R38). -/
theorem test_fill_both_x : fill (List.replicate 16 0x60) = .fault .illEncoding 0 11 := by decide

/-- C without B is no encoding (spec/02 R38). -/
theorem test_fill_c_without_b : fill (List.replicate 16 0x10) = .fault .illEncoding 0 6 := by decide

/-- g128 is no register (spec/02 R45). -/
theorem test_wf_register : Instr.wf (.mov { plain with d := .g 128 }) = false := by decide

/-- q16 is no queue register (spec/02 R45). -/
theorem test_wf_queue : Instr.wf (.mov { plain with a := .q 16 }) = false := by decide

/-- m12 is no mask (spec/02 R45). -/
theorem test_wf_mask : Instr.wf (.join { plain with d := .m 12 }) = false := by decide

/-- lc3 is no loop counter (spec/02 R45). -/
theorem test_wf_counter : Instr.wf (.loop { plain with d := .lc 3 }) = false := by decide

/-- Code 0xAF names no special register (spec/02 R46). -/
theorem test_wf_special : Instr.wf (.mov { plain with a := .sr 15 }) = false := by decide

/-- Code 0x05 is g5, no illegal operand (spec/02 R45). -/
theorem test_wf_illegal_code : Instr.wf (.mov { plain with a := .ill 5 }) = false := by decide

/-- There are 7 illegal type codes (spec/02 R50). -/
theorem test_wf_illegal_type : Instr.wf (.mov { plain with t := .ill 7 }) = false := by decide

/-- A guard register has 7 bits (spec/02 R43). -/
theorem test_wf_guard_register : Instr.wf (.nop { plain with ge := true, gr := 128 }) = false := by decide

/-- A guard bit has 5 bits (spec/02 R43). -/
theorem test_wf_guard_bit : Instr.wf (.nop { plain with ge := true, gb := 32 }) = false := by decide

/-- Without guard bytes the guard fields are 0 (spec/02 R35). -/
theorem test_wf_no_guard : Instr.wf (.nop { plain with gr := 1 }) = false := by decide

/-- ABSENT with MAKE in X[0] is ABSENT_MK's word (spec/06 R161). -/
theorem test_wf_absent_pair : Instr.wf (.absent { plain with x := 1 }) = false := by decide

/-- CPYW with CLR in X[15] is CPYW_CLR's word (spec/13 R268). -/
theorem test_wf_clr_pair : Instr.wf (.cpyw { plain with x := 0x8000 }) = false := by decide

/-- SWAIT with mode 1 is SWAIT_ALL's word (spec/13 R260). -/
theorem test_wf_swait_pair : Instr.wf (.swait { plain with x := 1 }) = false := by decide

/-- TRET with MODE 2 is TRET_ENDG's word (spec/20 R379). -/
theorem test_wf_tret_pair : Instr.wf (.tret { plain with x := 2 }) = false := by decide

/-- The module has 192 cores (spec/00 R1). -/
theorem test_wf_core : Instr.wf (.cdEntryDelivery 192) = false := by decide

/-- The Squares of the domain's 32 dies stand behind the module's own 4 (spec/16 R312; spec/22 R413; log 11). -/
theorem test_wf_die : Instr.wf (.squareOperation 36) = false := by decide

/-- There are 64 contexts (spec/20 R357). -/
theorem test_wf_context : Instr.wf (.kill 64) = false := by decide

/-- A warp has 32 lanes (spec/03 R60). -/
theorem test_wf_lane : Instr.wf (.delivery ⟨0, 0, 0, 32⟩ 0) = false := by decide

/-- A group has at most 32 warps (spec/01 R30). -/
theorem test_wf_warp : Instr.wf (.replay ⟨0, 0, 32⟩) = false := by decide

/-- A gang has at most 4 groups (spec/01 R31). -/
theorem test_wf_group : Instr.wf (.trapDelivery ⟨0, 4⟩) = false := by decide

/-- There are 64 launch queues (spec/20 R359). -/
theorem test_wf_queue_number : Instr.wf (.gridReady 64) = false := by decide

/-- The module has 48 closes (spec/01 R10). -/
theorem test_wf_close : Instr.wf (.gangPlacement 0 48) = false := by decide

/-- There are 2 Skim engines (spec/10 R234). -/
theorem test_wf_engine : Instr.wf (.promote 2) = false := by decide

/-- READY has 64 bits (spec/22 R409). -/
theorem test_wf_unit_bit : Instr.wf (.selfTest 64 true) = false := by decide

/-- FWSTAT names 5 results (spec/22 R418). -/
theorem test_wf_result : Instr.wf (.firmwareVerify 5 0) = false := by decide

/-- A fault word's offset is within 16 bytes (spec/02 R38). -/
theorem test_wf_fault_word : Instr.wf (.faultWord .illOpcode 16 5) = false := by decide

/-! ### A small machine: one gang of one group of one warp, some of whose lanes exist -/

/-- Lane `i` of the warp. -/
def lid (i : Nat) : LaneId := ⟨0, 0, 0, i⟩

/-- A lane of 16 registers at 0x2000, as placed. -/
def lane : Lane := Lane.placed 0x2000 16

/-- Die 0, which maps the page of 0x2000 to the frame at 0x2000 with R, W and X (spec/10 R218). -/
def die : Die := { Die.reset with tlb := [⟨0, 2, 0x201F#64, 0⟩] }

/-- The machine whose lanes are `ls`, all of them the bundle that issues; m0 holds `m0`. -/
def machine (m0 : Word) (ls : List (LaneId × Lane)) : State :=
  { State.reset with
    cur := { core := 0, part := 0, gang := 0, group := 0, pc := 0x2000, len := 8, lanes := ls.map Prod.fst }
    mregs := [(⟨.ready, 0, 0⟩, 0x00000FFFFFFFFFC3#64)]
    dies := [(0, die)]
    grids := [(0, bootGrid)]
    gangs := [(0, bootGang)]
    groups := [(⟨0, 0⟩, Group.placed 0 0 1 16 4096 false 0)]
    warps := [(⟨0, 0, 0⟩, { Warp.placed 0x2000 0 true with masks := m0 :: List.replicate 11 0#32 })]
    lanes := ls }

/-- The machine of one lane. -/
def one (l : Lane) : State := machine 1 [(lid 0, l)]

/-- A lane that runs a handler for a soft trap at 0x3000. -/
def handlerLane : Lane :=
  { lane with hx := some { cause := 8, pc := 0x3000, addr := 0, mask := 1, info := 0, len := 8, seq := 1, orig := .softTrap, cmp := [] } }

/-- A lane in a loop of counter 0 from 0x2008 to 0x2020 with 3 passes left. -/
def loopLane : Lane := { lane with lc := [3, 0, 0], loops := [⟨true, 0x2008, 0x2020, 0⟩, ⟨false, 0, 0, 0⟩, ⟨false, 0, 0, 0⟩] }

/-- A lane with an open try over g6 and g7. -/
def tryLane : Lane :=
  { lane with spec := some { depth := 1, base := 6, regs := [7, 8], masks := [], loops := lane.loops, lcs := lane.lc, fflags := 0, target := 0x2100,
                             at_ := 0x2000, stores := [], lines := [], conflict := false } }

/-- Bytes of die 0's memory from an address on, with none listed that is 0. -/
def bytesAt (a : Nat) (bs : List Byte) : List (Nat × Byte) :=
  (bs.zipIdx.map (fun (p : Byte × Nat) => (a + p.2, p.1))).filter (fun (p : Nat × Byte) => p.2 != 0#8)

/-! ### The statements' hypotheses can be met -/

theorem wit_DecodeEncode : Instr.wf (.fadd { plain with d := .g 4, a := .g 5, b := .absent, t := .f32, ge := true, gr := 127, gb := 31 }) = true := by decide

theorem wit_EveryStepAnswers : ∀ c r, ({ State.reset with agenda := [.cycles 191 1] } : State).agenda = c :: r → State.reset.forced = [] →
    match c with
    | .event i => i.wf = true
    | .cycles core _ => core < 192
    | .evict die _ => die < 4
    | .blockErr die _ _ => die < 4
    | .portError port _ => port < 16
    | _ => True := by
  intro c r h _
  cases h
  decide

/-- InstructionsThatOnlyGoOn: NOP, YIELD, PREF and both kinds of FENCE. -/
theorem wit_only_go_on : alone (one lane) (lid 0) lane ∧ gate entryNone plain (lid 0) lane (one lane) = .go ∧
    gate entryPref { plain with a := .g 4 } (lid 0) lane (one lane) = .go ∧
    gate entryFence { plain with x := 0x2C000000 } (lid 0) lane (one lane) = .go ∧ lane.quiet = true ∧
    ordOf { plain with x := 0x2C000000 } = 4 ∧ 5 ≤ scpOf { plain with x := 0x2C000000 } ∧ scpOf { plain with x := 0x24000000 } < 5 :=
  ⟨⟨rfl, rfl⟩, by decide⟩

/-- A lane that waits for a load into g4 and g5. -/
def loading : Lane :=
  { lane.emptyRegs [4, 5] with pend := [{ pendOf (one lane) .load [4, 5] (some [1, 2]) with id := 9, remote := true }] }

/-- BranchesGoToTheirTargets: each of the five, with the pair full and with a delivery into it on its way. -/
theorem wit_branches : gate entryBra { plain with x := 16 } (lid 0) lane (one lane) = .go ∧
    gate entryPair { plain with a := .g 2, t := .b64 } (lid 0) lane (one lane) = .go ∧
    readSrc (one lane) (lid 0) lane plain (.g 2) false .b64 = .val (one lane) 0 ∧
    gate entryCall { plain with d := .g 4, t := .b64, x := 16 } (lid 0) lane (one lane) = .go ∧
    gate entryCallx { plain with d := .g 4, a := .g 4, t := .b64 } (lid 0) lane (one lane) = .go ∧
    lane.regsFull [4, 5] = true ∧ loading.regsFull [4, 5] = false := by decide

/-- A lane in three loops: counter 0's and counter 1's end at 0x2020, the latter begun later and on its last pass; counter 2's, begun last, ends
elsewhere. -/
def nestLane (outer : Word) : Lane :=
  { lane with lc := [outer, 1, 5], loops := [⟨true, 0x2008, 0x2020, 2⟩, ⟨true, 0x2010, 0x2020, 1⟩, ⟨true, 0x2010, 0x2018, 0⟩] }

/-- EndCheckCountsOnePass: a shared end where the inner loop is on its last pass, and where both are; the head of the order ends elsewhere. -/
theorem wit_end_check : loopOrder (nestLane 3) = [2, 1, 0] ∧
    (∀ outer ∈ [1, 3], (loopOrder (nestLane outer)).filter (fun n => ((nestLane outer).loops[n]?).any (fun (x : LoopRec) => x.act && x.stop == 0x2020)) = [1, 0]) ∧
    (nestLane 3).lc.getD 1 0#32 = 1#32 ∧ (nestLane 3).lc.getD 0 0#32 ≠ 1#32 ∧ (nestLane 1).lc.getD 0 0#32 = 1#32 ∧
    (nestLane 3).loops[0]? = some ⟨true, 0x2008, 0x2020, 2⟩ ∧ (∀ x ∈ lane.loops, x.act = true → x.stop ≠ 0x2020) := by
  refine ⟨by decide, ?_, by decide, by decide, by decide, by decide, by decide⟩
  intro outer h
  simp only [List.mem_cons, List.not_mem_nil, or_false] at h
  obtain rfl | rfl := h <;> rfl

/-- LoopsStartAndEnd: a counter in use and one that is idle, no passes and some, and the range's bounds. -/
theorem wit_loops : gate entryLoop { plain with d := .lc 0, a := .g 5, t := .n32, x := 6 } (lid 0) lane (one lane) = .go ∧
    gate entryLoopx { plain with d := .lc 0, x := 0x0005000C } (lid 0) lane (one lane) = .go ∧
    gate entryLbrk { plain with d := .lc 0 } (lid 0) loopLane (one loopLane) = .go ∧
    loopAct loopLane 0 = true ∧ loopAct lane 0 = false ∧ 0 < (6#32 : Word).toInt ∧ (0#32 : Word).toInt ≤ 0 ∧
    readSrc (one lane) (lid 0) lane plain (.g 5) false .n32 = .val (one lane) 0 ∧
    readSrc (one (lane.setReg 5 0xFFFFFFFE#32)) (lid 0) (lane.setReg 5 0xFFFFFFFE#32) plain (.g 5) false .n32 =
      .val (one (lane.setReg 5 0xFFFFFFFE#32)) (2 ^ 32 - 2) := by decide

/-- MasksAreReadAndWritten. -/
theorem wit_masks : alone (one lane) (lid 0) lane ∧ (one lane).warp? ⟨0, 0, 0⟩ = some { Warp.placed 0x2000 0 true with masks := 1 :: List.replicate 11 0#32 } ∧
    (∀ p ∈ (one lane).lanes, p.1.gang = 0 → p.2.st.parked = false) ∧
    gate entryJoin { plain with d := .m 11 } (lid 0) lane (one lane) = .go ∧
    gate entryMset { plain with d := .m 1, b := .imm, t := .b32, x := 1 } (lid 0) lane (one lane) = .go ∧
    gate entryMand { plain with d := .m 1, a := .m 0, b := .m 2 } (lid 0) lane (one lane) = .go ∧
    gate entryMnot { plain with d := .m 1, a := .m 0 } (lid 0) lane (one lane) = .go ∧
    gate entryMget { plain with d := .g 4, a := .m 0, t := .b32 } (lid 0) lane (one lane) = .go ∧
    (delivered (one lane) (lid 0) { plain with d := .g 4, a := .m 0, t := .b32 } .b32 1 0).isSome = true :=
  ⟨⟨rfl, rfl⟩, by decide⟩

/-- StickyFlagsAreSetAndCleared: with a register, and with B's low six bits all ones. -/
theorem wit_sticky : gate entryFe { plain with d := .g 4, b := .imm, t := .b32, x := 0x3F } (lid 0) lane (one lane) = .go ∧
    readSrc (one lane) (lid 0) lane { plain with x := 0x3F } .imm false .b32 = .val (one lane) 0x3F ∧
    (delivered (one lane) (lid 0) { plain with d := .g 4, b := .imm, t := .b32, x := 0x3F } .b32 lane.fflags.toNat 0).isSome = true := by decide

/-- ExitEndsTheLane: a lane that has triggered, and one whose exit leaves the grid's trigger open. -/
theorem wit_exit : gate entryNone plain (lid 0) { lane with triggered := true } (one { lane with triggered := true }) = .go ∧ lane.st ≠ .exited ∧
    (0 + 1 ≠ Grid.nlanes { bootGrid with warps := 2 }) := by decide

/-- WaitmWaitsForItsMask: alone in the mask, with another lane in it, and outside it. -/
theorem wit_waitm : gate entryWaitm { plain with a := .m 0 } (lid 0) lane (one lane) = .go ∧ lane.stopped = false ∧
    (1#32 : Word) = 1#32 <<< 0 ∧ outstanding (one lane) (lid 0) = false ∧
    flg (3#32 : Word) 1 = true ∧ flg (3#32 : Word) 0 = true ∧ flg (0#32 : Word) 0 = false := by decide

/-- Two lanes of m0, the second parked as `st`; the first issues alone. -/
def lastOf (st : TState) : State :=
  { machine 3 [(lid 0, lane), (lid 1, { lane with st := st })] with cur := (one lane).cur }

/-- WaitmWaitsForItsMask: the last of two lanes arrives at a mask. -/
theorem wit_last_arrival : alone (lastOf (.waitm 0 0x2010)) (lid 0) lane ∧ ((lastOf (.waitm 0 0x2010)).warp? ⟨0, 0, 0⟩).map (fun x => x.masks.getD 0 0#32) = some 3#32 ∧
    (∀ i ∈ List.range 32, i ≠ 0 → flg (3#32 : Word) i = true → outstanding (lastOf (.waitm 0 0x2010)) (lid i) = false ∧
      ((lastOf (.waitm 0 0x2010)).lane? (lid i)).map (fun p => (p.st, p.stopped)) = some (.waitm 0 0x2010, false)) ∧
    (∀ i ∈ List.range 32, i ≠ 0 → flg (3#32 : Word) i = false → (lastOf (.waitm 0 0x2010)).lane? (lid i) = none) ∧
    gate entryWaitm { plain with a := .m 0 } (lid 0) lane (lastOf (.waitm 0 0x2010)) = .go :=
  ⟨⟨rfl, rfl⟩, by decide⟩

/-- BarriersWaitForTheirLanes: the last of two lanes arrives at a group barrier and at a gang barrier. -/
theorem wit_last_barrier : (∀ st ∈ [TState.barg 7 0x2010, .barn 3 0x2010], (lastOf st).cur.lanes = [lid 0] ∧
      (lastOf st).lanes.filter (fun p => LaneId.grp p.1 == LaneId.grp (lid 0) && p.2.st != .exited) = (lastOf st).lanes ∧
      (lastOf st).lanes.filter (fun p => p.1 == lid 0) = [(lid 0, lane)] ∧ outstanding (lastOf st) (lid 0) = false ∧ outstanding (lastOf st) (lid 1) = false ∧
      (∀ p ∈ (lastOf st).lanes, LaneId.grp p.1 = LaneId.grp (lid 0)) ∧ ((lastOf st).group? ⟨0, 0⟩).isSome = true ∧
      gate entryBar { plain with b := .imm, t := .b32, x := 3 } (lid 0) lane (lastOf st) = .go) := by decide

/-- BarriersWaitForTheirLanes: alone, with another lane, and at the ids next to the range's end. -/
theorem wit_barriers : gate entryBar { plain with b := .imm, t := .b32, x := 7 } (lid 0) lane (one lane) = .go ∧
    readSrc (one lane) (lid 0) lane { plain with x := 7 } .imm false .b32 = .val (one lane) 7 ∧
    readSrc (one lane) (lid 0) lane { plain with x := 8 } .imm false .b32 = .val (one lane) 8 ∧
    (one lane).lanes.filter (fun p => LaneId.grp p.1 == LaneId.grp (lid 0) && p.2.st != .exited) = [(lid 0, lane)] ∧
    ((one lane).group? ⟨0, 0⟩).isSome = true ∧
    (∃ p ∈ (machine 3 [(lid 0, lane), (lid 1, lane)]).lanes, p.1 ≠ lid 0) := by decide

/-- ResultsAreDelivered: an addition; divisions by a number, by zero and of absent. -/
theorem wit_results : gate entryIadd { plain with d := .g 4, a := .g 5, b := .g 6, t := .i32 } (lid 0) lane (one lane) = .go ∧
    queueTrap (one lane) (lid 0) { plain with d := .g 4, a := .g 5, b := .g 6, t := .i32 } = none ∧
    reads (one lane) (lid 0) lane { plain with d := .g 4, a := .g 5, b := .g 6, t := .i32 } (tysT { plain with t := .i32 }) (one lane) 0 0 0 ∧
    gate entryIdiv { plain with d := .g 4, a := .g 5, b := .imm, t := .i32, x := 3 } (lid 0) lane (one lane) = .go ∧
    reads (one lane) (lid 0) lane { plain with d := .g 4, a := .g 5, b := .imm, t := .i32, x := 3 } (tysT { plain with t := .i32 }) (one lane) 0 3 0 ∧
    reads (one lane) (lid 0) lane { plain with d := .g 4, a := .absent, b := .imm, t := .i32 } (tysT { plain with t := .i32 }) (one lane) 0x80000000 0 0 ∧
    (delivered (one lane) (lid 0) { plain with d := .g 4, t := .i32 } .i32 0 0).isSome = true := by
  refine ⟨by decide, by decide, ⟨one lane, one lane, ?_⟩, by decide, ⟨one lane, one lane, ?_⟩, ⟨one lane, one lane, ?_⟩, by decide⟩ <;> decide

/-- IntegersFollowTheirTypes: operands at the ends of the ranges. -/
theorem wit_integers : (0x7FFFFFFF#32 : Word) ≠ 0x80000000#32 ∧ (0xFFFFFFFE#32 : Word) ≠ 0xFFFFFFFF#32 ∧ isAbsent .i32 0x80000000 = true ∧
    isAbsent .i32 0x80000001 = false ∧ isAbsent .b32 0x80000000 = false ∧ BitVec.ofNat 64 (2 ^ 63 - 1) ≠ BitVec.ofNat 64 (2 ^ (64 - 1)) ∧
    BitVec.ofNat 64 (2 ^ 64 - 2) ≠ BitVec.allOnes 64 := by decide

/-- The numbers 1, −1 and 2 of f32. -/
theorem nums : fval .f32 0x3F800000 = .fin false (2 ^ 23) (-23) ∧ fval .f32 0xBF800000 = .fin true (2 ^ 23) (-23) ∧
    fval .f32 0x40000000 = .fin false (2 ^ 23) (-22) := by decide

/-- RoundingFollowsItsMode: a tie, three halves. -/
theorem wit_rounding : (0 : Nat) < 2 ∧ (roundAt .rne false 3 2 0 0).1 = 2 ∧ (roundAt .rz false 3 2 0 0).1 = 1 ∧ (roundAt .ru false 3 2 0 0).1 = 2 ∧
    (roundAt .ru true 3 2 0 0).1 = 1 := by decide

/-- RoundingFollowsItsMode: a sum that is not 0 and one that is; conversions from a float, with a block exponent too, and from an integer. -/
theorem wit_exact : isFin (fval .f32 0x3F800000) = true ∧ numOf (fval .f32 0x3F800000) + numOf (fval .f32 0x3F800000) ≠ 0 ∧
    numOf (fval .f32 0x3F800000) + numOf (fval .f32 0xBF800000) = 0 ∧ isFin (fval .f16 0x3C00) = true ∧
    tyKind (cvtSrc { plain with x := 0x1100 }) = .flt ∧ cvtSrc { plain with x := 0x1100 } ≠ .f32 ∧ (254 : Nat) % 256 ≠ 255 ∧ isAbsent .i32 5 = false ∧
    tyKind .n32 = .nat := by
  refine ⟨by decide, ?_, ?_, by decide, by decide, by decide, by decide, by decide, by decide⟩ <;>
    norm_num [nums.1, nums.2.1, numOf]

/-- Further patterns of f32: 1.5 and 1.25. -/
theorem halves : fval .f32 0x3FC00000 = .fin false (3 * 2 ^ 22) (-23) ∧ fval .f32 0x3FA00000 = .fin false (5 * 2 ^ 21) (-23) := by decide

/-- ResultsAreDelivered, special functions: absent, NaN, an infinity of each sign, a zero, and numbers that are negative, whole, half-way between two
whole ones, a power of two, and neither. -/
theorem wit_special : fval .f32 0xFFFFFFFF = .absent ∧ (fval .f32 0x7F800001).isNan = true ∧ fval .f32 0x7F800000 = .inf ((0x7F800000#32).getLsbD 31) ∧
    fval .f32 0xFF800000 = .inf ((0xFF800000#32).getLsbD 31) ∧ isFin (fval .f32 0x80000000) = true ∧ numOf (fval .f32 0x80000000) = 0 ∧
    numOf (fval .f32 0xBF800000) < 0 ∧ 0 < numOf (fval .f32 0x3F800000) ∧ |numOf (fval .f32 0x3F800000)| ≠ (2 : ℚ) ^ 127 ∧
    numOf (fval .f32 0x3F800000) = (1 : ℤ) ∧ numOf (fval .f32 0x3F800000) = (2 : ℚ) ^ (0 : ℤ) ∧ numOf (fval .f32 0x3FC00000) = (1 : ℤ) + 1 / 2 := by
  refine ⟨by decide, by decide, by decide, by decide, by decide, ?_, ?_, ?_, ?_, ?_, ?_, ?_⟩
  · rw [show fval .f32 0x80000000 = .fin true 0 (-149) by decide]; norm_num [numOf]
  all_goals norm_num [nums.1, nums.2.1, halves.1, numOf]

/-- ResultsAreDelivered, special functions: 1.25 is no multiple of a half and no power of two. -/
theorem wit_special_open : (∀ n : ℤ, numOf (fval .f32 0x3FA00000) ≠ n) ∧ (∀ n : ℤ, 2 * numOf (fval .f32 0x3FA00000) ≠ n) ∧
    ∀ n : ℤ, numOf (fval .f32 0x3FA00000) ≠ (2 : ℚ) ^ n := by
  have h : numOf (fval .f32 0x3FA00000) = 5 / 4 := by norm_num [halves.2, numOf]
  simp only [h]
  refine ⟨fun n e => ?_, fun n e => ?_, fun n e => ?_⟩
  · have : (5 : ℚ) = ((4 * n : ℤ) : ℚ) := by push_cast; linarith
    have : (5 : ℤ) = 4 * n := by exact_mod_cast this
    omega
  · have : (5 : ℚ) = ((2 * n : ℤ) : ℚ) := by push_cast; linarith
    have : (5 : ℤ) = 2 * n := by exact_mod_cast this
    omega
  · rcases lt_or_ge n 1 with h | h
    · have g : (2 : ℚ) ^ n ≤ 2 ^ (0 : ℤ) := zpow_le_zpow_right₀ (by norm_num) (by omega)
      rw [← e] at g
      norm_num at g
    · have g : (2 : ℚ) ^ (1 : ℤ) ≤ 2 ^ n := zpow_le_zpow_right₀ (by norm_num) h
      rw [← e] at g
      norm_num at g

/-- ResultsAreDelivered, bits, packed halves and groups: a type of each width, halves that are numbers and absent, a scale that is a number, 0, infinite,
NaN and absent, and the greatest code that is present. -/
theorem wit_packed : tyWidth .b64 = 64 ∧ tyWidth .b32 = 32 ∧ isFin (fval .f16 (pixel 0x3C003C00 1).toNat) = true ∧ isFin (fval .bf16 (pixel 0x3F803F80 0).toNat) = true ∧
    pixel 0xFFFF3C00 1 = 0xFFFF#16 ∧ aiOf plain = false ∧ isFin (fval .f32 0x3F800000) = true ∧ fval .f32 0xFFFFFFFF = .absent ∧
    isFin (fval .f16 (fld (0x00082C00 : Word) 15 0)) = true ∧ fval .f16 0x7C00 = .inf false ∧ (fval .f16 0x7C01).isNan = true ∧ fval .f16 0xFFFF = .absent ∧
    fval .f32 0x7F800000 = .inf false ∧ (14 : Nat) < 2 ^ 4 - 1 ∧ fval .f16 0 = .fin false 0 (-24) ∧ fld (0x000F2C00 : Word) 19 16 = 15 := by decide

/-- FloatSelectionsAndSigns: a quiet NaN, a signalling one and a number. -/
theorem wit_floats : (fval .f32 0x7FC00000).isNan = true ∧ (fval .f32 0x7FA00000).isSig = true ∧ (fval .f32 0x3F800000).isNan = false ∧
    fval .f32 0x3F800000 ≠ .absent ∧ fval .f32 0xFFFFFFFF = .absent := by decide

/-- FloatSelectionsAndSigns: a pattern of each format next to its end, and an e4m3 number with the top exponent. -/
theorem wit_patterns : 0xFFFFFFFF < 2 ^ (1 + 8 + 23) ∧ 0xFF < 2 ^ (1 + 4 + 3) ∧ (Ty.e5m2, 5, 2) ∈ [(Ty.f32, 8, 23), (.f16, 5, 10), (.bf16, 8, 7), (.e4m3, 4, 3), (.e5m2, 5, 2)] ∧
    (decide (0x7E / 2 ^ 3 % 2 ^ 4 = 2 ^ 4 - 1) && (Ty.e4m3 != .e4m3 || 0x7E % 2 ^ 3 == 7)) = false := by decide

/-- FloatSelectionsAndSigns: −1 below 1 below 2. -/
theorem wit_order : rankOf (fval .f32 0xBF800000) < rankOf (fval .f32 0x3F800000) ∧ rankOf (fval .f32 0x3F800000) < rankOf (fval .f32 0x40000000) := by
  rw [nums.1, nums.2.1, nums.2.2]
  norm_num [rankOf, numOf]

/-! ### Lanes of one warp together, memory, tries and queues -/

/-- A lane whose pair g2:g3 holds 0x2000. -/
def at2 : Lane := lane.setReg 2 0x2000

/-- The machine of one lane whose warp owns the core's matrix engine. -/
def owned (l : Lane) : State := { one l with cores := [(0, { Core.reset with mx := { Matrix.reset with owner := some ⟨0, 0, 0⟩ } })] }

/-- BlockExponentsAndScaleRecords: a block of 16 registers, an owned engine and one that no warp owns. -/
theorem wit_block_exponents : gate entryBexp { plain with d := .g 4, a := .g 0, t := .h2, x := 0x00010000 } (lid 0) lane (one lane) = .go ∧
    (∀ i < bexpRegs .h2, (lane.reg (0 + i)).full = true) ∧
    gate entryAmxrec { plain with a := .g 4, b := .imm, t := .f32, x := 31 } (lid 0) lane (owned lane) = .go ∧
    gate entryAmxget { plain with d := .g 4, b := .imm, t := .e4m3, x := 31 } (lid 0) lane (owned lane) = .go ∧
    reads (owned lane) (lid 0) lane { plain with a := .g 4, b := .imm, t := .f32, x := 31 } ⟨.f32, .b32, .none, .none⟩ (owned lane) 0 31 0 ∧
    reads (owned lane) (lid 0) lane { plain with d := .g 4, b := .imm, t := .e4m3, x := 31 } ⟨.none, .b32, .none, .none⟩ (owned lane) 0 31 0 ∧
    ((owned lane).core 0).mx.owner = some ⟨0, 0, 0⟩ ∧ ((one lane).core 0).mx.owner = none := by
  refine ⟨by decide, by decide, by decide, by decide, ⟨owned lane, owned lane, ?_⟩, ⟨owned lane, owned lane, ?_⟩, ?_⟩ <;> decide

/-- BlockExponentsAndScaleRecords: a block with a number and one without; a record with an entry that is a number, one whose entry is 0, one with an
infinite entry, and an empty one. -/
theorem wit_scales : isFin (fval .f32 0x3F800000) = true ∧ numOf (fval .f32 0x3F800000) ≠ 0 ∧ isFin (fval .f32 0xFFFFFFFF) = false ∧
    (∀ v : Word, let r : ScaleRec := ⟨v :: List.replicate 15 0#32, 1, 1⟩
      r.ent.length = 16 ∧ (List.range r.v).map (fun i => r.ent.getD ((r.wi + 15 - i) % 16) 0#32) = [v]) ∧
    ScaleRec.clear.v = 0 ∧ fval .f32 0x7F800000 = .inf false ∧ fval .f32 0 = .fin false 0 (-149) := by
  refine ⟨by decide, ?_, by decide, fun v => ⟨rfl, by simp [List.range_succ]⟩, rfl, by decide, by decide⟩
  norm_num [nums.1, numOf]

/-- Two lanes of m0, the first with a true guard. -/
def pair01 : State := machine 3 [(lid 0, lane.setReg 8 1), (lid 1, lane)]

/-- CrossLaneResultsAreDelivered: SHFI in two lanes, one of them guarded off. -/
theorem wit_cross_lane : together ⟨{ plain with ge := true, gr := 8, d := .g 4, a := .g 5, b := .imm, t := .b32, x := 1 }, entryShuffle, .b32,
      shuffleFrom { plain with ge := true, gr := 8, d := .g 4, a := .g 5, b := .imm, t := .b32, x := 1 }
        (srcShfi { plain with ge := true, gr := 8, d := .g 4, a := .g 5, b := .imm, t := .b32, x := 1 })⟩
    pair01 ⟨0, 0, 0⟩ { Warp.placed 0x2000 0 true with masks := 3 :: List.replicate 11 0#32 } [lid 0, lid 1] [lid 0] where
  warp := by decide
  lanes := by decide
  mask := by decide
  some_ := by decide
  free := by decide
  act_ := by decide
  ready := by
    intro k h
    simp only [List.mem_cons, List.not_mem_nil, or_false] at h
    obtain rfl | rfl := h
    · exact ⟨lane.setReg 8 1, by decide⟩
    · exact ⟨lane, by decide⟩
  others := by decide

/-- ShufflesTakeTheirSource: an index at both ends of the warp. -/
theorem wit_shuffles : idxOf pair01 { plain with b := .imm, x := 31 } (lid 0) = 31 ∧ (lid 0).lane < 32 ∧ 31 ≤ (lid 31).lane ∧
    (lid 0).lane + 31 < 32 := by decide

/-- ReductionsCombinePresentInputs: each operation, inputs of f32 that are numbers, infinities and NaNs, and bits. -/
theorem wit_reduction_inputs : (∀ n < 6, fld (BitVec.ofNat 32 (n * 256)) 11 8 = n) ∧
    (∀ v ∈ [0x3F800000, 0xFF800000, 0x7FC00000], let s := machine 3 [(lid 0, lane.setReg 5 (BitVec.ofNat 32 v)), (lid 1, lane.setReg 5 0x7F800000)]
      ([lid 0, lid 1].filter (fun j => !isAbsent .f32 (peekA s { plain with a := .g 5, t := .f32 } j))).map (peekA s { plain with a := .g 5, t := .f32 }) =
        [v, 0x7F800000]) ∧
    fval .f32 0xFF800000 = .inf true ∧ fval .f32 0x7F800000 = .inf false ∧ (fval .f32 0x7FC00000).isNan = true ∧ isFin (fval .f32 0x3F800000) = true ∧
    (peekA pair01 { plain with a := .g 8, t := .b32 } (lid 0)) = 1 := by
  refine ⟨by decide, fun v h => ?_, by decide, by decide, by decide, by decide, by decide⟩
  revert h
  revert v
  decide

/-- ReductionsCombinePresentInputs: some present inputs, and none. -/
theorem wit_reductions : ([lid 0, lid 1].filter (fun j => !isAbsent .i32 (peekA pair01 { plain with a := .g 5, t := .i32 } j))) ≠ [] ∧
    ([lid 0, lid 1].filter (fun j => !isAbsent .i32 (peekA pair01 { plain with a := .absent, t := .i32 } j))) = [] := by decide

/-- LoadsWaitForTheirDelivery: LD, LD.sc, LDS and LDC, outside a try and in one. -/
theorem wit_loads : readSrc (one at2) (lid 0) at2 plain (.g 2) false .b64 = .val (one at2) 0x2000 ∧ at2.quiet = true ∧ at2.regsFull [4, 5] = true ∧
    lane.acquired = true ∧
    gate entryLd { plain with d := .g 4, a := .g 2, t := .b64 } (lid 0) at2 (one at2) = .go ∧
    gate entryLd { plain with d := .g 4, a := .g 2, t := .b64, x := 0x2C000000 } (lid 0) at2 (one at2) = .go ∧
    (fenceSc (one at2) 5).lane? (lid 0) = some at2 ∧ preFault (one at2) (lid 0) at2 0x2000 8 = none ∧
    vread (one at2) 0 0 0x2000 8 .load = (one at2, .bytes (List.replicate 8 0#8) 0x2000 0) ∧
    tryLoad at2 .flat 0 0x2000 (List.replicate 8 0#8) = some (at2, List.replicate 8 0#8) ∧
    (tryLoad tryLane .flat 0 0x2000 (List.replicate 8 0#8)).isSome = true ∧
    gate entryLds { plain with d := .g 4, a := .g 5, t := .b32 } (lid 0) lane (one lane) = .go ∧
    spadPlace (one lane) (lid 0) 4092 4 = .ok (⟨0, 0⟩, 4092) := by decide

/-- A lane in a try whose store buffer holds the 4 bytes at 0x2000. -/
def bufferLane : Lane := { at2 with spec := tryLane.spec.map (fun t => { t with stores := [⟨.flat, 0, 0x200, [(0, 1), (1, 2), (2, 3), (3, 4)], 0x2000⟩] }) }

/-- LoadsWaitForTheirDelivery, in a try whose buffer holds every byte of the load, and where it does not. -/
theorem wit_buffer : bufferHit (one bufferLane) (lid 0) bufferLane .flat 0x2000 4 = some (one bufferLane, 0x2000) ∧
    (tryLoad bufferLane .flat 0 0x2000 (List.replicate 4 0#8)).map Prod.snd = some [1, 2, 3, 4] ∧
    bufferHit (one bufferLane) (lid 0) bufferLane .flat 0x2000 8 = none ∧ bufferHit (one at2) (lid 0) at2 .flat 0x2000 8 = none ∧
    gate entryLd { plain with d := .g 4, a := .g 2, t := .b32 } (lid 0) bufferLane (one bufferLane) = .go := by decide

/-- The machine of one lane whose grid has a constant window of 64 bytes at 0x2000. -/
def windowed : State := { one lane with grids := [(0, { bootGrid with csize := 64, cbase := 0x2000 })] }

/-- LoadsWaitForTheirDelivery, the constant window's last word. -/
theorem wit_window : readSrc windowed (lid 0) lane { plain with x := 60 } (.g 5) false .b32 = .val windowed 0 ∧
    spadOff { plain with a := .g 5, x := 60 } 0 = 60 ∧ vread windowed 0 0 0x203C 4 .load = (windowed, .bytes [0, 0, 0, 0] 0x203C 0) := by decide

/-- The machine of one lane in a domain of two modules, whose page 0x2000 lies in the other one. -/
def farPage : State :=
  { one at2 with dies := [(0, { die with tlb := [⟨0, 2, 0x20000000201F#64, 0⟩] })], mregs := (⟨.modid, 0, 0⟩, 0x10) :: (one at2).mregs }

/-- StoresWriteTheirBytes: ST and STS, outside a try and in one, and an ST whose home is another module. -/
theorem wit_stores : queueTrap (one at2) (lid 0) { plain with a := .g 2, b := .g 4, t := .b32 } = none ∧
    gate entrySt { plain with a := .g 2, b := .g 4, t := .b32 } (lid 0) at2 (one at2) = .go ∧
    reads (one at2) (lid 0) at2 { plain with a := .g 2, b := .g 4, t := .b32 } ⟨.b64, .b32, .none, .none⟩ (one at2) 0x2000 0 0 ∧
    vplace (one at2) 0 0 0x2000 .store = (one at2, .place 0x2000 0) ∧
    gate entrySts { plain with a := .g 5, b := .g 4, t := .b32 } (lid 0) lane (one lane) = .go ∧
    reads (one lane) (lid 0) lane { plain with a := .g 5, b := .g 4, t := .b32 } ⟨.b32, .b32, .none, .none⟩ (one lane) 0 0 0 ∧
    at2.quiet = true ∧ lane.acquired = true ∧ isRemote (one at2) 0 = false ∧
    (vplace farPage 0 0 0x2000 .store).2 = .place 0x200000002000 4 ∧ isRemote (vplace farPage 0 0 0x2000 .store).1 4 = true ∧ (∃ t, tryLane.spec = some t) ∧
    (match tryLane.spec with
     | some t => (match tryStore t .flat 0 0x2000 0x2000 [1#8] with | .ok _ => true | _ => false)
     | none => false) = true := by
  refine ⟨by decide, by decide, ⟨one at2, one at2, ?_⟩, by decide, by decide, ⟨one lane, one lane, ?_⟩, by decide, by decide, by decide, by decide,
    by decide, ⟨_, rfl⟩, ?_⟩ <;> decide

/-- A write of one byte to 0x2040 on its way from die 1 to die 0. -/
def onItsWay : FlatWrite :=
  { src := 1, dst := 0, vec := Vec.zero.set 1 1, stamp := ⟨1, 1⟩, cells := [(0x2040, 7#8)], tag := WTag.device }

/-- WritesChangeOnlyTheirBytes: a byte never written, a line that a try tracks, an armed monitor and a write on its way. -/
theorem wit_writes : flg ((one lane).mreg ⟨.dbgctl, 64, 0⟩) 3 = false ∧ [(0x2040, 7#8)].map Prod.fst ≠ ([] : List Nat) ∧
    (mget ((one lane).die 0).stamps 0x2040 ⟨0, 0⟩).lt ⟨1, 0⟩ = true ∧ (mget die.stamps 0x2040 ⟨0, 0⟩).lt ⟨0, 0⟩ = false ∧
    touchesLine [(0x2040, 7#8)] 0x81 = true ∧ (one lane).group? ⟨0, 0⟩ ≠ none ∧
    (flightsTo { one lane with inflight := [onItsWay] } 0)[0]? = some (0, onItsWay) ∧
    causallyReady { one lane with inflight := [onItsWay] } 0 onItsWay = true ∧ (onItsWay.cells.map Prod.fst).Nodup := by decide

/-- AddressFaultsComeInOrder: each fault at an address next to one that does not raise it. -/
theorem wit_address_faults : canonical 0x0100000000000000 = false ∧ canonical 0x00FFFFFFFFFFFFFF = true ∧
    preFault (one lane) (lid 0) lane 0x2001 4 = some .misaligned ∧ preFault (one lane) (lid 0) lane 0xFF00000000000000 4 = some .privateBounds ∧
    spadPlace (one lane) (lid 0) 2 4 = .error .misaligned ∧ spadPlace (one lane) (lid 0) 4096 4 = .error .spadBounds ∧
    roadSpad (one lane) 0 0 ⟨0, 0⟩ 0 4 = false ∧
    roadFlat { one lane with dies := [(0, { die with road := [⟨0, none, 0x2000, 0x2001, 0, false, 1⟩] })] } 0 0 0x2000 4 = true ∧
    roadSpad { one lane with dies := [(0, { die with road := [⟨0, some ⟨0, 0⟩, 3, 4, 0, false, 1⟩] })] } 0 0 ⟨0, 0⟩ 0 4 = true ∧
    (vread { one lane with dies := [(0, { die with tlb := [⟨0, 2, 0x201B#64, 0⟩] })] } 0 0 0x2000 4 .load).2 = .fault .permission 0 false ∧
    replayable .permission = false ∧ (vread { one lane with dies := [(0, Die.reset)] } 0 0 0x2000 4 .load).2 = .fault .notPresent 4 false ∧
    replayable .notPresent = true := by decide

/-- A lane in a try that tracks the line of that byte. -/
def readLane (hit : Bool) : Lane := { tryLane with spec := tryLane.spec.map (fun t => { t with lines := [⟨.flat, 0, 0x81⟩], conflict := hit }) }

/-- TriesOpenAndCommit: a first TRY, one at the depth's limit, a COMMIT of the outermost, and one that meets a write on its way. -/
theorem wit_tries : gate entryTry { plain with a := .g 6, x := 0x00080001 } (lid 0) lane (one lane) = .go ∧ lane.spec = none ∧
    (∀ i ≤ fld (0x00080001 : Word) 6 0, (lane.reg (6 + i)).full = true) ∧ lane.regsFull [4] = true ∧ gate entryTry { plain with a := .g 6, x := 0x00080001 } (lid 0) tryLane (one tryLane) = .go ∧
    gate entryCommit plain (lid 0) tryLane (one tryLane) = .go ∧ tryLane.quiet = true ∧ (drainTo (one tryLane) 0).lane? (lid 0) = some tryLane ∧
    gate entryCommit plain (lid 0) (readLane false) (one (readLane false)) = .go ∧
    (drainTo { one (readLane false) with inflight := [onItsWay] } 0).lane? (lid 0) = some (readLane true) ∧
    gate entryTstat { plain with d := .g 4, t := .b32 } (lid 0) lane (one lane) = .go ∧
    gate entryAbort { plain with b := .imm, t := .b32, x := 255 } (lid 0) tryLane (one tryLane) = .go := by decide

/-- AbortsRollBack: ABORT in a try and outside one, a range of two registers, a lane that has parked as a trap. -/
theorem wit_aborts : gate entryAbort { plain with b := .imm, t := .b32, x := 255 } (lid 0) tryLane (one tryLane) = .go ∧
    gate entryAbort { plain with b := .imm, t := .b32, x := 255 } (lid 0) lane (one lane) = .go ∧
    readSrc (one tryLane) (lid 0) tryLane { plain with x := 255 } .imm false .b32 = .val (one tryLane) 255 ∧
    tryLane.spec.map (·.regs) = some [7, 8] ∧ 6 + 1 < tryLane.regs.length ∧
    ((one tryLane).warp? ⟨0, 0, 0⟩).map (fun x => x.masks.length) = some 12 ∧ (∀ p ∈ (one tryLane).lanes, p.2.st.parked = false) ∧
    tryLane.st ≠ .trapped ∧ ({ tryLane with st := .trapped } : Lane).spec.isSome = true := by decide

/-- The machine of one lane whose queue 11 holds `count` of 2 entries. -/
def queued (count : Nat) : State :=
  { one lane with groups := [(⟨0, 0⟩, { Group.placed 0 0 1 16 4096 false 0 with queues := List.replicate 11 none ++ [some ⟨64, 2, 1, count⟩] })] }

/-- QueuesKeepTheirOrder: a queue at the end of the allocation and one beyond it; a queue empty, half full and full. -/
theorem wit_queues : gate entryQcfg { plain with d := .q 11, x := 0x000F003F } (lid 0) lane (one lane) = .go ∧
    63 * 64 + 4 * 16 ≤ 4096 ∧ (4096 : Nat) < 63 * 64 + 4 * 17 ∧
    gate entryQrst { plain with d := .q 11 } (lid 0) lane (queued 1) = .go ∧
    gate entryQlen { plain with d := .g 4, a := .q 11, t := .b32 } (lid 0) lane (queued 1) = .go ∧ lane.regsFull [4] = true ∧
    acquired (queued 1) (lid 0) = true ∧
    (∀ n < 3, ((queued n).group? ⟨0, 0⟩).map (fun g => g.queues.getD 11 none) = some (some ⟨64, 2, 1, n⟩)) ∧
    (∀ b ∈ [64, 68], roadSpad (queued 1) 0 0 ⟨0, 0⟩ b 4 = false) ∧ flg ((queued 1).mreg ⟨.dbgctl, 0, 0⟩) 3 = false := by decide

/-! ### Squares, sets and engines -/

/-- A word of the memory layout that names g4, the pair g2 and g5. -/
def wSq : IWord := { plain with d := .g 4, a := .g 2, b := .g 5, t := .b32 }

/-- SquareRequestsAreSent: an atomic at 0x2000, and its address faults. -/
theorem wit_square_requests : squareRow (.aadd wSq) = some (wSq, entryAtomic sqAll, ⟨0x1C0, 4, [4], true⟩) ∧
    reads (one at2) (lid 0) at2 wSq ⟨.b64, .b32, .b32, .none⟩ (one at2) 0x2000 0 0 ∧ at2.quiet = true ∧ at2.regsFull [4] = true ∧
    gate (entryAtomic sqAll) wSq (lid 0) at2 (one at2) = .go ∧ canonical 0x2000 = true ∧ inPrivate 0x2000 = false ∧
    roadFlat (one at2) 0 0 0x2000 4 = false ∧ vplaceAs (one at2) 0 0 0x2000 .square .square = (one at2, .place 0x2000 0) ∧
    vplaceAs (one at2) 0 0 0x2000 .square .load = (one at2, .place 0x2000 0) ∧
    ordOf { wSq with x := 0x2C000000 } = 4 ∧ (fenceSc (one at2) 5).lane? (lid 0) = some at2 ∧
    roadFlat { one at2 with dies := [(0, { die with road := [⟨0, none, 0x2000, 0x2001, 0, false, 1⟩] })] } 0 0 0x2000 4 = true ∧
    (vplaceAs { one at2 with dies := [(0, { die with tlb := [⟨0, 2, 0x201B#64, 0⟩] })] } 0 0 0x2000 .square .square).2 = .fault .permission 0 false ∧
    replayable .permission = false := by
  refine ⟨rfl, ⟨one at2, one at2, ?_⟩, ?_⟩ <;> decide

/-- A monitor of the line at 0x2000. -/
def mon (hit : Bool) : Monitor :=
  { die := 0, line := 0x80, loc := 0x2000, size := 4, captured := 0, triggered := hit, byWrite := none, dormant := false }

/-- MwaitSleepsUntilATrigger: with no monitor, an armed one and a triggered one, with and without a time. -/
theorem wit_mwait : gate entryMwait { plain with d := .g 4, b := .imm, t := .n32, x := 1 } (lid 0) lane (one lane) = .go ∧
    readSrc (one lane) (lid 0) lane { plain with x := 1 } .imm false .n32 = .val (one lane) 1 ∧
    readSrc (one lane) (lid 0) lane plain .z false .n32 = .val (one lane) 0 ∧ lane.mon = none ∧
    lane.regsFull (destRegs (.g 4) .b32) = true ∧ (mon false).triggered = false ∧ (mon true).triggered = true := by
  decide

/-- A request of AADD of lane 0 on the 4 bytes at 0x2000. -/
def sqReq : SqReq :=
  { lane := lid 0, pid := 9, op := 0x1C0, ty := .b32, loc := 0x2000, va := 0x2000, b := 3, c := 0, ctx := 0, pc := 0x1FF8, sc := false
    needs := Vec.zero, parked := false, stale := false }

/-- The machine of one lane with a request at the Square of die 0. -/
def atSquare : State := { one lane with dies := [(0, { die with sqq := [sqReq] })] }

/-- SquareOperationsReadAndWrite: values at the ends of the types' ranges, and a request of a lane by itself. -/
theorem wit_square_operations : squareUp atSquare 0 = true ∧ (atSquare.die 0).sqq = [sqReq] ∧ Vec.le sqReq.needs (atSquare.die 0).vec = true ∧
    atSquare.lane? (lid 0) = some lane ∧ lane.mon = none ∧ flg (atSquare.mreg ⟨.dbgctl, 0, 0⟩) 3 = false ∧ 0 < tyBytes .b32 ∧
    (∀ i < 4, (mget (atSquare.die 0).stamps (0x2000 + i) ⟨0, 0⟩).lt ⟨1, 0⟩ = true) ∧
    placeError atSquare 0x2000 1 .square = none ∧ (∀ p ∈ atSquare.lanes, p.2.trigDue = false) ∧ lane.spec = none ∧
    (0xFFFFFFFF#32 : Word) = 0xFFFFFFFF#32 ∧ (0 : Int) < (1#32 : Word).toInt := by decide

/-- The machine of one lane with the operation `op` on 0x2000 at the Square of die 0, whose memory holds `bs` there. -/
def sqOp (op : Nat) : SqReq := { sqReq with op := op, ty := .b64 }
def squareOf (op : Nat) (bs : List Byte) : State := { one lane with dies := [(0, { die with sqq := [sqOp op], view := bytesAt 0x2000 bs })] }

/-- The operation is by itself at its Square. -/
theorem alone_at_square (op : Nat) (bs : List Byte) (h : placeError (squareOf op bs) 0x2000 1 (sqOp op).kind = none) :
    squareAlone (squareOf op bs) 0 (sqOp op) lane where
  die := by decide
  lane := rfl
  spec := rfl
  idle p hp _ := by obtain rfl := List.mem_singleton.mp hp; rfl
  late p hp _ := by obtain rfl := List.mem_singleton.mp hp; rfl
  watch := (by decide : flg ((one lane).mreg ⟨.dbgctl, 0, 0⟩) 3 = false)
  up := (by decide : squareUp (one lane) 0 = true)
  queue := rfl
  parked := rfl
  stale := rfl
  sc := rfl
  seen := rfl
  good := h

/-- A deque of 2 entries at 0x2040 with the counts given. -/
def deque (cap top bottom : Nat) : List Byte := bytesLE 8 0x2040 ++ bytesLE 8 cap ++ bytesLE 8 top ++ bytesLE 8 bottom

/-- The same as the operation is performed. -/
def atWork (bs : List Byte) : State := { one lane with dies := [(0, { die with view := bytesAt 0x2000 bs })] }

/-- SquareOperationsReadAndWrite: AADDL and the deque operations by themselves; deques that are bad, full, empty and half full, whose entry's page is
present or is not. -/
theorem wit_deques : (∀ op ∈ [0x1CB, 0x1CF, 0x1D0, 0x1D1, 0x1D2], squareAlone (squareOf op (deque 2 1 2)) 0 (sqOp op) lane) ∧
    (∀ i < 4, ofBytesLE (viewRead (squareOf 0x1CF (deque 2 1 2)) 0 (0x2000 + 8 * i) 8) = [0x2040, 2, 1, 2].getD i 0) ∧
    calm (atWork (deque 2 1 2)) (sqOp 0x1CF) lane ∧ ((atWork (deque 2 1 2)).die 0).sqq = [] ∧
    vplace (atWork (deque 2 1 2)) 0 0 0x2048 .square = (atWork (deque 2 1 2), .place 0x2048 0) ∧
    (vplace (atWork (deque 2 1 2)) 0 0 0x3040 .square).2 = .fault .notPresent 4 false ∧
    (∀ j < 8, (mget ((atWork (deque 2 1 2)).die 0).stamps (0x2048 + j) ⟨0, 0⟩).lt (nextStamp (atWork (deque 2 1 2)) 0) = true) ∧
    (0x2048 + 8 ≤ 0x2000 ∨ 0x2000 + 32 ≤ 0x2048) ∧ canonical 0x2040 = true ∧ inPrivate 0x2040 = false := by
  refine ⟨fun op h => alone_at_square _ _ ?_, by decide, ?_, by decide, by decide, by decide, by decide, by decide, by decide, by decide⟩
  · revert h
    revert op
    decide
  · exact ⟨rfl, rfl, fun p hp _ => by obtain rfl := List.mem_singleton.mp hp; rfl, fun p hp _ => by obtain rfl := List.mem_singleton.mp hp; rfl, rfl⟩

/-- SquareOperationsReadAndWrite: a Square with no monitor armed, and one with 4,096. -/
theorem wit_monitors (s : State) : armedAt { s with lanes := [] } 0 = 0 ∧
    armedAt { s with lanes := List.replicate 4096 (lid 1, { lane with mon := some (mon false) }) } 0 = 4096 := by
  constructor
  · rfl
  · simp only [armedAt, List.filter_replicate, mon, BEq.rfl, if_true, List.length_replicate]

/-- The machine of one lane in a domain of two modules. -/
def twoModules : State := { one lane with mregs := (⟨.modid, 0, 0⟩, 0x10) :: (one lane).mregs }

/-- The same with no Aflolas port ready. -/
def noPorts : State := { twoModules with mregs := (⟨.ready, 0, 0⟩, 0) :: twoModules.mregs }

/-- R413: an access to another module that no ready port reaches fails with REMOTE_TIMEOUT. -/
theorem test_no_ready_port : memError { farPage with mregs := (⟨.ready, 0, 0⟩, 0x00000000000000C3) :: farPage.mregs } 0x200000002000 4 false = some .remoteTimeout ∧
    memError farPage 0x200000002000 4 false = none := by decide

/-- SetRequestsAreSent: SINS of a set of the module and of another one, and SLOAD of an array at an aligned and at an unaligned address. -/
theorem wit_set_requests : setRow (.sins { plain with d := .g 4, a := .g 5, b := .g 6, t := .n32 }) =
      some ({ plain with d := .g 4, a := .g 5, b := .g 6, t := .n32 }, entryElem, 0x202) ∧
    reads (one lane) (lid 0) lane { plain with d := .g 4, a := .g 5, b := .g 6, t := .n32 } ⟨.b32, .b32, .b32, .none⟩ (one lane) 0 0 0 ∧
    gate entryElem { plain with d := .g 4, a := .g 5, b := .g 6, t := .n32 } (lid 0) lane (one lane) = .go ∧
    arrayFault (one lane) (lid 0) 0x2000 16 = none ∧ arrayFault (one lane) (lid 0) 0x2002 16 = some .misaligned ∧
    gate entryArr { plain with d := .g 4, a := .g 5, b := .g 2, c := .g 6, t := .n32 } (lid 0) lane (one lane) = .go ∧
    farSet (one lane) 0 = false ∧ farSet twoModules (2 ^ 29 + 1) = true ∧ portsUp twoModules = true ∧ portsUp noPorts = false ∧
    farSet noPorts (2 ^ 29 + 1) = true ∧ [0, 2 ^ 29 + 1].filter (farSet twoModules) = [2 ^ 29 + 1] ∧
    lane.regsFull [4] = true := by
  refine ⟨rfl, ⟨one lane, one lane, ?_⟩, ?_⟩ <;> decide

/-- A set of 8 elements that holds 2 and 5. -/
def set8 : Machine.PSet := { ctx := 0, u := 8, elems := [2, 5], forms := [(0, .list)], hash := none, ctrs := List.replicate 21 0 }

/-- A set operation of lane 0 on the set at slot 0 of die 0. -/
def setReq (op b c : Nat) : SetReq :=
  { lane := lid 0, pid := 9, op := op, ty := .n32, a := 1, b := b, c := c, x := 0, ctx := 0, pc := 0x1FF8, needs := Vec.zero, parked := false }

/-- The machine of one lane with that operation at the Square of die 0, which has a set of 5 and 6 too. -/
def atSets (op b c : Nat) : State :=
  { one lane with dies := [(0, { die with sets := [(0, set8), (1, { set8 with elems := [5, 6] })], setq := [setReq op b c] })] }

/-- The same as the operation is performed. -/
def inSets : State := { one lane with dies := [(0, { die with sets := [(0, set8), (1, { set8 with elems := [5, 6] })] })] }

/-- The operation is by itself at its Square. -/
theorem alone_in_sets (op b c : Nat)
    (h : squareUp (atSets op b c) 0 = true ∧
      ∀ e ∈ operandDies (atSets op b c) (setReq op b c), Vec.le ((atSets op b c).die e).vec ((atSets op b c).die 0).vec = true) :
    setAlone (atSets op b c) 0 (setReq op b c) lane where
  die := by decide
  up := h.1
  queue := rfl
  parked := rfl
  seen := rfl
  others := h.2
  lane := rfl
  mon := rfl
  spec := rfl
  idle p hp _ := by obtain rfl := List.mem_singleton.mp hp; rfl
  late p hp _ := by obtain rfl := List.mem_singleton.mp hp; rfl

/-- SetOperationsKeepTheMembers: SINS, SDEL and SHAS of the set's last element, and a union, an SNEXT and an SREP. -/
theorem wit_set_operations :
    (∀ op ∈ [0x202, 0x203, 0x204], setAlone (atSets op 7 0) 0 (setReq op 7 0) lane ∧ setOf (atSets op 7 0) 0 1 = some (0, 0, set8) ∧
      let y := if op = 0x204 then set8 else (set8.change (op == 0x202) 7).1
      let used := (if set8.hash.isSome != y.hash.isSome then (itemsOf 0 set8).map (fun i => (0, i)) else []) ++ operandUses 0 0 set8 (· == 0)
      (putSet (atSets op 7 0) 0 0 y false used).any (fun p => spillsAvail (atSets op 7 0) p used == .ready) = true ∧ badUse (atSets op 7 0) used = false) ∧
    (∀ op ∈ [0x206, 0x20B, 0x210], setAlone (atSets op 257 1) 0 (setReq op 257 1) lane ∧
      (match onSet inSets 0 0 set8 (setReq op 257 1) with | .done _ _ _ => true | _ => false) = true) ∧
    setOf (atSets 0x206 257 1) 0 257 = some (0, 1, { set8 with elems := [5, 6] }) := by
  refine ⟨fun op h => ⟨alone_in_sets _ _ _ ?_, ?_⟩, fun op h => ⟨alone_in_sets _ _ _ ?_, ?_⟩, by decide⟩ <;>
    revert h <;> revert op <;> decide

/-- SetsAreMadeFilledAndFreed: a free slot, an array to read and one to write, a bad handle, elements beyond the set and members beyond it. -/
theorem wit_sets_made :
    (∀ op ∈ [0x200, 0x201, 0x20D, 0x20E], setAlone (atSets op 0x2000 1) 0 (setReq op 0x2000 1) lane) ∧ freeSlot (atSets 0x200 0x2000 1) 0 = some 2 ∧
    mget ((atSets 0x200 0x2000 1).die 0).gens 2 1 = 1 ∧
    (putSet (atSets 0x200 0x2000 1) 0 2 { ctx := 0, u := 0x2001, elems := [], forms := [], hash := none, ctrs := List.replicate 21 0 } true []).any
      (fun p => spillsAvail (atSets 0x200 0x2000 1) p [] == .ready) = true ∧
    (∀ op ∈ [0x20D, 0x20E], (match onSet inSets 0 0 set8 (setReq op 0x2000 1) with | .done _ _ _ => true | _ => false) = true) ∧
    (bulkRead inSets 0 0 0x2000 4 .load).2 = (.bytes [0, 0, 0, 0] 0x2000 0, 0x2000) ∧
    (bulkPlace inSets 0 0 0x2000 4 .store).2 = ([(0x2000, 0, 4)], .place 0x2000 0, 0x2000) ∧
    (∀ p ∈ (placeCells 0x2000 [(0x2000, 0, 4)] (entryBytes [2])).1, (mget ((atSets 0x20E 0x2000 1).die 0).stamps p.1 ⟨0, 0⟩).lt ⟨1, 0⟩ = true) ∧
    setOf (atSets 0x20D 0x2000 1) 1 1 = none ∧ set8.u ≤ (setReq 0x202 8 0).b ∧
    (match onSet inSets 0 0 set8 (setReq 0x206 2 1) with | .fail _ _ a => a == 2 | _ => false) = true ∧
    (∃ n ∈ [5, 6], ({ set8 with u := 6 } : Machine.PSet).u ≤ n) := by
  refine ⟨fun op h => alone_in_sets _ _ _ ?_, ?_⟩
  · revert h
    revert op
    decide
  · decide
/-! ### Matrix and stream engines -/

/-- A configuration of 4 by 8 with one tile of 2 rows. -/
def cfg8 : MCfg := { k := 4, n := 8, afmt := .i8, smode := 0, sexp := 0, srec := 0, tiles := [(0, 2)] }

/-- Its engine, owned by the warp. -/
def engine : Matrix := { Matrix.reset with owner := some ⟨0, 0, 0⟩, cfg := some cfg8 }

/-- The whole warp at 0x2000, its core's engine in state `m`. -/
def whole (m : Matrix) : State :=
  { machine 0xFFFFFFFF ((lanesOfWarp ⟨0, 0, 0⟩).map (fun k => (k, lane))) with cores := [(0, { Core.reset with mx := m })] }

/-- The whole warp reaches a matrix instruction whose checks pass in a lane. -/
theorem gathered_whole (w : IWord) (e : Entry) (m : Matrix) (h : ∀ k ∈ lanesOfWarp ⟨0, 0, 0⟩, gate e w k lane (whole m) = .go)
    (on : (lanesOfWarp ⟨0, 0, 0⟩).filter (guardOn w (whole m)) = lanesOfWarp ⟨0, 0, 0⟩) :
    gathered w e (whole m) ⟨0, 0, 0⟩ (lanesOfWarp ⟨0, 0, 0⟩) (lid 0) lane where
  warp := ⟨_, rfl, rfl⟩
  lanes := rfl
  free k hk := by
    have all : ∀ j ∈ lanesOfWarp ⟨0, 0, 0⟩, mfind ((lanesOfWarp ⟨0, 0, 0⟩).map (fun k => (k, lane))) j = some lane := by decide
    have h : (whole m).lane? k = some lane := all k hk
    simp only [sqHeld, h]
    rfl
  ready k hk :=
    have all : ∀ j ∈ lanesOfWarp ⟨0, 0, 0⟩, mfind ((lanesOfWarp ⟨0, 0, 0⟩).map (fun k => (k, lane))) j = some lane := by decide
    ⟨lane, all k hk, rfl, rfl, rfl, rfl, .inl (h k hk)⟩
  on_ := on.symm
  head := rfl
  lane := rfl

/-- MatrixCommandsAreQueued: MZER of tile 0 and MLDA of its two rows. -/
theorem wit_matrix_commands : gathered plain entryMzer (whole engine) ⟨0, 0, 0⟩ (lanesOfWarp ⟨0, 0, 0⟩) (lid 0) lane ∧
    gathered { plain with a := .g 4, b := .g 5 } entryMlda (whole engine) ⟨0, 0, 0⟩ (lanesOfWarp ⟨0, 0, 0⟩) (lid 0) lane ∧
    mxRow (whole engine) (lid 0) engine cfg8 0 0 0 (.mzer plain) = some ⟨plain, entryMzer, .none, .none, .none, 0x247, .none, [], some [], (engine.tile 0).2 ≠ 0⟩ ∧
    (engine.tile 0).2 ≠ 0 ∧ engine.owner = some ⟨0, 0, 0⟩ ∧ engine.cfg = some cfg8 ∧ 2 ≤ roadRoom (whole engine) 0 ∧
    tileOk engine { plain with a := .g 4, b := .g 5 } 2 = true ∧ tileOk engine { plain with a := .g 4, b := .g 5 } 3 = false ∧
    (∀ j ∈ lanesOfWarp ⟨0, 0, 0⟩, (whole engine).lane? j = some lane) ∧ warpQuiet (whole engine) ⟨0, 0, 0⟩ = true :=
  ⟨gathered_whole _ _ _ (by decide) (by decide), gathered_whole _ _ _ (by decide) (by decide), rfl, by decide, by decide, by decide, by decide, by decide,
   by decide, by decide, by decide⟩

/-- MatrixEnginesHaveOneOwner: an engine that no warp owns and one that the warp owns. -/
theorem wit_matrix_owner : gathered plain entryMx0 (whole .reset) ⟨0, 0, 0⟩ (lanesOfWarp ⟨0, 0, 0⟩) (lid 0) lane ∧
    gathered plain entryMx0 (whole engine) ⟨0, 0, 0⟩ (lanesOfWarp ⟨0, 0, 0⟩) (lid 0) lane ∧
    gathered { plain with a := .g 4 } entryMcfg (whole engine) ⟨0, 0, 0⟩ (lanesOfWarp ⟨0, 0, 0⟩) (lid 0) lane ∧
    gathered { plain with d := .z } entryMsync (whole engine) ⟨0, 0, 0⟩ (lanesOfWarp ⟨0, 0, 0⟩) (lid 0) lane ∧
    gathered { plain with d := .g 4 } entryMstat (whole engine) ⟨0, 0, 0⟩ (lanesOfWarp ⟨0, 0, 0⟩) (lid 0) lane ∧
    engine.q = [] ∧ engine.fifo = [] ∧ warpQuiet (whole engine) ⟨0, 0, 0⟩ = true ∧ (0 : Nat) % 64 = 0 ∧ spadResolve (whole engine) ⟨0, 0⟩ 0 64 = some (⟨0, 0⟩, 0) :=
  ⟨gathered_whole _ _ _ (by decide) (by decide), gathered_whole _ _ _ (by decide) (by decide), gathered_whole _ _ _ (by decide) (by decide),
   gathered_whole _ _ _ (by decide) (by decide), gathered_whole _ _ _ (by decide) (by decide), by decide⟩

/-- A configuration block that MCFG takes: K = N = 1, i8. -/
theorem wit_mcfg : (parseCfg (0#8 :: 0#8 :: BitVec.ofNat 8 Ty.i8.code :: List.replicate 61 0#8)).isLeft = true := by decide

/-- A command of the engine. -/
def mcmd (op rows : Nat) : MCmd :=
  { num := 0, op := op, ty := .i8, x := 0, a := 0, b := rows, c := 4, aq := .none, dq := .none, warp := ⟨0, 0, 0⟩, ctx := 0, lanes := [lid 0]
    pids := [7], scale := none, row := 0, part := [], parked := false, waited := 0 }

/-- MatrixCommandsComplete: a command at the head, of one row and of two. -/
theorem wit_matrix_complete : ({ engine with q := [mcmd 0x248 1, mcmd 0x24B 0] } : Matrix).q = mcmd 0x248 1 :: [mcmd 0x24B 0] ∧
    (mcmd 0x248 1).parked = false ∧ ((whole engine).warp? ⟨0, 0, 0⟩).map (fun x => x.masks.headD 0#32) = some 0xFFFFFFFF#32 ∧
    spadResolve (whole engine) ⟨0, 0⟩ 0 384 = some (⟨0, 0⟩, 0) ∧ spadResolve (whole engine) ⟨0, 0⟩ 4096 0 = some (⟨0, 0⟩, 4096) ∧
    (mcmd 0x248 1).lanes.Nodup ∧ gangWorks (whole engine) 0 = true := by decide

/-- A command of a stream engine that copies `n` bytes from 0x2000 to 0x2800. -/
def cpyArgs (n : Nat) : CmdArgs := { op := 0x280, ty := .none, x := 0, av := 0x2800, bv := 0x2000, cv := n, note := false, cpl := 0, port := false }

/-- CommandsAreAccepted: CPY of 16 bytes, and of one byte more than the private window's start leaves. -/
theorem wit_commands : cmdRow (.cpy { plain with d := .g 4, a := .g 2, b := .g 6, c := .g 8 }) =
      some ⟨{ plain with d := .g 4, a := .g 2, b := .g 6, c := .g 8 }, entryCpy, 0x280, ⟨.b64, .b64, .b32, .b32⟩⟩ ∧
    gate entryCpy { plain with d := .g 4, a := .g 2, b := .g 6, c := .g 8 } (lid 0) lane (one lane) = .go ∧
    reads (one lane) (lid 0) lane { plain with d := .g 4, a := .g 2, b := .g 6, c := .g 8 } ⟨.b64, .b64, .b32, .b32⟩ (one lane) 0 0 0 ∧
    cmdCheck (one lane) (lid 0) (cpyArgs (2 ^ 20)) = .inl ([⟨none, 0x2800, 0x102800⟩, ⟨none, 0x2000, 0x102000⟩], [], 2 ^ 20) ∧
    ((engineCmds (one lane) 0).filter (fun c => isCopy c.op)).length < 1024 ∧ ((one lane).die 0).road.length + 2 ≤ 4096 := by
  refine ⟨rfl, by decide, ⟨one lane, one lane, ?_⟩, ?_⟩ <;> decide

/-- StreamStateIsReadAndDefined: no ticket outstanding, blocks that ISCFG and ITDEF take. -/
theorem wit_stream_state : gate entrySwait { plain with d := .g 4, a := .g 5 } (lid 0) lane (one lane) = .go ∧
    gate entrySwaitAll { plain with d := .g 4, x := 1 } (lid 0) lane (one lane) = .go ∧
    gate entryChwp { plain with d := .g 4, x := 15 } (lid 0) lane (one lane) = .go ∧
    gate entryIscfg { plain with a := .g 5, x := 3 } (lid 0) lane (one lane) = .go ∧
    gate entryItdef { plain with a := .g 5, x := 7 } (lid 0) lane (one lane) = .go ∧
    ticketOut (one lane) (lid 0) 1 = false ∧ lane.owed = [] ∧ (istreamOf (one lane) ⟨0, 0⟩ 3).isRunning = false ∧
    (parseIs (List.replicate 32 0#8)).isSome = true ∧
    (parseIter (List.replicate 8 0#8 ++ (List.replicate 4 [1#8, 0#8, 0#8, 0#8]).flatten ++ List.replicate 32 0#8 ++ [1#8] ++ List.replicate 7 0#8) 4096).isLeft = true := by
  decide

/-- A command of the stream engine of core 0. -/
def cmd (op n : Nat) : Cmd :=
  { id := 5, waited := 0, ticket := 1, op := op, ty := .none, x := 0, av := 0x2800, bv := 0x2000, cv := n, lane := lid 0, rm := 0, ctx := 0, note := false, cpl := 0, start := 0
    recs := [], is := none, done := [], next := 0, out := false, fl := 0, st := none, parked := false, posted := false, units := 0, back := 0 }

/-- The machine of one lane with that command outstanding. -/
def streaming (c : Cmd) : State := { one lane with cores := [(0, { Core.reset with cmds := [c] })] }

/-- A record of one 32-bit element at the start of the scratchpad. -/
def rec4 : IterRec := { base := 0, ext := [1, 1, 1, 1], str := [0, 0, 0, 0], ndim := 1, spad := true, bc := [], esz := 2 }

/-- An indirect stream of one 32-bit index into an array of `limit` elements, both at 0x2000 on. -/
def isc (limit : Nat) : IsCfg := { abase := 0x2800, ibase := 0x2000, count := 1, limit := limit, esz := 2, i64 := false, ispad := false, qn := 11 }

/-- The same machine with nothing mapped. -/
def unmapped (s : State) : State := { s with dies := [(0, Die.reset)] }

/-- StreamCommandsAdvance: the first and only chunk of a copy, a sweep, an index in range and out of it, a storage read, an ended command and
a held completion. -/
theorem wit_stream_advance : cmdsOf (streaming (cmd 0x280 16)) 0 1 = [cmd 0x280 16] ∧ chunkDue (streaming (cmd 0x280 16)) 0 (cmd 0x280 16) 0 = true ∧
    chunkRead (streaming (cmd 0x280 16)) 0 (cmd 0x280 16) 0 16 = (streaming (cmd 0x280 16), .inl (List.replicate 16 0#8)) ∧
    (chunkWrite (streaming (cmd 0x280 16)) 0 (cmd 0x280 16) 0 (List.replicate 16 0#8)).2 = none ∧
    cmdLive (streaming (cmd 0x280 16)) (cmd 0x280 16) = true ∧
    sweepRead 0 { cmd 0x289 0 with ty := .i32, recs := [rec4, rec4, rec4] } (sweepIns { cmd 0x289 0 with ty := .i32, recs := [rec4, rec4, rec4] } 0)
      (streaming (cmd 0x289 0)) = (streaming (cmd 0x289 0), .inl [0, 0]) ∧
    isRoom { queued 1 with cores := [(0, { Core.reset with cmds := [cmd 0x286 0] })] } (cmd 0x286 0) (isc 1) = true ∧
    isIndex (streaming (cmd 0x286 0)) 0 (cmd 0x286 0) (isc 1) 0 = (streaming (cmd 0x286 0), .inl 0) ∧ (isc 0).limit ≤ 0 ∧
    (engRead (streaming (cmd 0x286 0)) 0 (cmd 0x286 0) 0x2800 4).2 = .inl [0#8, 0#8, 0#8, 0#8] ∧
    (chunkRead (unmapped (streaming (cmd 0x280 16))) 0 (cmd 0x280 16) 0 16).2 = .inr (.park .notPresent 4 0x2000) ∧
    (chunkWrite (unmapped (streaming (cmd 0x280 16))) 0 (cmd 0x280 16) 0 (List.replicate 16 0#8)).2 = some (.park .notPresent 4 0x2800) := by decide

/-- The machine of one lane with a CPYW to 0x2800, whose destination entry stands at die 0. -/
def channeled (c : Cmd) : State := { streaming c with dies := [(0, { die with road := [⟨0, none, 0x2800, 0x2810, 0, false, 10⟩] })] }

/-- StreamCommandsAdvance, CPYW: a chunk that is read and written, one that cannot be read, a copy behind it that is to be skipped, and a destination in
the scratchpad. -/
theorem wit_channel : cmdsOf (channeled (cmd 0x281 16)) 0 1 = [cmd 0x281 16] ∧ chunkDue (channeled (cmd 0x281 16)) 0 (cmd 0x281 16) 0 = true ∧
    chunkRead (channeled (cmd 0x281 16)) 0 (cmd 0x281 16) 0 16 = (channeled (cmd 0x281 16), .inl (List.replicate 16 0#8)) ∧
    (chunkWrite (channeled (cmd 0x281 16)) 0 (cmd 0x281 16) 0 (List.replicate 16 0#8)).2 = none ∧
    ((chunkWrite (channeled (cmd 0x281 16)) 0 (cmd 0x281 16) 0 (List.replicate 16 0#8)).1.die 0).road = [⟨0, none, 0x2800, 0x2810, 0, false, 10⟩] ∧
    (cmd 0x281 16).owner = 10 ∧ flg (cmd 0x281 16).x 13 = false ∧ (cmd 0x281 16).av = 0x2800 ∧
    ((channeled (cmd 0x281 16)).group? ⟨0, 0⟩).map (fun g => g.chans.length) = some 16 ∧
    (chunkRead (channeled (cmd 0x281 16)) 0 { cmd 0x281 16 with bv := 2 ^ 60 } 0 16).2 = .inr (.fail .noncanonical 0xFF false 0 (2 ^ 60)) ∧
    (chunkWrite (channeled (cmd 0x281 16)) 0 { cmd 0x281 16 with av := 2 ^ 60 } 0 [0#8]).2 = some (.fail .noncanonical 0xFF false 0 (2 ^ 60)) ∧
    sN0 (cmd 0x281 16).x = 0 ∧ ({ cmd 0x281 16 with id := 6, ticket := 2 } : Cmd).same (cmd 0x281 16) = false ∧
    flg (0x2000 : Word) 13 = true ∧ spadResolve (channeled (cmd 0x281 16)) ⟨0, 0⟩ (64 % 2 ^ 32) 16 = some (⟨0, 0⟩, 64) := by decide

/-- A record of one 32-bit element in flat memory at 0x2800. -/
def rec4Flat : IterRec := { rec4 with spad := false, base := 0x2800 }

/-- StreamCommandsAdvance, CPYT: elements in the scratchpad, and in flat memory that is mapped, is not, and does not exist. -/
theorem wit_elements :
    let c : Cmd := { cmd 0x282 4 with recs := [rec4, rec4] }
    chunkDue (streaming c) 0 c 0 = true ∧ rec4.spad = true ∧ elemsRead 0 c rec4 [0] (streaming c) = (streaming c, .inl [0]) ∧
    elemsPlace 0 c rec4 [0] (streaming c) = (streaming c, none) ∧ (elemsPlace 0 c rec4Flat [0] (streaming c)).2 = none ∧
    (elemsPlace 0 c rec4Flat [0] (unmapped (streaming c))).2 = some (.park .notPresent 4 0x2800) ∧
    (elemsRead 0 c rec4Flat [0] (unmapped (streaming c))).2 = .inr (.park .notPresent 4 0x2800) ∧
    (elemsPlace 0 c { rec4Flat with base := 2 ^ 60 } [0] (streaming c)).2 = some (.fail .noncanonical 0xFF false 0 (2 ^ 60)) ∧
    (elemsRead 0 c { rec4Flat with base := 2 ^ 60 } [0] (streaming c)).2 = .inr (.fail .noncanonical 0xFF false 0 (2 ^ 60)) := by decide

/-- An NVM command that reads the one block of 512 bytes of a storage read, `done` of whose chunks are moved. -/
def nvm (ready : Bool) (done : List Nat) : NvmeCmd :=
  { cid := 0, core := 0, ticket := 1, id := 5, first := 0, blocks := 1, page := 0, pages := 1, waited := 65536, ready := ready, done := done }

/-- The machine of one lane with a storage read of one block whose NVM commands are `ks`; its binding has queues of 4 entries at 0x10000 and 0x11000, a
staging area of 64 KiB at 0x20000 and a TMO of 1, and `v` is the last word of the completion queue's first entry. -/
def storing (next : Nat) (ks : List NvmeCmd) (v : Nat) : State :=
  { streaming { cmd 0x28A 1 with next := next } with
    mregs := [(⟨.ready, 0, 0⟩, 0x00000FFFFFFFFFC3#64), (⟨.nsbctl, 0, 0⟩, 0x8000000900000001), (⟨.nsbcap, 0, 0⟩, 0xFFFFFFFF), (⟨.nsbsq, 0, 0⟩, 0x10002),
              (⟨.nsbcq, 0, 0⟩, 0x11002), (⟨.nsbstg, 0, 0⟩, 0x20001), (⟨.nsbds, 0, 0⟩, 0x100000000)]
    dies := [(0, { die with view := bytesAt 0x11000 (List.replicate 12 0#8 ++ bytesLE 4 v) })]
    nvme := [((0, 0), { tail := 1, head := 0, phase := true, cmds := ks })] }

/-- StreamCommandsAdvance, a storage read: its next NVM command, a completion that is not new, a good one and a bad one, a late command, and the two
chunks of a completed one, whose destination is mapped and is not. -/
theorem wit_storage_read : srdRuns (storing 0 [] 0) (cmd 0x28A 1) = true ∧ nsEntries (storing 0 [] 0) (0, 0) .nsbsq = 4 ∧
    srdNext (storing 0 [] 0) (cmd 0x28A 1) = 1 ∧ stagePlace (storing 0 [] 0) (0, 0) 1 = some 0 ∧
    (∀ v ∈ [0, 0x10000, 0x30000], (ioRead (storing 1 [nvm false []] v) 0x11000 16).1 = .ready ∧
      ofBytesLE ((ioRead (storing 1 [nvm false []] v) 0x11000 16).2.drop 12) = v) ∧
    natBit 0x10000 16 = true ∧ 0x10000 / 2 ^ 17 % 2 ^ 11 = 0 ∧ 0x30000 / 2 ^ 17 % 2 ^ 11 ≠ 0 ∧
    fld (nsReg (storing 1 [nvm false []] 0) (0, 0) .nsbds) 63 32 * 65536 ≤ (nvm false []).waited ∧
    cmdLive (storing 1 [nvm false []] 0) { cmd 0x28A 1 with next := 1 } = true ∧
    (srdOpen (storing 1 [nvm true []] 0) 0 { cmd 0x28A 1 with next := 1 })[0]? = some (nvm true [], 0) ∧
    (srdOpen (storing 1 [nvm true [0]] 0) 0 { cmd 0x28A 1 with next := 1 })[0]? = some (nvm true [0], 1) ∧
    (ioRead (storing 1 [nvm true []] 0) 0x20000 4).1 = .ready ∧
    (chunkWrite (storing 1 [nvm true []] 0) 0 { cmd 0x28A 1 with cv := 512 } 0 [7#8]).2 = none ∧
    (chunkWrite (unmapped (storing 1 [nvm true []] 0)) 0 { cmd 0x28A 1 with cv := 512 } 0 [7#8]).2 = some (.park .notPresent 4 0x2800) := by decide

/-! ### Exceptions, system and debug instructions, deliveries and waits -/

/-- ChecksComeInOrder: a guard register next to the count, each check failed and passed. -/
theorem wit_checks : alone (one lane) (lid 0) lane ∧ gate entryNone { plain with ge := true, gr := 15 } (lid 0) lane (one lane) = .skip ∧
    gate entryNone { plain with ge := true, gr := 16 } (lid 0) lane (one lane) = .trap (TrapInfo.plain .illOperand 0) ∧
    gate entryNone { plain with ge := true, gr := 15 } (lid 0) (lane.emptyReg 15) (one (lane.emptyReg 15)) = .wait ∧
    gate entryNone { plain with t := .b32 } (lid 0) lane (one lane) = .trap (TrapInfo.plain .illType 0) ∧
    gate entryNone { plain with d := .g 0 } (lid 0) lane (one lane) = .trap (TrapInfo.plain .illOperand 0) ∧
    gate entryNone { plain with x := 1 } (lid 0) lane (one lane) = .trap (TrapInfo.plain .illModifier 0) ∧
    gate (entryTret 0) plain (lid 0) lane (one lane) = .trap (TrapInfo.plain .privileged 0) ∧
    gate (entryTret 0) plain (lid 0) handlerLane (one handlerLane) = .go ∧
    gate entryBar { plain with b := .imm, t := .b32 } (lid 0) tryLane (one tryLane) = .abort 7 ∧ (tryLane.spec.map (·.conflict)) = some false ∧
    (readLane true).spec.map (·.conflict) = some true ∧ gate entryNone plain (lid 0) (readLane true) (one (readLane true)) = .abort 4 :=
  ⟨⟨rfl, rfl⟩, by decide⟩

/-- TrapsParkTheirLanes: a lane outside a handler and one in it, in an unsealed context. -/
theorem wit_traps : ((one lane).warp? ⟨0, 0, 0⟩).isSome = true ∧ (one lane).lane? ⟨0, 0, 0, 0⟩ = some lane ∧
    (one lane).mreg ⟨.trbase, 0, 0⟩ = 0 ∧ ctxKeyId (one lane) 0 = 0 ∧ lane.hx = none ∧ handlerLane.hx.isSome = true ∧
    (one handlerLane).grid? (gangGrid (one handlerLane) 0) = some bootGrid ∧ bootGrid.done = false := by decide

/-- A sub-warp of lane 0. -/
def sub (cause : Cause) : SubWarp :=
  { pc := 0x2000, mask := 1, cause := cause, xaddr := 0, xinfo := 7, len := 8, seq := 1, delivered := false }

/-- The machine of one trap-parked lane. -/
def parked (cause : Cause) : State :=
  { one { lane with st := .trapped } with warps := [(⟨0, 0, 0⟩, { Warp.placed 0x2000 0 true with masks := 1 :: List.replicate 11 0#32, subs := [sub cause] })] }

/-- HandlersBeginAndReturn: a trap that may be delivered, and a lane in its handler. -/
theorem wit_handlers : nextTrap (parked .softTrap) ⟨0, 0⟩ = some (⟨0, 0, 0⟩, sub .softTrap) ∧ (sub .softTrap).cause ≠ .watchdog ∧
    flg (sub .softTrap).mask 0 = true ∧ flg (sub .softTrap).mask 31 = false ∧
    gate (entryTret 0) plain (lid 0) handlerLane (one handlerLane) = .go ∧
    gate (entryTret 1) { plain with x := 1 } (lid 0) handlerLane (one handlerLane) = .go ∧ (∀ r ∈ handlerLane.loops, r.act = false) := by decide

/-- SystemInstructions: each instruction's checks pass, in a handler where it needs one; system registers 0 and 7. -/
theorem wit_system : gate entryTrap { plain with b := .imm, t := .b32, x := 255 } (lid 0) lane (one lane) = .go ∧
    gate entryMfs { plain with d := .g 4, t := .b64, x := 7 } (lid 0) handlerLane (one handlerLane) = .go ∧
    gate entryMts { plain with a := .g 4, t := .b64, x := 7 } (lid 0) handlerLane (one handlerLane) = .go ∧
    gate {} plain (lid 0) lane (one lane) = .go ∧ gate (entryTret 2) { plain with x := 2 } (lid 0) handlerLane (one handlerLane) = .go ∧
    gate (entryTret 3) { plain with x := 3 } (lid 0) handlerLane (one handlerLane) = .go ∧
    (delivered (one handlerLane) (lid 0) { plain with d := .g 4, t := .b64, x := 7 } .b64 0 0).isSome = true ∧
    reads (one handlerLane) (lid 0) handlerLane { plain with a := .g 4, t := .b64, x := 7 } ⟨.b64, .none, .none, .none⟩ (one handlerLane) 0 0 0 ∧
    reads (one lane) (lid 0) lane { plain with b := .imm, t := .b32, x := 255 } ⟨.none, .b32, .none, .none⟩ (one lane) 0 255 0 ∧
    (0 : Nat) + 1 ≠ Grid.nlanes { bootGrid with warps := 2 } ∧ outstanding (one lane) (lid 0) = false := by
  refine ⟨by decide, by decide, by decide, by decide, by decide, by decide, by decide, ⟨one handlerLane, one handlerLane, ?_⟩, ⟨one lane, one lane, ?_⟩, ?_⟩ <;>
    decide

/-- The machine of one lane with launch queue 63 enabled for its context, of two entries at 0x2000. -/
def launching : State := { one lane with mregs := (⟨.lqbase, 63, 0⟩, 0x2000) :: (⟨.lqctl, 63, 0⟩, 0x8001) :: (one lane).mregs }

/-- LaunchesAreAppended: a queue that is enabled and one that is not, a record in the allocation and one beyond it. -/
theorem wit_launches : reads launching (lid 0) lane { plain with d := .g 4, a := .g 5, b := .imm, t := .b32, x := 63 } ⟨.b32, .b32, .none, .none⟩ launching 0 63 0 ∧
    gate entryLnch { plain with d := .g 4, a := .g 5, b := .imm, t := .b32, x := 63 } (lid 0) lane launching = .go ∧
    flg (launching.mreg ⟨.lqctl, 63, 0⟩) 15 = true ∧ fld (launching.mreg ⟨.lqctl, 63, 0⟩) 13 8 = 0 ∧ flg (launching.mreg ⟨.lqctl, 62, 0⟩) 15 = false ∧
    spadResolve launching ⟨0, 0⟩ 0 128 = some (⟨0, 0⟩, 0) ∧ spadResolve launching ⟨0, 0⟩ 4032 128 = none ∧ ringFault launching (lid 0) 0x2000 16 = none ∧
    vplace launching 0 0 0x2000 .square = (launching, .place 0x2000 0) ∧ placeRecord launching 0 0 0x2080 = (launching, .place 0x2080 0, 0x2080) ∧ ringFault launching (lid 0) 0x2080 128 = none ∧ readyBit launching 22 = true := by
  refine ⟨⟨launching, launching, ?_⟩, ?_⟩ <;> decide

/-- The machine of one lane whose context's DBGCTL holds `v`. -/
def debugged (v : BitVec 64) (l : Lane) : State := { one l with mregs := (⟨.dbgctl, 0, 0⟩, v) :: (one l).mregs }

/-- DebugInstructions: with a debugger and without one, with the region open to programs and closed. -/
theorem wit_debug : gate entryBkpt { plain with b := .imm, t := .b32, x := 255 } (lid 0) lane (one lane) = .go ∧
    flg ((one lane).mreg ⟨.dbgctl, 0, 0⟩) 0 = false ∧ flg ((debugged 15 lane).mreg ⟨.dbgctl, 0, 0⟩) 0 = true ∧
    flg ((debugged 15 lane).mreg ⟨.dbgctl, 0, 0⟩) 2 = true ∧ flg ((debugged 15 lane).mreg ⟨.dbgctl, 0, 0⟩) 3 = true ∧
    gate entryWatch { plain with a := .g 4, b := .g 6, x := 15 } (lid 0) lane (debugged 15 lane) = .go ∧
    gate entryUnwatch { plain with x := 15 } (lid 0) lane (debugged 15 lane) = .go ∧
    gate entryCntr { plain with d := .g 4, b := .imm, t := .b64, x := 0x206 } (lid 0) lane (one lane) = .go ∧
    0x206 / 8 % 128 = 64 ∧ 0x206 % 8 = 6 ∧ (delivered (one lane) (lid 0) { plain with d := .g 4, t := .b64 } .b64 0 0).isSome = true ∧
    gate entryTmark { plain with b := .imm, t := .b32 } (lid 0) lane (debugged 15 lane) = .go ∧
    gate {} plain (lid 0) lane (one lane) = .go := by decide

/-- DeliveriesArrive: a load, TSTAT, and a delivery marked to fail. -/
theorem wit_deliveries : (one loading).lane? (lid 0) = some loading ∧ loading.pend[0]?.map (fun p => (p.fail.isNone, p.dst, p.vals)) = some (true, [4, 5], some [1, 2]) ∧
    Vec.le Vec.zero ((one loading).die 0).vec = true ∧ ([4, 5] : List Nat).Nodup ∧ (∀ r ∈ [4, 5], r < loading.regs.length) ∧
    loading.st.takesFailure = true ∧ (drainTo (one tryLane) 0).lane? (lid 0) = some tryLane ∧
    ({ pendOf (one lane) .load [4] none with fail := some (.plain .poison), inTry := true } : Pend).fail.isSome = true ∧
    ([{ pendOf (one lane) .tstat [4] none with id := 9 }] : List Pend).find? (fun q => q.id == 9) = some { pendOf (one lane) .tstat [4] none with id := 9 } ∧
    handlesStand (atSets 0x206 257 1) 9 = true ∧ handlesStand (atSets 0x206 256 1) 9 = false ∧ portsUp (one lane) = true ∧
    loading.pend[0]?.map (fun p => (p.remote, p.waited)) = some (true, 0) ∧
    ({ one lane with mregs := (⟨.ftmo, 0, 0⟩, 1) :: (one lane).mregs } : State).mreg ⟨.ftmo, 0, 0⟩ = 1 ∧ (1 : Nat) * 65536 ≤ 65536 ∧
    farSet twoModules (2 ^ 29 + 1) = true ∧ (0x202 : Nat) ∈ [0x202, 0x203, 0x204] ∧
    ¬ (({ one lane with mregs := (⟨.ftmo, 0, 0⟩, 1) :: (one lane).mregs } : State).mreg ⟨.ftmo, 0, 0⟩).toNat * 65536 ≤ 65535 := by
  decide

/-- A lane in MWAIT with the time `left`. -/
def waiting (left : Option Nat) : Lane := { lane with st := .mwait (.g 4) left 0x2008, mon := some (mon false) }

/-- The machine of one lane whose request for `units` stands at the head of its die's admission queue. -/
def admitted (who : AdmFor) (units waited : Nat) (l : Lane) : State :=
  { one l with dies := [(0, { die with admq := [⟨who, units, lid 0, 0, waited⟩] })] }

/-- WaitsEnd: each wait on both sides of its end. -/
theorem wit_waits : (one (waiting (some 0))).lane? (lid 0) = some (waiting (some 0)) ∧ (waiting none).mon = some (mon false) ∧
    (∀ who ∈ [AdmFor.lane, .engine, .gang], ((admitted who 4 0 lane).die 0).admq = [⟨who, 4, lid 0, 0, 0⟩] ∧
      ((admitted who 4 0 lane).mreg ⟨.admbudget, 0, 0⟩).toNat = 1000 ∧ ((admitted who 4 0 lane).gang? 0).isSome = true) ∧
    ((admitted .lane 4 0 lane).mreg ⟨.admwd, 0, 0⟩).toNat ≠ 0 ∧ lane.quiet = true ∧ (∀ p ∈ (one lane).lanes, p.2.trigDue = false) ∧
    replayLanes (one { lane with st := .replay true [4] }) ⟨0, 0, 0⟩ = [(lid 0, { lane with st := .replay true [4] })] ∧
    gangRuns (one lane) 0 = true ∧ (one lane).forced = [] ∧ cqParse (List.replicate 12 0#32) = none ∧
    (cqParse (0x287#32 :: List.replicate 11 0#32)).isSome = true ∧ firstSub (groupSubs (parked .softTrap) ⟨0, 0⟩) = some (⟨0, 0, 0⟩, sub .softTrap) ∧
    ((one lane).mreg ⟨.wdog, 0, 0⟩).toNat ≠ 0 := by decide

/-! ### Engines, grids, gangs, the Crossing and the module -/

/-- The machine of one lane with a Skim command at 0x4000 and the entry `v` at 0x5000; the command's page is 4 KiB, DST is 0x8000. -/
def skimming (opc : Byte) (v : Nat) : State :=
  { one lane with
    mregs := [(⟨.skbase, 0, 0⟩, 0x4000), (⟨.sksize, 0, 0⟩, 4), (⟨.sktail, 0, 0⟩, 1), (⟨.ready, 0, 0⟩, 0x00000FFFFFFFFFC3#64)]
    dies := [(0, { die with view := bytesAt 0x4000 ([opc, 0, 0, 0, 0, 0, 0, 0] ++ bytesLE 8 0x5000 ++ bytesLE 8 0 ++ bytesLE 8 0x8000) ++
                                    bytesAt 0x5000 (bytesLE 8 v) })] }

/-- EnginesResetAndSkimCommandsEnd: an outstanding command, a Square's request, no Skim command, a bad one, a PROMOTE and a DEMOTE, the latter
with its chunks written. -/
theorem wit_engines : cmdLive (streaming (cmd 0x282 4)) (cmd 0x282 4) = true ∧ (∀ p ∈ atSquare.lanes, p.2.trigDue = false) ∧
    mfind (skimming 2 3).skims 0 = none ∧ mfind ({ skimming 2 3 with skims := [(0, 3, 0x103)] } : State).skims 0 = some (3, 0x103) ∧
    entryUp (skimming 2 3) 0x5000 = true ∧ ((streaming (cmd 0x282 4)).core 0).cmds.map (fun c => c.st.isNone) = [true] ∧
    (∀ p ∈ atSquare.lanes, p.2.st.parked = false) ∧ (atSquare.die 0).sqq.map (fun q => q.pid != 0 && (atSquare.lane? q.lane).isSome) = [true] ∧
    skHead (one lane) 0 = none ∧ (skHead (skimming 3 3) 0).map (·.bad) = some true ∧
    (skHead (skimming 1 3) 0).map (fun c => (c.bad, c.opc, c.ptepa)) = some (false, 1, 0x5000) ∧ physRead (skimming 1 3) none 0x5000 8 = .ok 3 ∧ ioAvail (skimming 1 3) 0x8000 4096 = .ready ∧
    (skHead (skimming 1 3) 0).map (cplAvail (skimming 1 3)) = some .ready ∧ ioAvail (skimming 1 3) 0x5000 8 = .ready ∧ ioAvail (skimming 1 3) (2 ^ 51) 8 = .bad ∧
    ioAvail (one lane) 0x8000 8 = .ready ∧ ioAvail ({ one lane with mregs := [] } : State) 0x8000 8 = .waits ∧
    (skHead (skimming 2 0x103) 0).map (fun c => (c.bad, c.opc, c.chunks)) = some (false, 2, 1) ∧ xfOf 3 = 0 ∧ xfOf 0x103 = 1 ∧ flg (0x103 : Addr) 0 = true := by
  decide

/-- ChunksExpandToTheirPage: a page of zeros. -/
theorem wit_chunks : (List.replicate 4096 0#8).length = 4096 := List.length_replicate

/-- A launch record of two gangs of one group of one warp, whose ENTRY is 0x2000. -/
def record2 : List Byte := bytesLE 8 0x2000 ++ bytesLE 4 2 ++ [1, 1, 1, 0] ++ bytesLE 4 256 ++ List.replicate 108 0#8

/-- The machine of one lane with launch queue 0 served from 0x2000, TAIL `tail`. -/
def serving (tail : Nat) : State :=
  { one lane with
    mregs := [(⟨.lqctl, 0, 0⟩, 0x8001), (⟨.lqbase, 0, 0⟩, 0x2000), (⟨.ready, 0, 0⟩, 0x00000FFFFFFFFFC3#64)]
    dies := [(0, { die with view := bytesAt 0x2000 (bytesLE 8 tail) })] }

/-- The machine of one lane with the record taken. -/
def holding : State := setLq (serving 1) 0 { taken := some record2, head := 0, deps := 0, age := 0, ended := false, parked := false }

/-- GridsStartAndEnd: a queue that is served, empty and not, a good record and a bad one, dependences met, a ring that is misaligned. -/
theorem wit_records : flg ((serving 1).mreg ⟨.lqctl, 0, 0⟩) 15 = true ∧ 
    lqOf (serving 1) 0 = { taken := none, head := 0, deps := 0, age := 0, ended := false, parked := false } ∧ (lqOf holding 0).ended = false ∧
    launchRead (serving 1) 0 0x2000 8 = (serving 1, .inl (bytesLE 8 1)) ∧ launchRead (serving 0) 0 0x2008 8 = (serving 0, .inl (bytesLE 8 0)) ∧
    launchRead (serving 1) 0 0x2004 8 = (serving 1, .inr (.bad .misaligned)) ∧ malformedAt record2 = none ∧
    malformedAt (record2.set 0x0C 5) = some 0x0C ∧ (lqOf holding 0).taken = some record2 ∧
    depsOf 0 record2 ((List.range 4).drop 0) holding = (holding, .passed, 4) ∧ recN record2 8 4 = 2 ∧
    vplace holding 0 0 0x2008 .store = (holding, .place 0x2008 0) := by decide

/-- A grid with one gang to place. -/
def newGrid : Grid := { bootGrid with ngang := 1, next := 0, regs := 16, scratch := 256 }

/-- The machine whose one grid waits for a close. -/
def unplaced : State :=
  { State.reset with mregs := [(⟨.ready, 0, 0⟩, 0x00000FFFFFFFFFC3#64)], grids := [(0, newGrid)], uid := 1 }

/-- GridsStartAndEnd: a gang that fits a close, and one that may retire. -/
theorem wit_placement : waitingOf unplaced 0 = some (0, newGrid) ∧ unplaced.gang? 0 = none ∧ fitOn unplaced newGrid 0 0 none = some [(0, 0)] ∧
    firstFor unplaced (0, newGrid) 0 = true ∧ (∀ p ∈ unplaced.lanes, p.1.gang ≠ unplaced.uid) ∧ retireDue (one lane) 0 bootGang = false ∧
    retireDue (one lane.exited) 0 bootGang = true ∧ (∀ p ∈ (one lane).gangs, p.2.byCtxop = false) ∧ bootGrid.retired + 1 = bootGrid.ngang := by decide

/-- A gang in state `st`. -/
def gangIn (st : GangSt) : Gang := { bootGang with st := st }

/-- The machine of one lane whose gang is in state `st`, with `e` expected issues and 4 done. -/
def ganged (st : GangSt) (e : Nat) (idem : Bool) (l : Lane) : State :=
  { one l with gangs := [(0, gangIn st)], groups := [(⟨0, 0⟩, { Group.placed 0 0 1 16 4096 idem e with issues := 4 })]
               mregs := (⟨.drainb, 0, 0⟩, 1000) :: (⟨.savesize, 0, 0⟩, 0x10000) :: (one l).mregs }

/-- A grid of priority 7 that fits no close of die 0 with gangs on it. -/
def bigGrid : Grid := { bootGrid with q := 1, prio := 7, next := 0, grps := 4, warps := 16, scratch := 0x80000 }

/-- The machine of one lane whose gang stands in `bigGrid`'s way; the other closes of die 0 hold gangs of its priority, and no other die is ready. -/
def crowded : State :=
  { one tryLane with
    mregs := [(⟨.ready, 0, 0⟩, 0x4401C3)]
    grids := [(0, bootGrid), (5, bigGrid), (6, { bootGrid with prio := 7 })]
    gangs := (0, bootGang) :: (List.range 11).map (fun k => (100 + k, { bootGang with grid := 6, close := k + 1 }))
    groups := (⟨0, 0⟩, Group.placed 0 0 1 128 4096 false 0) ::
      (List.range 11).map (fun k => (⟨100 + k, 0⟩, Group.placed (4 * k + 4) 0 1 128 4096 false 0)) }

/-- GangsArePreempted: a victim, the three choices, a drain at its deadline, a save with room and without, CTXOP at rest and in progress. -/
theorem wit_preempted : victimDue crowded 5 0 = true ∧ victimDue (one lane) 5 0 = false ∧ noneParked crowded 0 ∧
    gangChoice (ganged .placed 100 true lane) 0 = 0 ∧ gangChoice (ganged .placed 1000 false lane) 0 = 1 ∧ gangChoice crowded 0 = 2 ∧
    groupSubs crowded ⟨0, 0⟩ = [] ∧ ((ganged (.draining (some 0)) 0 false tryLane).gang? 0).map (·.st) = some (.draining (some 0)) ∧
    saveDue (ganged .saving 0 false lane) 0 (gangIn .saving) = true ∧ imagePlace (ganged .saving 0 false lane) 0 4096 = some 0 ∧
    imagePlace (ganged .saving 0 false lane) 0 0x10001 = none ∧ ctxopRuns (one lane) 0 = false ∧
    ctxopRuns { one lane with gangs := [(0, { gangIn .saving with byCtxop := true })] } 0 = true ∧
    ({ gangIn .heldFlushed with byCtxop := true } : Gang).held = true ∧ (∀ p ∈ (one lane).lanes, p.2.spec = none) ∧
    killRuns (one lane) 0 = false ∧
    killRuns { one lane with grids := [(0, { bootGrid with ended := some (2, .kill) })], mregs := [(⟨.ctxop, 0, 0⟩, 0x8000000000000002)] } 0 = true := by
  refine ⟨by decide, by decide, by unfold noneParked; decide, by decide, by decide, by decide, by decide, by decide, by decide, by decide, by decide,
    by decide, by decide, by decide, by decide, by decide, by decide⟩

/-- The machine of one lane with a NOP at 0x2000 in die 0's memory; `cached` fills it. -/
def coded (cached : Bool) : State :=
  { one lane with
    cores := [(0, { Core.reset with icache := if cached then [((0, 0x2000), .word (.nop plain) 5)] else [] })]
    dies := [(0, { die with view := [(0x2002, 0xFF), (0x2003, 0xFF)] })] }

/-- StepRunsTheDecodedInstruction: a bundle that must issue, a bundle that a partition forms, a cached word and bytes that decode. -/
theorem wit_step : fillCache (coded true) 0 0 0x2000 = (coded true, some (.word (.nop plain) 5)) ∧ comparator (coded true) 0 0x2000 [] = none ∧
    (stillThere (coded true) (coded true).cur).lanes ≠ [] ∧
    dueColl (repathPart (coded true) 0 0) 0 0 = none ∧
    pickBundle (repathPart (coded true) 0 0) 0 0 = some { core := 0, part := 0, gang := 0, group := 0, pc := 0x2000, len := 0, lanes := [lid 0] } ∧
    mfind ((coded false).core 0).icache ((0, 0x2000) : Nat × Addr) = none ∧ fetchByte (coded false) 0 0 0x2000 = (coded false, .ok 0) ∧
    fetchBytes (coded false) 0 0 0x2000 (lengthOf 0) = (coded false, [0, 0, 0xFF, 0xFF, 0], .ok 0) ∧
    decode [0, 0, 0xFF, 0xFF, 0] = some (.nop plain, []) ∧ decode [3, 0x90, 0xFF, 0xFF, 0] = none := by decide

/-- KnownWordsDecode: a word of five bytes. -/
theorem wit_words : (5 : Nat) ≤ [0#8, 0xFF#8, 0xFF#8, 0#8].length + 1 := by decide

/-- The machine of two warps on one partition. -/
def warps2 (x y : Warp) (l : Lane) : State :=
  { machine 1 [(lid 0, l), (⟨0, 0, 1, 0⟩, lane)] with warps := [(⟨0, 0, 0⟩, x), (⟨0, 0, 1⟩, y)] }

/-- WarpsTakeTurns: a starved warp, a timer that has run out, an idle active warp and a pending one that has aged. -/
theorem wit_turns : gangRuns (warps2 { Warp.placed 0x2000 0 true with starved := 64 } (Warp.placed 0x2000 4 false) lane) 0 = true ∧
    (let s := warps2 { Warp.placed 0x2000 0 true with path := some 0x3000, timer := 0x200 } (Warp.placed 0x2000 4 false) lane
     flg (s.mreg ⟨.ctxctl, 0, 0⟩) 0 = true ∧ fld (s.mreg ⟨.ctxctl, 0, 0⟩) 31 16 ≤ 0x200 ∧
     (warpThreads s ⟨0, 0, 0⟩).filter (fun p => ready s p.1 p.2 && some p.2.pc != some 0x3000) = [(lid 0, lane)]) ∧
    let s := warps2 (Warp.placed 0x2000 0 true) { Warp.placed 0x2000 4 false with aging := 256 } { lane with st := .trapped }
    warpIdle s ⟨0, 0, 0⟩ = true ∧ nextPending s (warpCore s ⟨0, 0, 0⟩) 0 = some ⟨0, 0, 1⟩ ∧ oldestActive s (warpCore s ⟨0, 0, 1⟩) 0 = some ⟨0, 0, 0⟩ := by
  decide

/-- ResetAndBringUp: functions that are untested, of each kind, and one tested; the boot ROM's report is due. -/
theorem wit_bring_up : (∀ b ∈ [0, 1, 6, 21, 22, 25, 26, 43], untested State.reset b = true) ∧ untested (one lane) 22 = false ∧
    readyBit State.reset 1 = false ∧ failBit State.reset 1 = false ∧ fld (State.reset.mreg ⟨.fwstat, 0, 0⟩) 3 0 = 0 ∧ failBit State.reset 25 = false := by
  decide

/-- RegisterWritesKeepTheirRules: a plain write, a reset of no unit, and locks held. -/
theorem wit_registers : startsAction ⟨.wdog, 0, 0⟩ 5 = false ∧ resetUnit (one lane) (0x800000000000003F : BitVec 64) = none ∧
    flg (0x800000000000003F : BitVec 64) 63 = true ∧ regLocked (one lane) ⟨.wdog, 0, 0⟩ = false ∧ regLocked (one lane) ⟨.ready, 0, 0⟩ = true ∧
    flg ({ one lane with mregs := [(⟨.hwlock, 0, 0⟩, 0x8000000000000000)] }.mreg ⟨.hwlock, 0, 0⟩) 63 = true ∧
    ∃ p ∈ (one lane).gangs, gangCtx (one lane) p.1 = 0 ∧ p.2.st = .placed :=
  ⟨by decide, by decide, by decide, by decide, by decide, by decide, (0, bootGang), by decide, by decide, by decide⟩

/-- TheModuleIsManaged: a gang on its close and its unit, firmware that runs and not, the written bits, a parked lane, a message that can be read. -/
theorem wit_managed : bootGang.onClose = true ∧ (one lane).grid? bootGang.grid = some bootGrid ∧ bootGrid.done = false ∧ bootGrid.ended = none ∧
    (∀ p ∈ (one lane).gangs, p.2.st ≠ .saving) ∧ (∀ p ∈ (one lane).lanes, p.2.spec = none) ∧ onUnit (one lane) 0 0xC0 0 bootGang = true ∧
    readyBit (one lane) 1 = true ∧ readyBit State.reset 1 = false ∧ flg (0x2001 : BitVec 64) 0 = true ∧ flg (0x40 : BitVec 64) 6 = true ∧
    ((one { lane with st := .replay false [4] }).lane? (lid 0)).map (·.st) = some (.replay false [4]) ∧ gangRuns (one lane) 0 = true ∧
    laneDie (one lane) (lid 0) = 0 ∧ laneCtx (one lane) (lid 0) = 0 := by decide

/-- TheModuleIsManaged: a malformed message and one that is not. -/
theorem wit_messages : (keyMessage (one lane)).1 = .ready ∧
    (keyMessage { one lane with mregs := [(⟨.kladdr, 0, 0⟩, 0x1000000000000), (⟨.hwlock, 0, 0⟩, 0x8000000000000001)] }).1 = .bad ∧ badMessage [1, 0, 0, 0, 64, 1, 0, 0] = true ∧ badMessage [1, 0, 0, 0, 63, 63, 1, 0] = false := by decide

/-- TheModuleIsManaged: a routing table whose signatures verify under keys of the hash in HOSTKEY, once HWLOCK is set, and the same while it is not. -/
theorem wit_routing (table key sig : List Byte) (m z : BitVec 3) (n : Config.tableModule table = (m, z)) (e : Config.verifies false (key.take 32) (Config.sha384 table) (sig.take 64) = true)
    (f : Config.verifies true (key.drop 32) (Config.sha384 table) (sig.drop 64) = true) (h : bytesLE 48 (Config.sha384 key) = List.replicate 48 0#8) :
    tableSigned { one lane with mregs := [(⟨.hwlock, 0, 0⟩, 0x8000000000000001)] } ⟨table, key, sig⟩ = true ∧ Config.tableModule table = (m, z) ∧ tableSigned (one lane) ⟨table, key, sig⟩ = false := by
  refine ⟨?_, n, ?_⟩ <;>
    simp only [tableSigned, e, f, h] <;> decide

/-- DebuggersControlLanes: a stopped lane and a running one, each kind of register code, the lane in a sealed context, aligned addresses and not. -/
theorem wit_debuggers : ctxLanes (one lane) 0 = [lid 0] ∧ namedLane (one { lane with stopped := true }) 0 0 = .lane (lid 0) ∧
    namedLane (one lane) 0 0 = .running ∧ ({ lane with stopped := true } : Lane).st ≠ .trapped ∧ lane.mon = none ∧
    (∀ p ∈ (one { lane with stopped := true }).lanes, p.2.st.parked = false ∧ p.2.trigDue = false) ∧ ctxKeyId (one lane) 0 = 0 ∧
    stepLanes (one { lane with stopped := true }) 0 0 (lid 0) = [lid 0] ∧ stepLanes (one { lane with stopped := true, st := .trapped }) 0 0 (lid 0) = [] ∧
    ctxKeyId { one lane with mregs := [(⟨.ctxkey, 0, 0⟩, 3)] } 0 ≠ 0 ∧
    namedLane { machine 1 [(lid 0, { lane with stopped := true }), (⟨1, 0, 0, 0⟩, { lane with stopped := true })] with gangs := [(0, bootGang), (1, bootGang)] }
      0 0 = .ambiguous ∧
    fld (15 : BitVec 64) 7 0 < lane.regs.length ∧ lane.regs.length ≤ fld (16 : BitVec 64) 7 0 ∧ fld (143 : BitVec 64) 7 0 < 144 ∧
    (0x2000 : BitVec 64).toNat % 4096 = 0 ∧ canonical (0x2000 : BitVec 64) = true ∧ inPrivate (0x2000 : BitVec 64) = false ∧
    (0x2008 : BitVec 64).toNat % 4096 ≠ 0 := by decide

/-- MemoriesStayCanonical: the machine right after reset and the small machine with a listed byte. -/
theorem wit_canonical : orderly State.reset ∧ orderly (coded false) := by
  unfold orderly; decide

/-! ### Witnesses of single clauses -/

/-- SystemInstructions: a lane in its handler, whose group, gang and grid stand, and a lane in a try. -/
theorem wit_special_registers : ((one handlerLane).group? (LaneId.grp (lid 0))).isSome = true ∧ (one handlerLane).gang? 0 = some bootGang ∧
    (one handlerLane).grid? bootGang.grid = some bootGrid ∧ handlerLane.hx.isSome = true ∧ tryLane.spec.any (fun x => decide (x.depth ≤ 4)) = true ∧
    ((0 : Nat) < 10 ∨ 12 ≤ (0 : Nat) ∧ (0 : Nat) < 16 ∨ (0 : Nat) = 19) := by decide

/-- WaitsEnd: a gang whose lane held 4 units when it was saved. -/
theorem wit_restored_tokens : let x : Gang := { bootGang with waitTok := true, tokSaved := [(lid 0, 4)] }
    let s : State := { one lane with gangs := [(0, x)] }
    s.gang? 0 = some x ∧ (x.tokSaved.map Prod.fst).Nodup ∧ s.lane? (lid 0) = some lane ∧ lane.st = .run ∧ noneParked s 0 ∧
      (∀ p ∈ s.lanes, p.2.trigDue = false) := by
  refine ⟨by decide, by decide, by decide, by decide, by unfold noneParked; decide, by decide⟩

/-- StreamCommandsAdvance: a copy of two chunks, neither of which is written, and the second of which follows the first. -/
theorem wit_lower_chunks :
    chunkDue (streaming (cmd 0x280 512)) 0 (cmd 0x280 512) 1 = true ∧ (∃ j < 1, j ∉ (cmd 0x280 512).done) ∧
    (∀ j < 1, j ∈ ({ cmd 0x280 512 with done := [0] } : Cmd).done) ∧
    chunkDue (streaming { cmd 0x280 512 with done := [0] }) 0 { cmd 0x280 512 with done := [0] } 1 = true ∧
    (chunkRead (unmapped (streaming (cmd 0x280 512))) 0 (cmd 0x280 512) 256 256).2 = .inr (.park .notPresent 4 0x2100) := by decide

/-- EnginesResetAndSkimCommandsEnd: a set operation's delivery at a Square of this module, and the number of one of another module. -/
theorem wit_reset_sets : ((atSets 0x206 257 1).die 0).setq.map (fun q => (q.pid != 0, ((atSets 0x206 257 1).lane? q.lane).isSome)) = [(true, true)] ∧
    (((atSets 0x206 257 1).die 0).setq.map (·.pid)).Nodup ∧ (4 : Nat) ≤ homeSquare (one lane) 4 ∧ homeSquare (one lane) 0 = 0 := by decide

/-- GridsStartAndEnd: the record at HEAD of a queue that a fault has disabled. -/
theorem wit_faulted : ({ lqOf holding 0 with faulted := true } : LQueue).taken.isSome = true ∧
    (lqOf (setLq holding 0 { lqOf holding 0 with faulted := true }) 0).faulted = true := by decide

/-- WarpsTakeTurns: a pending warp that has aged beside an active one. -/
theorem wit_aged : let s := warps2 (Warp.placed 0x2000 0 true) { Warp.placed 0x2000 4 false with aging := 256 } lane
    agedWarps s 0 0 = [⟨0, 0, 1⟩] ∧ (activeWarps s 0 0).length = 1 ∧ (s.warps.map Prod.fst).Nodup := by decide

/-- MatrixCommandsComplete: an engine in error with each reading command at its head, and a drain to a register and to the queue. -/
theorem wit_matrix_error : (∀ op ∈ [0x246, 0x24A, 0x24B], ({ engine with err := true, q := [mcmd op 1] } : Matrix).q = [mcmd op 1]) ∧
    ({ mcmd 0x246 1 with dq := .g 4 } : MCmd).dq = .g 4 ∧ ({ mcmd 0x246 1 with dq := .q 13 } : MCmd).dq = .q 13 ∧
    engine.mr.length + ceilDiv (cfg8.n * tyBytes .f32) 4 ≤ 256 ∧ (mcmd 0x246 1).row < (mcmd 0x246 1).b ∧
    spadResolve (whole engine) ⟨0, 0⟩ 0 32 = some (⟨0, 0⟩, 0) ∧ ((whole engine).group? ⟨0, 0⟩).isSome = true := by decide

/-- LaunchesAreAppended: the Square of the queue's die is ready. -/
theorem wit_launch_square : squareUp launching (homeSquare launching 0) = true := by decide

/-- MatrixCommandsComplete: products of numbers, one of a NaN, two infinite ones of either sign, and a drain of a NaN, an infinity and a number. -/
theorem wit_products : isNull (.fin false 0 0) = true ∧ isFin (.fin false 1 0) = true ∧ (FVal.nan true).isSig = true ∧ isFin (.inf true) = false ∧
    (fval .f32 0x7FC00000).isNan = true ∧ fval .f32 0xFF800000 = .inf true := by
  refine ⟨by simp [isNull, isFin, numOf], by decide⟩
end Sys2Proof.Tests
end

section
/-! PROOFS. Every instruction and event answers a next state, and so does every step, except where the agenda names a unit that the module
does not have (log entry 1). -/

namespace Sys2Proof.Machine

open Sys2Proof.Claims

/-- The machine goes on: the outcome is a next state, not a fault or a refusal. -/
def Answers (o : Answer) : Prop := ∃ t, o = .next t

/-! ### What answers, by the form of the outcome -/

theorem answers_next (s : State) : Answers (.next s) := ⟨s, rfl⟩

theorem answers_ite {p : Prop} [Decidable p] {a b : Answer} (ha : Answers a) (hb : Answers b) : Answers (if p then a else b) := by
  split
  · exact ha
  · exact hb

theorem Answers.onNext {o : Answer} (h : Answers o) (f : State → State) : Answers (onNext o f) := by
  obtain ⟨t, rfl⟩ := h
  exact answers_next (f t)

theorem Answers.andThen {o : Answer} {f : State → Answer} (h : Answers o) (hf : ∀ t, Answers (f t)) : Answers (andThen o f) := by
  obtain ⟨t, rfl⟩ := h
  exact hf t

/-! ### Instructions and events -/

theorem execWarpSwapOut_answers (out : WarpId) (s : State) : Answers (execWarpSwapOut out s) := by
  unfold execWarpSwapOut
  cases runWarp s out with
  | none => exact answers_next _
  | some x => dsimp only; split <;> exact answers_next _

theorem execActiveSetAging_answers (w : WarpId) (s : State) : Answers (execActiveSetAging w s) := by
  unfold execActiveSetAging
  cases runWarp s w with
  | none => exact answers_next _
  | some x => dsimp only; split <;> exact answers_next _

theorem execCopyChunk_answers (core : Nat) (ticket : BitVec 32) (chunk : Nat) (s : State) : Answers (execCopyChunk core ticket chunk s) := by
  unfold execCopyChunk
  split
  · exact answers_next _
  · split <;> exact answers_next _

theorem execLaunchRecord_answers (q : Nat) (s : State) : Answers (execLaunchRecord q s) := by
  unfold execLaunchRecord
  refine answers_ite (answers_next _) ?_
  split <;> exact answers_next _

/-- No instruction and no event stops, in any state: most are a next state outright, the others look for their subject first and leave the
state where there is none. -/
theorem exec_answers (i : Instr) (s : State) : Answers (exec i s) := by
  cases i
  case warpSwapOut out => exact execWarpSwapOut_answers out s
  case activeSetAging w => exact execActiveSetAging_answers w s
  case copyChunk core ticket chunk => exact execCopyChunk_answers core ticket chunk s
  case launchRecord q => exact execLaunchRecord_answers q s
  case trapDelivery | overdue | pathTimerExpiry | sweepRetire | indirectStreamPush | nvmeTimeout | streamCompletion | gridReady | gangRetire |
      drainDeadline | save | dbgstep | promote | demote | badcmd =>
    simp only [exec, execTrapDelivery, execOverdue, execPathTimerExpiry, execSweepRetire, execIndirectStreamPush, execNvmeTimeout,
      execStreamCompletion, execGridReady, execGangRetire, execDrainDeadline, execSave, execDbgstep, execPromote, execDemote, execBadcmd]
    split <;> exact answers_next _
  all_goals exact answers_next _

/-! ### Issues and cycles -/

theorem issueBundle_answers (b : Bundle) (s : State) : Answers (issueBundle b s) := by
  unfold issueBundle
  split
  · exact answers_next _
  · exact answers_ite (answers_next _) ((exec_answers _ _).onNext _)

theorem issueForced_answers (b : Bundle) (s : State) : Answers (issueForced b s) :=
  answers_ite (answers_next _) ((issueBundle_answers _ _).onNext _)

theorem issuePart_answers (core part : Nat) (s : State) : Answers (issuePart core part s) := by
  unfold issuePart
  split
  · exact issueBundle_answers _ _
  · exact answers_next _

theorem issueParts_answers (core : Nat) (ps : List Nat) (s : State) : Answers (issueParts core ps s) := by
  induction ps generalizing s with
  | nil => exact answers_next s
  | cons p ps ih => exact (issuePart_answers core p s).andThen (fun _ => ih _)

theorem coreCycle_answers (core : Nat) (s : State) : Answers (coreCycle core s) := by
  unfold coreCycle
  exact (issueParts_answers core _ _).onNext _

theorem cycleAll_answers (cores : List Nat) (s : State) : Answers (cycleAll cores s) := by
  induction cores generalizing s with
  | nil => exact answers_next s
  | cons c cs ih => exact (coreCycle_answers c s).andThen ih

/-! ### The host's accesses of the management block -/

/-- Whatever action of the table a write of a register starts is the meaning of an event. -/
theorem barAct_answers (r : MReg) (v : BitVec 64) (s : State) : Answers (barAct r v s) := by
  have plain : Answers (execRegisterWrite r v s) := exec_answers (.registerWrite r v) s
  obtain ⟨name, i, j⟩ := r
  cases name
  case modctl =>
    have abort : Answers (if flg v 8 then execModctlAbort (fld v 5 0) true s else .next s) :=
      answers_ite (exec_answers (.modctlAbort _ _) s) (answers_next s)
    exact answers_ite (abort.andThen (exec_answers .mrst)) (answers_ite abort plain)
  case attgo => exact answers_ite (exec_answers .attestationReport s) (answers_ite (exec_answers .identityCertificate s) plain)
  case klgo => exact answers_ite (answers_ite (exec_answers .keyUnload s) (exec_answers .keyLoad s)) plain
  case xinv => exact answers_ite (exec_answers (.xinv _ _) s) plain
  case xreplay => exact answers_ite (exec_answers (.xreplay _ _) s) plain
  case sqovsize => exact exec_answers (.squareReady _ _) s
  case engrst =>
    refine answers_ite ?_ plain
    split
    · exact exec_answers (.engineResetStream _) s
    · exact exec_answers (.engineResetMatrix _) s
    · exact exec_answers (.engineResetSquare _) s
    · exact exec_answers (.engineResetSkim _) s
    · exact plain
  case ctxop =>
    exact answers_ite (exec_answers (.preempt _) s) (answers_ite (exec_answers (.kill _) s) (answers_ite (exec_answers (.destroy _) s) plain))
  case dbgrun =>
    have go : Answers (if flg v 0 then execGo i s else .next s) := answers_ite (exec_answers (.go _) s) (answers_next s)
    exact answers_ite (go.andThen (exec_answers (.halt _))) (answers_ite go plain)
  case dbgsel => exact answers_ite (answers_ite (exec_answers (.dbgselWrite _ _) s) (exec_answers (.dbgselRead _ _) s)) plain
  case dbgstep => exact exec_answers (.dbgstep _ _) s
  case dbgdump => exact exec_answers (.dbgdump _ _) s
  all_goals exact plain

theorem barWrite_answers (off size : Nat) (value : BitVec 64) (s : State) : Answers (barWrite off size value s) := by
  unfold barWrite
  refine answers_ite ?_ (answers_next s)
  split
  · exact answers_ite (answers_next s) ((barAct_answers _ _ s).onNext _)
  · exact answers_next s

theorem barRead_answers (off size : Nat) (s : State) : Answers (barRead off size s) := by
  unfold barRead
  refine answers_ite ?_ (answers_next _)
  dsimp only
  split
  · exact answers_ite (exec_answers (.trdropRead _) _) (answers_next _)
  · exact answers_next _

/-! ### The device by itself -/

/-- An event that changes something answers. -/
theorem answers_of_changes {s : State} {f : Act} (h : changes s f = true) : Answers (f s) := by
  unfold changes at h
  split at h
  next t ht => exact ⟨t, ht⟩
  next => cases h

/-- An event that takes a request off a Square answers. -/
theorem answers_of_serves {s : State} {f : Act} (h : serves s f = true) : Answers (f s) := by
  unfold serves at h
  split at h
  next t ht => exact ⟨t, ht⟩
  next => cases h

/-- The device takes an event only where it changes something or serves a request, and else passes cycles. -/
theorem auto_answers (s : State) : Answers (auto s) := by
  unfold auto
  split
  next f hf => exact answers_of_changes (List.find?_some hf)
  next =>
    dsimp only
    split
    next f hf => exact answers_of_serves (List.find?_some hf)
    next => exact (cycleAll_answers _ s).onNext _

/-! ### The agenda and the step -/

/-- An entry of the agenda names only units that the module has (spec/00 R1, spec/01 R25). -/
def Choice.unitsExist : Choice → Prop
  | .event i => i.wf = true
  | .cycles core _ => core < 192
  | .evict die _ => die < 4
  | .blockErr die _ _ => die < 4
  | .portError port _ => port < 16
  | _ => True

/-- An outcome that is a stop only where `p` holds answers where it does not. -/
theorem answers_unless {p : Prop} [Decidable p] {r : Fault} {a : Answer} (hp : ¬ p) (ha : Answers a) : Answers (if p then .fault r else a) := by
  rwa [if_neg hp]

theorem choose_answers (c : Choice) (s : State) (h : c.unitsExist) : Answers (choose c s) := by
  cases c with
  | event i =>
    have wf : i.wf = true := h
    exact answers_unless (by simp [wf]) (answers_ite (exec_answers i s) (answers_next s))
  | cycles core n =>
    refine answers_unless (Nat.not_le.2 h) ?_
    cases n with
    | zero => exact answers_next s
    | succ m => exact (coreCycle_answers core s).onNext _
  | barWrite off size value => exact barWrite_answers off size value s
  | barRead off size => exact barRead_answers off size s
  | ioCycles n => cases n <;> exact answers_next _
  | evict die k => exact answers_unless (Nat.not_le.2 h) (answers_next _)
  | blockErr die slot block => exact answers_unless (Nat.not_le.2 h) (answers_next _)
  | portError port timeout => exact answers_unless (Nat.not_le.2 h) (answers_next _)
  | hostWrite | hostRead | windowWrite | windowRead | memErr => exact answers_next _

theorem step_of_forced {s : State} {b : Bundle} {r : List Bundle} (hf : s.forced = b :: r) : step s = issueForced b { s with forced := r } := by
  simp only [step, hf]

theorem step_of_agenda {s : State} {c : Choice} {r : List Choice} (hf : s.forced = []) (ha : s.agenda = c :: r) :
    step s = choose c (refresh (settleWork { s with agenda := r })) := by
  simp only [step, hf, ha]

theorem step_of_idle {s : State} (hf : s.forced = []) (ha : s.agenda = []) : step s = auto (refresh (settleWork s)) := by
  simp only [step, hf, ha]

/-- A step answers where the entry of the agenda that it takes, if any, names only units that exist. -/
theorem step_answers (s : State) (h : ∀ c r, s.agenda = c :: r → s.forced = [] → c.unitsExist) : Answers (step s) := by
  cases hf : s.forced with
  | cons b r => rw [step_of_forced hf]; exact issueForced_answers b _
  | nil =>
    cases ha : s.agenda with
    | cons c r => rw [step_of_agenda hf ha]; exact choose_answers c _ (h c r ha hf)
    | nil => rw [step_of_idle hf ha]; exact auto_answers _

/-- Settles O3, by the three sources of a step: a bundle that must issue, the agenda's next entry, and the device by itself. -/
theorem everyStepAnswers : Obligations.EveryStepAnswers := by
  unfold Obligations.EveryStepAnswers
  exact step_answers

end Sys2Proof.Machine
end

section
/-! PROOFS. Every memory keeps its canonical form: what it takes for an outcome to be orderly, and the operations of the state. -/

namespace Sys2Proof.Machine

open Sys2Proof.Claims

/-! ### The forms of an outcome -/

/-- Every state that a lane's attempt leaves is orderly. -/
inductive LaneOut.Orderly : LaneOut → Prop
  | ok {s : State} (h : orderly s) : Orderly (.ok s)
  | trap {t : TrapInfo} : Orderly (.trap t)
  | trapWith {s : State} {t : TrapInfo} (h : orderly s) : Orderly (.trapWith s t)
  | wait : Orderly .wait
  | abort {s : State} {c : Nat} {v : BitVec 8} (h : orderly s) : Orderly (.abort s c v)
  | park {f : FbInfo} {dst : List Nat} : Orderly (.park f dst)
  | adm {s : State} (h : orderly s) : Orderly (.adm s)

/-- Every state that a command's acceptance leaves is orderly. -/
inductive CmdOut.Orderly : CmdOut → Prop
  | issued {s : State} {d : Nat} (h : orderly s) : Orderly (.issued s d)
  | trap {t : TrapInfo} : Orderly (.trap t)
  | trapWith {s : State} {t : TrapInfo} (h : orderly s) : Orderly (.trapWith s t)
  | wait : Orderly .wait
  | adm {s : State} (h : orderly s) : Orderly (.adm s)

/-- Every state that an issue of a matrix instruction leaves is orderly. -/
inductive MxOut.Orderly : MxOut → Prop
  | done {s : State} (h : orderly s) : Orderly (.done s)
  | parked {s : State} (h : orderly s) : Orderly (.parked s)
  | trap {t : TrapInfo} : Orderly (.trap t)
  | wait : Orderly .wait

/-- Every state that a set operation leaves is orderly. -/
inductive SetOut.Orderly : SetOut → Prop
  | done {s : State} {r u : Nat} (h : orderly s) : Orderly (.done s r u)
  | fail {s : State} {f : FailInfo} {a : Nat} (h : orderly s) : Orderly (.fail s f a)
  | park {s : State} {va level : Nat} {c : Cause} (h : orderly s) : Orderly (.park s va level c)
  | later {s : State} (h : orderly s) : Orderly (.later s)

/-- Every state that a read of a source leaves is orderly. -/
inductive Rd.Orderly : Rd → Prop
  | val {s : State} {v : Nat} (h : orderly s) : Orderly (.val s v)
  | wait : Orderly .wait
  | trap {t : TrapInfo} : Orderly (.trap t)

/-- The next state, where there is one, is orderly. -/
inductive Lands : Host.Outcome State Fault Refusal → Prop
  | next {s : State} (h : orderly s) : Lands (.next s)
  | fault {r : Fault} : Lands (.fault r)
  | refused {r : Refusal} : Lands (.refused r)

section
variable {s t : State}

theorem LaneOut.orderly_ok {o : LaneOut} (h : o.Orderly) (e : o = .ok t) : orderly t := by subst e; cases h; assumption
theorem LaneOut.orderly_trapWith {o : LaneOut} {i : TrapInfo} (h : o.Orderly) (e : o = .trapWith t i) : orderly t := by subst e; cases h; assumption
theorem LaneOut.orderly_abort {o : LaneOut} {c : Nat} {v : BitVec 8} (h : o.Orderly) (e : o = .abort t c v) : orderly t := by
  subst e; cases h; assumption
theorem LaneOut.orderly_adm {o : LaneOut} (h : o.Orderly) (e : o = .adm t) : orderly t := by subst e; cases h; assumption
theorem CmdOut.orderly_issued {o : CmdOut} {d : Nat} (h : o.Orderly) (e : o = .issued t d) : orderly t := by subst e; cases h; assumption
theorem CmdOut.orderly_trapWith {o : CmdOut} {i : TrapInfo} (h : o.Orderly) (e : o = .trapWith t i) : orderly t := by subst e; cases h; assumption
theorem CmdOut.orderly_adm {o : CmdOut} (h : o.Orderly) (e : o = .adm t) : orderly t := by subst e; cases h; assumption
theorem MxOut.orderly_done {o : MxOut} (h : o.Orderly) (e : o = .done t) : orderly t := by subst e; cases h; assumption
theorem MxOut.orderly_parked {o : MxOut} (h : o.Orderly) (e : o = .parked t) : orderly t := by subst e; cases h; assumption
theorem SetOut.orderly_done {o : SetOut} {r u : Nat} (h : o.Orderly) (e : o = .done t r u) : orderly t := by subst e; cases h; assumption
theorem SetOut.orderly_fail {o : SetOut} {f : FailInfo} {a : Nat} (h : o.Orderly) (e : o = .fail t f a) : orderly t := by
  subst e; cases h; assumption
theorem SetOut.orderly_park {o : SetOut} {a n : Nat} {c : Cause} (h : o.Orderly) (e : o = .park t a n c) : orderly t := by
  subst e; cases h; assumption
theorem SetOut.orderly_later {o : SetOut} (h : o.Orderly) (e : o = .later t) : orderly t := by subst e; cases h; assumption
theorem Rd.orderly_val {o : Rd} {v : Nat} (h : o.Orderly) (e : o = .val t v) : orderly t := by subst e; cases h; assumption
theorem Lands.orderly {o : Host.Outcome State Fault Refusal} (h : Lands o) (e : o = .next t) : orderly t := by subst e; cases h; assumption

theorem fst_orderly {α : Type} {p : State × α} {a : α} (h : orderly p.1) (e : p = (t, a)) : orderly t := by subst e; exact h
theorem some_orderly {o : Option State} (h : ∀ u ∈ o, orderly u) (e : o = some t) : orderly t := h t e
theorem some_fst_orderly {α : Type} {o : Option (State × α)} {a : α} (h : ∀ p ∈ o, orderly p.1) (e : o = some (t, a)) : orderly t := h _ e

/-! ### The shapes of the model's operations -/

theorem ite_orderly {c : Prop} [Decidable c] (hs : orderly s) (ht : orderly t) : orderly (if c then s else t) := by
  split
  · exact hs
  · exact ht

theorem fst_ite_orderly {c : Prop} [Decidable c] {α : Type} {p q : State × α} (hp : orderly p.1) (hq : orderly q.1) :
    orderly (if c then p else q).1 := by
  split
  · exact hp
  · exact hq

theorem ite_mxOrderly {c : Prop} [Decidable c] {a b : MxOut} (ha : a.Orderly) (hb : b.Orderly) : (if c then a else b).Orderly := by
  split
  · exact ha
  · exact hb

theorem ite_cmdOrderly {c : Prop} [Decidable c] {a b : CmdOut} (ha : a.Orderly) (hb : b.Orderly) : (if c then a else b).Orderly := by
  split
  · exact ha
  · exact hb

theorem foldl_orderly {α : Type} {f : State → α → State} {xs : List α} (h : orderly s) (hf : ∀ t x, orderly t → orderly (f t x)) :
    orderly (xs.foldl f s) := by
  induction xs generalizing s with
  | nil => exact h
  | cons x xs ih => exact ih (hf s x h)

theorem foldl_fst_orderly {α β : Type} {f : State × β → α → State × β} {xs : List α} {p : State × β} (h : orderly p.1)
    (hf : ∀ p x, orderly p.1 → orderly (f p x).1) : orderly (xs.foldl f p).1 := by
  induction xs generalizing p with
  | nil => exact h
  | cons x xs ih => exact ih (hf p x h)

/-- What changes neither a die nor a group changes no memory. -/
theorem orderly_of_eq (hd : t.dies = s.dies) (hg : t.groups = s.groups) (h : orderly s) : orderly t := by
  unfold orderly
  rw [hd, hg]
  exact h

/-! ### The operations of the state -/

theorem mset_mem {K V : Type} [DecidableEq K] {m : List (K × V)} {k : K} {v : V} {p : K × V} (h : p ∈ mset m k v) : p ∈ m ∨ p = (k, v) := by
  induction m with
  | nil => exact .inr (by simpa [mset] using h)
  | cons q r ih =>
    unfold mset at h
    split at h
    · exact (List.mem_cons.1 h).elim .inr (fun hr => .inl (List.mem_cons_of_mem _ hr))
    · refine (List.mem_cons.1 h).elim (fun hq => .inl (hq ▸ List.mem_cons_self ..)) (fun hr => ?_)
      exact (ih hr).imp_left (List.mem_cons_of_mem _)

theorem die_orderly {d : Nat} (h : orderly s) : (s.die d).view.wf = true := by
  unfold State.die mget
  cases hf : mfind s.dies d with
  | none => rfl
  | some x => exact h.1 (d, x) (mfind_mem hf)

theorem group_orderly {g : GroupId} {x : Group} (h : orderly s) (e : s.group? g = some x) : x.spad.wf = true := h.2 (g, x) (mfind_mem e)

theorem setDie_orderly {d : Nat} {x : Die} (h : orderly s) (hx : x.view.wf = true) : orderly (s.setDie d x) :=
  ⟨fun _ hp => (mset_mem hp).elim (h.1 _) (fun e => e ▸ hx), h.2⟩

theorem setGroup_orderly {g : GroupId} {x : Group} (h : orderly s) (hx : x.spad.wf = true) : orderly (s.setGroup g x) :=
  ⟨h.1, fun _ hp => (mset_mem hp).elim (h.2 _) (fun e => e ▸ hx)⟩

/-- An update of a die that leaves its view (the other fields hold no memory). -/
theorem keepView_orderly {d : Nat} {x : Die} (h : orderly s) (hx : x.view = (s.die d).view) : orderly (s.setDie d x) :=
  setDie_orderly h (hx ▸ die_orderly h)

/-- An update of a group that leaves its scratchpad. -/
theorem keepSpad_orderly {g : GroupId} {x y : Group} (h : orderly s) (hy : y.spad.wf = true) (hx : x.spad = y.spad) : orderly (s.setGroup g x) :=
  setGroup_orderly h (hx ▸ hy)

theorem setMreg_orderly {r : MReg} {v : BitVec 64} (h : orderly s) : orderly (s.setMreg r v) := h
theorem setCore_orderly {c : Nat} {x : Core} (h : orderly s) : orderly (s.setCore c x) := h
theorem setGrid_orderly {k : Nat} {x : Grid} (h : orderly s) : orderly (s.setGrid k x) := h
theorem setGang_orderly {k : Nat} {x : Gang} (h : orderly s) : orderly (s.setGang k x) := h
theorem setWarp_orderly {k : WarpId} {x : Warp} (h : orderly s) : orderly (s.setWarp k x) := h
theorem setLane_orderly {k : LaneId} {x : Lane} (h : orderly s) : orderly (s.setLane k x) := h

/-- A map over the dies that keeps every view in canonical form. -/
theorem mapDies_orderly {f : Nat × Die → Nat × Die} (hd : t.dies = s.dies.map f) (hg : t.groups = s.groups)
    (hf : ∀ p, p.2.view.wf = true → (f p).2.view.wf = true) (h : orderly s) : orderly t := by
  refine ⟨fun p hp => ?_, hg ▸ h.2⟩
  obtain ⟨q, hq, rfl⟩ := List.mem_map.1 (hd ▸ hp)
  exact hf q (h.1 q hq)

/-- A map over the groups that keeps every scratchpad in canonical form. -/
theorem mapGroups_orderly {f : GroupId × Group → GroupId × Group} (hd : t.dies = s.dies) (hg : t.groups = s.groups.map f)
    (hf : ∀ p, p.2.spad.wf = true → (f p).2.spad.wf = true) (h : orderly s) : orderly t := by
  refine ⟨hd ▸ h.1, fun p hp => ?_⟩
  obtain ⟨q, hq, rfl⟩ := List.mem_map.1 (hg ▸ hp)
  exact hf q (h.2 q hq)

theorem orderly_mem_none : ∀ u ∈ (none : Option State), orderly u := fun _ hu => nomatch hu
theorem orderly_mem_some (h : orderly s) : ∀ u ∈ some s, orderly u := by
  rintro u ⟨⟩
  exact h

/-! ### Byte memories -/

theorem memWfFrom_filter {m : Mem} {lo : Nat} (p : Nat × Byte → Bool) (h : memWfFrom lo m = true) : memWfFrom lo (m.filter p) = true := by
  induction m generalizing lo with
  | nil => rfl
  | cons c r ih =>
    simp only [memWfFrom, Bool.and_eq_true, decide_eq_true_eq] at h
    rw [List.filter_cons]
    split
    · simp only [memWfFrom, Bool.and_eq_true, decide_eq_true_eq]
      exact ⟨h.1, ih h.2⟩
    · exact memWfFrom_weaken (by omega) (ih h.2)

/-- What a module reset keeps of a memory is in canonical form. -/
theorem keptCells_wf {m : Mem} (h : m.wf = true) : (keptCells s m).wf = true := memWfFrom_filter _ h

/-- Applying a write keeps the canonical form, whatever bytes its stamp lets it replace (spec/12 R244). -/
theorem applyCells_wf {stamps : List (Nat × Stamp)} {st : Stamp} (cs : List (Nat × Byte)) {m : Mem} (h : m.wf = true) :
    (applyCells m stamps st cs).1.wf = true := by
  induction cs generalizing m stamps with
  | nil => exact h
  | cons c r ih =>
    unfold applyCells
    split
    · exact ih (memWrite_wf c.1 c.2 h)
    · exact ih h

/-! ### The storage of sets leaves a die's view -/

theorem Die.countOn_view (y : Die) (ctr : Nat) (i : Nat × Nat) : (y.countOn ctr i).view = y.view := by
  unfold Die.countOn
  split <;> rfl

theorem Die.spill_view (n : Nat) (y : Die) : (Die.spill n y).view = y.view := by
  induction n generalizing y with
  | zero => rfl
  | succ n ih =>
    unfold Die.spill
    split
    · rfl
    · split
      · rfl
      · rw [ih]; exact Die.countOn_view ..

theorem Die.touch_view (y : Die) (used : List (Nat × Nat)) : (y.touch used).view = y.view :=
  List.foldlRecOn (motive := fun z : Die => z.view = y.view) _ _ rfl (fun z hz i _ => (z.countOn_view 17 i).trans hz)

theorem Die.restock_view {y z : Die} {slot room : Nat} {used : List (Nat × Nat)} (e : y.restock slot used room = some z) : z.view = y.view := by
  obtain ⟨_, ez⟩ := Option.ite_none_right_eq_some.1 e
  rw [← Option.some.inj ez, Die.spill_view]
  exact y.touch_view used

end

end Sys2Proof.Machine
end

section
/-! PROOFS. Every memory keeps its canonical form: one lemma for each function that a step goes through, in the order of the model (spec/12 R244). -/

namespace Sys2Proof.Machine

open Sys2Proof.Claims

section
variable {s : State} {k : LaneId} {l : Lane} {w : IWord} {g : GroupId} {x : Gang} {c : Cmd} {b : Bundle} {e : Entry} {ls on : List LaneId}
  {d n ctx off core gk status gang st len q i v op slot close : Nat} {tag : WTag} {va : Addr} {bs : List Byte} {cause : Cause}
  {ticket : BitVec 32} {plan : List (Nat × Nat)} {value : BitVec 64}

/-! ### Records, rings and the bytes a write places -/

theorem bumpSeq_orderly {u : Source} (h : orderly s) : orderly (bumpSeq s u) := by
  unfold bumpSeq
  split
  · exact setCore_orderly h
  · exact setCore_orderly h
  · exact setCore_orderly h
  · exact keepView_orderly h rfl
  · exact keepView_orderly h rfl
  · exact keepView_orderly h rfl
  · exact keepView_orderly h rfl
  · exact h

theorem emit_orderly {u : Source} {kind : Nat} {body : List RField} (h : orderly s) : orderly (emit s u kind body) := bumpSeq_orderly h

theorem applyRaw_orderly {w : FlatWrite} (h : orderly s) : orderly (applyRaw s d w) := setDie_orderly h (applyCells_wf _ (die_orderly h))

theorem rawWrite_orderly {cells : List (Nat × Byte)} (h : orderly s) : orderly (rawWrite s d cells tag) := applyRaw_orderly h

theorem privWrite_orderly {cells : List (Nat × Byte)} (h : orderly s) : orderly (privWrite s cells) :=
  foldl_orderly (foldl_orderly (ite_orderly h h) (fun _ _ ht => applyRaw_orderly ht)) (fun _ _ ht => setDie_orderly ht (memCells_wf _ (die_orderly
      ht)))

theorem devWrite_orderly {pa : Nat} {bytes : List Byte} (h : orderly s) : orderly (devWrite s d pa bytes) := by
  unfold devWrite
  split
  · exact h
  · exact rawWrite_orderly h
  · exact h

theorem retryDevice_orderly (h : orderly s) : orderly (retryDevice s) := foldl_orderly h (fun _ _ ht => devWrite_orderly ht)

theorem ringPut_orderly {base size head : MName} {r : Record} (h : orderly s) : orderly (ringPut s d base size head r) :=
  setMreg_orderly (devWrite_orderly h)

theorem traceDrop_orderly (h : orderly s) : orderly (traceDrop s d n) := keepView_orderly (setMreg_orderly h) rfl

theorem traceWrites_orderly {rs : List Record} (h : orderly s) : orderly (traceWrites d rs s) := by
  induction rs generalizing s with
  | nil => exact keepView_orderly h rfl
  | cons r rs ih =>
    unfold traceWrites
    split
    · exact ih (ringPut_orderly h)
    · exact keepView_orderly h rfl
    · exact ih (traceDrop_orderly h)

theorem tracePut_orderly {r : Record} (h : orderly s) : orderly (tracePut s d r) := traceWrites_orderly h

theorem traceFlush_orderly (h : orderly s) : orderly (traceFlush s d) := traceWrites_orderly h

theorem toRing_orderly {rs : List Record} (h : orderly s) : orderly (toRing s d rs) := by
  unfold toRing
  refine ite_orderly (traceDrop_orderly h) (ite_orderly ?_ ?_)
  · refine ite_orderly ?_ ?_
    · exact foldl_orderly (keepView_orderly (tracePut_orderly (bumpSeq_orderly h)) rfl) (fun _ _ ht => tracePut_orderly ht)
    · exact traceDrop_orderly (keepView_orderly (tracePut_orderly (bumpSeq_orderly h)) rfl)
  · exact ite_orderly (foldl_orderly h (fun _ _ ht => tracePut_orderly ht)) (traceDrop_orderly h)

theorem sealCount_orderly {text : List Byte} {force : Bool} (h : orderly s) : orderly (sealCount s d ctx text n force) := by
  unfold sealCount
  refine ite_orderly (keepView_orderly h rfl) ?_
  dsimp only
  refine foldl_orderly (orderly_of_eq (s := State.setDie _ _ _) rfl rfl (keepView_orderly ?_ rfl)) (fun _ _ ht => toRing_orderly ht)
  exact foldl_fst_orderly (bumpSeq_orderly h) (fun _ _ ht => bumpSeq_orderly ht)

theorem emitRing_orderly {u : Source} {kind : Nat} {body : List RField} {ranges : List (Nat × Nat)} {tagOff : Nat} (h : orderly s) :
    orderly (emitRing s d u kind ctx body ranges tagOff) :=
  ite_orderly (toRing_orderly (bumpSeq_orderly h)) (sealCount_orderly (toRing_orderly (bumpSeq_orderly h)))

theorem stippleRecord_orderly {region addr old new bytes : Nat} {dropped spad : Bool} (h : orderly s) :
    orderly (stippleRecord s d tag region addr old new bytes dropped spad) :=
  emitRing_orderly h

theorem traceWrite_orderly {old : Die} {w : FlatWrite} (h : orderly s) : orderly (traceWrite s d old w) :=
  foldl_orderly h (fun _ _ ht => stippleRecord_orderly ht)

theorem applyWrite_orderly {w : FlatWrite} (h : orderly s) : orderly (applyWrite s d w) :=
  ite_orderly (applyRaw_orderly h) (traceWrite_orderly (applyRaw_orderly h))

theorem flatWrite_orderly {cells : List (Nat × Byte)} (h : orderly s) : orderly (flatWrite s d cells tag) := ite_orderly h (applyWrite_orderly h)

theorem drainTo_orderly (h : orderly s) : orderly (drainTo s d) := foldl_orderly h (fun _ _ ht => applyWrite_orderly ht)

theorem walkSeen_orderly (h : orderly s) : orderly (walkSeen s d ctx va) := ite_orderly (drainTo_orderly h) h

theorem translate_orderly {k : Access} (h : orderly s) : orderly (translate s d ctx va k).1 := by
  unfold translate
  dsimp only
  split
  · split <;> exact h
  · split
    · split <;> exact keepView_orderly (walkSeen_orderly h) rfl
    · exact walkSeen_orderly h
    · exact walkSeen_orderly h
    · exact walkSeen_orderly h
    · exact walkSeen_orderly h

theorem vread_orderly {k : Access} (h : orderly s) : orderly (vread s d ctx va n k).1 := by
  unfold vread
  split
  next e =>
    have ht := fst_orderly (translate_orderly h) e
    split
    · dsimp only
      split
      · exact ht
      · exact ht
      · split <;> exact ht
      · exact ht
    · dsimp only
      split <;> exact ht
  next e => exact fst_orderly (translate_orderly h) e
  next e => exact fst_orderly (translate_orderly h) e
  next e => exact fst_orderly (translate_orderly h) e

theorem vplaceAs_orderly {k e : Access} (h : orderly s) : orderly (vplaceAs s d ctx va k e).1 := by
  unfold vplaceAs
  split
  next e =>
    have ht := fst_orderly (translate_orderly h) e
    dsimp only
    split
    · exact ht
    · exact ht
    · split <;> exact ht
    · exact ht
  next e => exact fst_orderly (translate_orderly h) e
  next e => exact fst_orderly (translate_orderly h) e
  next e => exact fst_orderly (translate_orderly h) e

theorem vplace_orderly {k : Access} (h : orderly s) : orderly (vplace s d ctx va k).1 := vplaceAs_orderly h

theorem bulkRead_orderly {k : Access} (h : orderly s) : orderly (bulkRead s d ctx va n k).1 := by
  unfold bulkRead
  refine foldl_fst_orderly h (fun _ _ ht => ?_)
  split
  · split
    next e => exact fst_orderly (vread_orderly ht) e
    next e => exact fst_orderly (vread_orderly ht) e
  · split
    next e => exact fst_orderly (vread_orderly ht) e
    next e => exact fst_orderly (vread_orderly ht) e
  · exact ht

theorem bulkPlace_orderly {k : Access} (h : orderly s) : orderly (bulkPlace s d ctx va n k).1 := by
  unfold bulkPlace
  refine foldl_fst_orderly h (fun _ _ ht => ?_)
  split
  · split
    next e => split <;> exact (fst_orderly (vplace_orderly ht) e)
    next e => exact fst_orderly (vplace_orderly ht) e
  · split
    next e => exact fst_orderly (vplace_orderly ht) e
    next e => exact fst_orderly (vplace_orderly ht) e
  · exact ht

theorem writePieces_orderly {ps : List (Nat × Nat × Nat)} (h : orderly s) : orderly (writePieces s d va ps bs tag) :=
  foldl_fst_orderly h (fun _ _ ht => flatWrite_orderly ht)

theorem drainAll_orderly (h : orderly s) : orderly (drainAll s) := foldl_orderly h (fun _ _ ht => applyWrite_orderly ht)

theorem ioWrite_orderly {pa : Nat} (h : orderly s) : orderly (ioWrite s pa bs) := by
  unfold ioWrite
  refine foldl_fst_orderly h (fun _ _ ht => ?_)
  split
  · exact devWrite_orderly ht
  · exact ht

theorem ioWriteAs_orderly {pa : Nat} {va : Nat} (h : orderly s) : orderly (ioWriteAs s pa bs va tag) := by
  unfold ioWriteAs
  refine foldl_fst_orderly h (fun _ _ ht => ?_)
  dsimp only
  split
  · exact flatWrite_orderly ht
  · exact ht

theorem fbPut_orderly {r : Record} (h : orderly s) : orderly (fbPut s d r) := ringPut_orderly h

theorem fbWrite_orderly {rs : List Record} (h : orderly s) : orderly (fbWrite d rs s) := by
  induction rs generalizing s with
  | nil => exact keepView_orderly h rfl
  | cons r rs ih => exact ite_orderly (ih (fbPut_orderly h)) (keepView_orderly h rfl)

theorem fbFlush_orderly (h : orderly s) : orderly (fbFlush s d) := fbWrite_orderly h

theorem postFault_orderly {u : Source} {f : FbInfo} (h : orderly s) : orderly (postFault s d u f) := by
  unfold postFault
  refine ite_orderly (ite_orderly (fbPut_orderly (bumpSeq_orderly h)) (keepView_orderly (bumpSeq_orderly h) rfl)) ?_
  exact sealCount_orderly (ite_orderly (fbPut_orderly (bumpSeq_orderly h)) (keepView_orderly (bumpSeq_orderly h) rfl))

theorem traceSpad_orderly {before : Mem} {bytes : List Nat} (h : orderly s) : orderly (traceSpad s g before bytes tag) :=
  foldl_orderly h (fun _ _ ht => stippleRecord_orderly ht)

theorem spadPut_orderly {x : Group} {m : Mem} {bytes : List Nat} (h : orderly s) (hm : m.wf = true) : orderly (spadPut s g x m bytes tag) :=
  traceSpad_orderly (setGroup_orderly h hm)

theorem spadWrite_orderly (h : orderly s) : orderly (spadWrite s g off bs tag) := by
  unfold spadWrite
  split
  · exact h
  next e => exact spadPut_orderly h (memWrites_wf bs off (group_orderly h e))

theorem spadCells_orderly {cs : List (Nat × Byte)} (h : orderly s) : orderly (spadCells s g cs tag) := by
  unfold spadCells
  split
  · exact h
  next x e =>
    exact spadPut_orderly h (List.foldlRecOn (motive := fun m : Mem => m.wf = true) cs _ (group_orderly h e) (fun _ hm c _ => memWrite_wf c.1 c.2
        hm))

/-! ### Lanes that leave, grids that end, traps -/

theorem releaseUnits_orderly {units : Nat} (h : orderly s) : orderly (releaseUnits s core units) := keepView_orderly h rfl

theorem dropRoads_orderly {matrix : Bool} {owner : Nat} (h : orderly s) : orderly (dropRoads s core matrix owner) := keepView_orderly h rfl

theorem cancelStream_orderly {p : Cmd → Bool} (h : orderly s) : orderly (cancelStream s core p) :=
  foldl_orderly (setCore_orderly h) (fun _ _ ht => emit_orderly (releaseUnits_orderly (dropRoads_orderly ht)))

theorem matrixPass_orderly (h : orderly s) : orderly (matrixPass s core) := by
  unfold matrixPass
  dsimp only
  split
  · exact keepView_orderly (setCore_orderly h) rfl
  · exact h

theorem matrixLeave_orderly (h : orderly s) : orderly (matrixLeave s core) :=
  matrixPass_orderly (setCore_orderly (ite_orderly (releaseUnits_orderly h) h))

theorem matrixRelease_orderly (h : orderly s) : orderly (matrixRelease s core) := matrixLeave_orderly (setCore_orderly h)

theorem matrixKill_orderly {p : WarpId → Bool} (h : orderly s) : orderly (matrixKill s core p) := by
  unfold matrixKill
  dsimp only
  split
  · refine ite_orderly ?_ ?_
    · exact matrixLeave_orderly (keepView_orderly (setCore_orderly (foldl_orderly (setCore_orderly h) (fun _ _ ht => dropRoads_orderly ht))) rfl)
    · exact setCore_orderly h
  · exact setCore_orderly h

theorem matrixOrphan_orderly {w : WarpId} (h : orderly s) : orderly (matrixOrphan s core w) := by
  unfold matrixOrphan
  refine ite_orderly ?_ h
  refine ite_orderly ?_ ?_
  · exact matrixRelease_orderly (emit_orderly (setCore_orderly (foldl_orderly h (fun _ _ ht => dropRoads_orderly ht))))
  · exact setCore_orderly (foldl_orderly h (fun _ _ ht => dropRoads_orderly ht))

theorem wordDone_orderly {g : Grid} {lost : Bool} (h : orderly s) : orderly (wordDone s gk g status lost) := by
  unfold wordDone
  extract_lets s1 s2
  have h1 : orderly s1 := setGrid_orderly h
  have h2 : orderly s2 := emit_orderly h1
  exact ite_orderly (orderly_of_eq rfl rfl h2) h1

theorem tryWord_orderly (h : orderly s) : orderly (tryWord s gk) := by
  unfold tryWord
  split
  · exact h
  · split
    · exact h
    · refine ite_orderly (wordDone_orderly h) (ite_orderly (wordDone_orderly h) ?_)
      dsimp only
      split
      next e => exact wordDone_orderly (flatWrite_orderly (fst_orderly (vplace_orderly (drainTo_orderly h)) e))
      next e =>
        have ht := fst_orderly (vplace_orderly (drainTo_orderly h)) e
        exact ite_orderly (postFault_orderly (setGrid_orderly ht)) (wordDone_orderly ht)
      next e => exact fst_orderly (vplace_orderly (drainTo_orderly h)) e
      next e => exact wordDone_orderly (fst_orderly (vplace_orderly (drainTo_orderly h)) e)

theorem tryWords_orderly (h : orderly s) : orderly (tryWords s gk) := by
  unfold tryWords
  split
  · exact h
  · refine foldl_orderly h (fun _ _ ht => ?_)
    split
    · exact ite_orderly ht (tryWord_orderly ht)
    · exact ht

theorem trigger_orderly {l : LaneId} (h : orderly s) : orderly (trigger s l) := by
  unfold trigger
  split
  · refine ite_orderly h ?_
    dsimp only
    split
    · exact ite_orderly (tryWords_orderly (setGrid_orderly (setLane_orderly h))) (setGrid_orderly (setLane_orderly h))
    · exact setLane_orderly h
  · exact h

theorem finishGrid_orderly (h : orderly s) : orderly (finishGrid s gk) := by
  unfold finishGrid
  split
  · exact ite_orderly (tryWords_orderly (setGrid_orderly h)) h
  · exact h

theorem leaveFifo_orderly {w : WarpId} (h : orderly s) : orderly (leaveFifo s core w) := keepView_orderly (setCore_orderly h) rfl

theorem leaveWait_orderly (h : orderly s) : orderly (leaveWait s k) := by
  unfold leaveWait
  split
  · exact h
  next x1 _ =>
    cases x1.st with
    | macq _ _ =>
      exact ite_orderly (matrixLeave_orderly (leaveFifo_orderly h)) (leaveFifo_orderly h)
    | adm => exact keepView_orderly (dropRoads_orderly h) rfl
    | _ => exact h

theorem exitLane_orderly {l : LaneId} {trig : Bool} (h : orderly s) : orderly (exitLane s l trig) := by
  unfold exitLane
  split
  · exact h
  · refine ite_orderly h ?_
    extract_lets late s1 s2 x x1 s3 core d s4 y s5
    have h1 : orderly s1 := ite_orderly (trigger_orderly h) h
    have h2 : orderly s2 := by
      dsimp only [s2]
      split
      · exact h1
      · exact leaveWait_orderly h1
    have h5 : orderly s5 := keepView_orderly (releaseUnits_orderly (dropRoads_orderly (setLane_orderly h2))) rfl
    clear_value s5
    split
    · exact h5
    · exact ite_orderly (matrixOrphan_orderly (leaveFifo_orderly (setCore_orderly (setWarp_orderly h5)))) (setWarp_orderly h5)

theorem lateTrigger_orderly {l : LaneId} (h : orderly s) : orderly (lateTrigger s l) := by
  unfold lateTrigger
  split
  · exact ite_orderly (trigger_orderly (setLane_orderly h)) h
  · exact h

theorem removeGang_orderly (h : orderly s) : orderly (removeGang s gang) := ⟨h.1, fun p hp => h.2 p (List.mem_of_mem_filter hp)⟩

theorem releaseKilled_orderly (h : orderly s) : orderly (releaseKilled s gang) := h

theorem forsakeLanes_orderly {of : LaneId → Bool} (h : orderly s) : orderly (forsakeLanes s of) := mapDies_orderly rfl rfl (fun _ hp => hp) h

theorem dropAsk_orderly (h : orderly s) : orderly (dropAsk s gang) := mapDies_orderly rfl rfl (fun _ hp => hp) h

theorem clearGang_orderly (h : orderly s) : orderly (clearGang s gang) := by
  unfold clearGang
  split
  · exact ite_orderly (setGang_orderly (removeGang_orderly h)) (removeGang_orderly h)
  · exact h

theorem killGang_orderly (h : orderly s) : orderly (killGang s gang) := by
  unfold killGang
  refine clearGang_orderly (mapDies_orderly rfl rfl (fun _ hp => hp) ?_)
  refine foldl_orderly (releaseKilled_orderly (dropAsk_orderly ?_)) (fun _ _ ht => exitLane_orderly ht)
  split
  · exact foldl_orderly h (fun _ _ ht => matrixKill_orderly (cancelStream_orderly ht))
  · exact h

theorem endGrid_orderly {c : Cause} (h : orderly s) : orderly (endGrid s gk st c) := by
  unfold endGrid
  split
  · exact h
  · exact ite_orderly h (finishGrid_orderly (foldl_orderly (setGrid_orderly h) (fun _ _ ht => killGang_orderly ht)))

theorem faultRecord_orderly {w : WarpId} {pc : Addr} {lanes : Word} {exited : Bool} {t : TrapInfo} {addrs : List (Nat × Addr)} (h : orderly s) :
    orderly (faultRecord s w pc lanes exited t addrs).1 := by
  unfold faultRecord
  refine ite_orderly ?_ ?_
  · exact sealCount_orderly (toRing_orderly (foldl_fst_orderly (bumpSeq_orderly h) (fun _ _ ht => bumpSeq_orderly ht)))
  · exact toRing_orderly (foldl_fst_orderly (bumpSeq_orderly h) (fun _ _ ht => bumpSeq_orderly ht))

theorem parkSub_orderly {w : WarpId} {pc : Addr} {ts : List (Nat × TrapInfo)} (h : orderly s) : orderly (parkSub s w pc len ts) := by
  unfold parkSub
  split
  · extract_lets lanes mask addrs handler
    split
    next e =>
      have ht := fst_orderly (faultRecord_orderly h) e
      dsimp only
      refine ite_orderly (endGrid_orderly ?_) (foldl_orderly (setWarp_orderly ht) (fun _ _ hu => ?_))
      · split
        · exact setGrid_orderly ht
        · exact ht
      · split
        · exact setLane_orderly (ite_orderly hu (releaseUnits_orderly (dropRoads_orderly hu)))
        · exact hu
  · exact h

theorem formTraps_orderly {pc : Addr} {ts : List (LaneId × TrapInfo)} (h : orderly s) : orderly (formTraps s pc len ts) :=
  foldl_orderly h (fun _ _ ht => foldl_orderly ht (fun _ _ ht => parkSub_orderly ht))

theorem deliverTrap_orderly {w : WarpId} {u : SubWarp} {watch : Bool} (h : orderly s) : orderly (deliverTrap s w u watch) := by
  unfold deliverTrap
  refine foldl_orderly ?_ (fun _ _ ht => ?_)
  · split
    · exact setWarp_orderly h
    · exact h
  · dsimp only
    split
    · exact setLane_orderly ht
    · exact ht

theorem clearSubs_orderly {w : WarpId} (h : orderly s) : orderly (clearSubs s w) := by
  unfold clearSubs
  split
  · exact setWarp_orderly h
  · exact h

theorem trapParked_orderly {w : WarpId} {ls : List (Nat × Lane)} {t : Lane → TrapInfo} (h : orderly s) : orderly (trapParked s w ls t) :=
  foldl_orderly h (fun _ _ ht => foldl_orderly ht (fun _ _ ht => parkSub_orderly ht))

theorem release_orderly {ls : List (LaneId × Addr)} (h : orderly s) : orderly (release s ls) := by
  unfold release
  refine foldl_orderly h (fun _ _ ht => ?_)
  split
  · exact setLane_orderly ht
  · exact ht

theorem recheckWaits_orderly {w : WarpId} (h : orderly s) : orderly (recheckWaits s w) := by
  unfold recheckWaits
  refine foldl_orderly h (fun _ _ ht => ?_)
  split
  · exact ht
  · exact ite_orderly (ite_orderly ht (trapParked_orderly ht)) (release_orderly (drainTo_orderly (ite_orderly ht (trapParked_orderly ht))))

theorem releaseBar_orderly {ls : List (LaneId × Lane)} (h : orderly s) : orderly (releaseBar s gang ls) := by
  unfold releaseBar
  refine release_orderly ?_
  split
  · exact drainTo_orderly h
  · exact h

theorem mismatch_orderly {ls : List (LaneId × Lane)} (h : orderly s) : orderly (mismatch s ls) :=
  foldl_orderly h (fun _ _ ht => trapParked_orderly ht)

theorem recheckBars_orderly (h : orderly s) : orderly (recheckBars s gang) := by
  unfold recheckBars
  refine ite_orderly ?_ ?_
  · exact releaseBar_orderly (foldl_orderly h (fun _ _ ht => ite_orderly (releaseBar_orderly ht) (ite_orderly (mismatch_orderly ht) ht)))
  · refine ite_orderly ?_ (foldl_orderly h (fun _ _ ht => (ite_orderly (releaseBar_orderly ht) (ite_orderly (mismatch_orderly ht) ht))))
    refine mismatch_orderly (foldl_orderly h (fun _ _ ht1 => ?_))
    exact ite_orderly (releaseBar_orderly ht1) (ite_orderly (mismatch_orderly ht1) ht1)

theorem recheckGang_orderly (h : orderly s) : orderly (recheckGang s gang) :=
  foldl_orderly (recheckBars_orderly (foldl_orderly h (fun _ _ ht => recheckWaits_orderly ht))) (fun _ _ ht => lateTrigger_orderly ht)

theorem exitLanes_orderly {trig : Bool} (h : orderly s) : orderly (exitLanes s ls trig) :=
  foldl_orderly (foldl_orderly (foldl_orderly h (fun _ _ ht => exitLane_orderly ht)) (fun _ _ ht => clearSubs_orderly (recheckWaits_orderly ht)))
      (fun _ _ ht => recheckBars_orderly ht)

theorem abortTries_orderly {code : Nat} {user : BitVec 8} (h : orderly s) : orderly (abortTries s ls code user) := by
  unfold abortTries
  refine foldl_orderly ?_ (fun _ _ ht => clearSubs_orderly (recheckWaits_orderly ht))
  refine foldl_orderly h (fun _ _ ht => ?_)
  split
  · split
    · dsimp only
      split
      · exact setWarp_orderly (setLane_orderly ht)
      · exact setLane_orderly ht
    · exact ht
  · exact ht

theorem notIssued_orderly (h : orderly s) : orderly (notIssued s ls) := h

theorem laneTurn_orderly {f : LaneId → Lane → State → LaneOut} {a : Turns} (hf : ∀ k l s, orderly s → (f k l s).Orderly) (ha : orderly a.s) :
    orderly (laneTurn f a k).s := by
  unfold laneTurn
  split
  · exact ha
  next l _ =>
    have hl := hf k l a.s ha
    split
    next e => exact LaneOut.orderly_ok hl e
    · exact ha
    next e => exact LaneOut.orderly_trapWith hl e
    · exact ha
    next code user e =>
      have ht : orderly (abortTries _ [k] code user) := abortTries_orderly (LaneOut.orderly_abort hl e)
      exact ite_orderly (notIssued_orderly ht) ht
    next t e =>
      have ht : orderly { a.s with dies := t.dies } := And.intro (LaneOut.orderly_adm hl e).1 ha.2
      exact setLane_orderly ht
    · split
      · dsimp only
        exact abortTries_orderly ha
      · exact setLane_orderly ha

theorem postAll_orderly {ps : List (LaneId × FbInfo)} (h : orderly s) : orderly (postAll s ps) := by
  unfold postAll
  refine foldl_orderly h (fun _ _ ht => ?_)
  split
  · exact postFault_orderly ht
  · exact ht

theorem runLanes_orderly {f : LaneId → Lane → State → LaneOut} (hf : ∀ k l s, orderly s → (f k l s).Orderly) (h : orderly s) :
    orderly (runLanes f s) :=
  formTraps_orderly (postAll_orderly (List.foldlRecOn (motive := fun a : Turns => orderly a.s) _ _ h (fun _ ha _ _ => laneTurn_orderly hf ha)))

/-! ### Queues, commands and the results of an instruction -/

theorem setQueue_orderly {q : Option Queue} (h : orderly s) : orderly (setQueue s g n q) := by
  unfold setQueue
  split
  next e => exact keepSpad_orderly h (group_orderly h e) rfl
  · exact h

theorem queueDrop_orderly {k : Nat} {q : Queue} (h : orderly s) : orderly (queueDrop s g k q n) := setQueue_orderly h

theorem queuePush_orderly {k : Nat} {es : List Nat} (h : orderly s) : orderly (queuePush s g k es tag) := by
  unfold queuePush
  refine foldl_orderly h (fun _ _ ht => ?_)
  split
  · exact setQueue_orderly (spadWrite_orderly ht)
  · exact ht

theorem streamFault_orderly {va : Nat} {what level : Nat} {mal : Bool} {attempts : Nat} (h : orderly s) :
    orderly (streamFault s core c status va cause what level mal attempts) :=
  emitRing_orderly h

theorem setCmd_orderly (h : orderly s) : orderly (setCmd s core c) := setCore_orderly h

theorem postCd_orderly {w : WarpId} {t : Word} (h : orderly s) : orderly (postCd s core w t status) := by
  unfold postCd
  split
  · exact ite_orderly h (ite_orderly (setWarp_orderly h) (setCore_orderly h))
  · exact h

theorem noteDone_orderly (h : orderly s) : orderly (noteDone s c status st) := by
  unfold noteDone
  dsimp only
  split
  · refine setLane_orderly ?_
    split
    next e => exact keepSpad_orderly h (group_orderly h e) rfl
    · exact h
  · split
    next e => exact keepSpad_orderly h (group_orderly h e) rfl
    · exact h

theorem setIstream_orderly {i : IStream} (h : orderly s) : orderly (setIstream s g n i) := by
  unfold setIstream
  split
  next e => exact keepSpad_orderly h (group_orderly h e) rfl
  · exact h

theorem completeCmd_orderly {t : BitVec 32} {id : Nat} (h : orderly s) : orderly (completeCmd s core t id) := by
  unfold completeCmd
  split
  · exact h
  · split
    · exact h
    · extract_lets s1 c s2 status d fin
      have h2 : orderly s2 := setCmd_orderly (ite_orderly h (releaseUnits_orderly (dropRoads_orderly h)))
      have hfin : ∀ t, orderly t → orderly (fin t) := by
        intro t ht
        dsimp -zeta only [fin]
        extract_lets u1 u2 u3 u4 y
        have h3 : orderly u3 := noteDone_orderly (emit_orderly (ite_orderly (postCd_orderly ht) ht))
        refine setCore_orderly ?_
        dsimp only [u4]
        split
        · exact setIstream_orderly h3
        · exact h3
      clear_value s2 fin
      refine ite_orderly (hfin _ h2) ?_
      split
      · exact hfin _ (streamFault_orderly h2)
      · split
        next e => exact hfin _ (flatWrite_orderly (fst_orderly (vplace_orderly h2) e))
        next e =>
          have ht := fst_orderly (vplace_orderly h2) e
          exact ite_orderly (setCmd_orderly (postFault_orderly ht)) (hfin _ (streamFault_orderly ht))
        next e => exact hfin _ (streamFault_orderly (fst_orderly (vplace_orderly h2) e))
        next e => exact fst_orderly (vplace_orderly h2) e

theorem setChan_orderly {c : Chan} (h : orderly s) : orderly (setChan s g n c) := by
  unfold setChan
  split
  next e => exact keepSpad_orderly h (group_orderly h e) rfl
  · exact h

theorem addRoads_orderly {owner : Nat} {matrix : Bool} {rs : List Range} (h : orderly s) : orderly (addRoads s d core ctx owner matrix rs) :=
  keepView_orderly h rfl

theorem clearIdem_orderly (h : orderly s) : orderly (clearIdem s g) := by
  unfold clearIdem
  split
  next e => exact keepSpad_orderly h (group_orderly h e) rfl
  · exact h

theorem clearChan_orderly (h : orderly s) : (clearChan s k n).Orderly := by
  unfold clearChan
  dsimp only
  split
  · exact .wait
  · exact .issued (setChan_orderly h)

theorem enter_orderly {ranges : List Range} (h : orderly s) : orderly (enter s k c ranges) := by
  unfold enter
  refine ite_orderly ?_ ?_
  · refine completeCmd_orderly ?_
    split
    · exact setLane_orderly (addRoads_orderly h)
    · exact addRoads_orderly h
  · split
    · exact setLane_orderly (addRoads_orderly h)
    · exact addRoads_orderly h

theorem portDone_orderly {a : CmdArgs} {o : CmdOut} (ho : o.Orderly) : (portDone k a o).Orderly := by
  cases ho with
  | issued h => exact .issued (ite_orderly (enter_orderly h) h)
  | trap => exact .trap
  | trapWith h => exact .trapWith h
  | wait => exact .wait
  | adm h => exact .adm h

theorem stopIstream_orderly (h : orderly s) : orderly (stopIstream s k n) := by
  unfold stopIstream
  dsimp only
  split
  · split
    · exact ite_orderly (setCmd_orderly h) h
    · exact h
  · exact h

theorem askToken_orderly {units : Nat} {ranges : List Range} (h : orderly s) : orderly (askToken s k units ranges) :=
  keepView_orderly (releaseUnits_orderly (addRoads_orderly h)) rfl

theorem cmdIssue_orderly {a : CmdArgs} (h : orderly s) : (cmdIssue s k a).Orderly := by
  unfold cmdIssue
  extract_lets g core s0 ch isw ended s1
  have h0 : orderly s0 := dropRoads_orderly h
  have h1 : orderly s1 := ite_orderly (setChan_orderly h0) h0
  refine ite_cmdOrderly (portDone_orderly (.issued (stopIstream_orderly h))) (ite_cmdOrderly (portDone_orderly (clearChan_orderly h)) ?_)
  split
  · exact .trap
  · extract_lets units granted c s2
    have h2 : orderly s2 := by
      dsimp only [s2]
      split
      · exact setIstream_orderly h1
      · exact h1
    exact ite_cmdOrderly .wait (ite_cmdOrderly .wait
      (ite_cmdOrderly (.adm (askToken_orderly h0)) (.issued (enter_orderly (clearIdem_orderly h2)))))

theorem cqPush_orderly {e : Word} (h : orderly s) : (cqPush s k e).Orderly := by
  unfold cqPush
  split
  · exact .issued h
  · dsimp only
    split
    · exact .wait
    · split
      · exact .issued (setLane_orderly h)
      · split
        · exact .wait
        · split
          · exact .trapWith (setLane_orderly h)
          · split
            · exact .trap
            · split
              next e =>
                have ht := CmdOut.orderly_issued (cmdIssue_orderly h) e
                split
                · exact .issued (setLane_orderly ht)
                · exact .issued ht
              · exact cmdIssue_orderly h

theorem gated_orderly {f : LaneId → Lane → State → LaneOut} (hf : ∀ k l t, orderly t → (f k l t).Orderly) (h : orderly s) :
    (gated e w f k l s).Orderly := by
  unfold gated
  split
  · exact hf _ _ _ h
  · exact .ok (setLane_orderly h)
  · exact .wait
  · exact .trap
  · exact .abort h

theorem perLane_orderly {f : IWord → LaneId → Lane → State → LaneOut} (hf : ∀ w k l t, orderly t → (f w k l t).Orderly) (h : orderly s) :
    orderly (perLane e f w s) :=
  runLanes_orderly (fun _ _ _ ht => gated_orderly (fun _ _ _ ht => hf _ _ _ _ ht) ht) h

theorem popQ_orderly {wait : Bool} {dcode : Nat} (h : orderly s) : (popQ s k q n wait dcode).Orderly := by
  unfold popQ
  dsimp only
  split
  · exact .wait
  · split
    · split
      · exact .trap
      · split
        · split
          · exact .trap
          · exact .wait
        · split
          · exact .trap
          · exact .val (queueDrop_orderly h)
    · split
      · split
        · exact .trap
        · split
          · split
            · exact .trap
            · exact .wait
          · exact .val (setCore_orderly h)
      · split
        · split
          · split
            · exact .trap
            · exact .wait
          · exact .val (setWarp_orderly h)
        · split
          · exact .trap
          · exact .wait

theorem readSrc_orderly {o : Operand} {wait : Bool} {t : Ty} (h : orderly s) : (readSrc s k l w o wait t).Orderly := by
  unfold readSrc
  dsimp only
  split
  · split
    · exact .val h
    · split
      · exact .trap
      · exact .wait
  · split
    next e => exact .val (Rd.orderly_val (popQ_orderly h) e)
    · exact popQ_orderly h
  · exact .val h
  · exact .val h
  · exact .val h
  · exact .val h
  · exact .val h

theorem pushQ_orderly {es : List Word} {bcode : Nat} (h : orderly s) : (pushQ s k q es bcode).Orderly := by
  unfold pushQ
  dsimp only
  split
  · exact .wait
  · split
    · split
      · exact .trap
      · split
        · exact .wait
        · split
          · exact .trap
          · exact .issued (queuePush_orderly h)
    · split
      · split
        · exact .trap
        · split
          · exact .wait
          · exact .issued (setCore_orderly h)
      · refine List.foldlRecOn (motive := CmdOut.Orderly) _ _ (.issued h) (fun o ho e _ => ?_)
        split
        · exact cqPush_orderly (CmdOut.orderly_issued ho rfl)
        · exact ho

theorem finish_orderly {t : Ty} {fl : Flags} (h : orderly s) : (finish s k w t v fl).Orderly := by
  unfold finish
  split
  · exact .ok h
  · split
    · exact .wait
    · split
      · exact .trapWith (setLane_orderly h)
      · dsimp only
        split
        · exact .ok (setLane_orderly h)
        · split
          next e =>
            have ht := CmdOut.orderly_issued (pushQ_orderly (setLane_orderly h)) e
            split
            · exact .ok (setLane_orderly ht)
            · exact .ok ht
          · exact .trap
          next e => exact .trapWith (CmdOut.orderly_trapWith (pushQ_orderly (setLane_orderly h)) e)
          · exact .wait
          next e => exact .adm (CmdOut.orderly_adm (pushQ_orderly (setLane_orderly h)) e)
        · exact .ok (setLane_orderly h)
        · exact .ok (setLane_orderly h)

theorem withSrcs_orderly {ta tb tc : Ty} {f : State → Nat → Nat → Nat → LaneOut} (h : orderly s) (hf : ∀ t a b c, orderly t → (f t a b
    c).Orderly) : (withSrcs s k l w ta tb tc f).Orderly := by
  unfold withSrcs
  split
  · exact .wait
  · exact .trap
  next e =>
    have ht := Rd.orderly_val (readSrc_orderly h) e
    split
    · exact .wait
    · exact .trap
    next e1 =>
      have ht1 := Rd.orderly_val (readSrc_orderly ht) e1
      split
      · exact .wait
      · exact .trap
      next e => exact hf _ _ _ _ (Rd.orderly_val (readSrc_orderly ht1) e)

theorem arrive_orderly {m : Nat} {on off : Arrive} (h : orderly s) : (arrive e w m on off k l s).Orderly := by
  unfold arrive
  extract_lets park
  have hp : ∀ g, (park g).Orderly
    | .go | .skip => .ok (setLane_orderly h)
    | .wait => .wait
    | .trap _ => .trap
    | .abort _ => .abort h
  split
  · exact hp _
  · split
    · exact .ok (setLane_orderly h)
    · exact hp _
  · exact hp _

/-! ### Collective operations, fetch and the path of a warp -/

theorem unpark_orderly (h : orderly s) : orderly (unpark s ls) := by
  unfold unpark
  refine foldl_orderly h (fun _ _ ht => ?_)
  split
  · exact setLane_orderly ht
  · exact ht

theorem collCheck_orderly {m : Nat} {perform : WarpId → List LaneId → State → State} {v : WarpId} (hp : ∀ v on t, orderly t → orderly
    (perform v on t)) (h : orderly s) : orderly (collCheck m perform s v) := by
  unfold collCheck
  split
  · exact h
  · refine ite_orderly ?_ (ite_orderly h (formTraps_orderly h))
    refine ite_orderly (notIssued_orderly (abortTries_orderly (ite_orderly h (formTraps_orderly h)))) (ite_orderly ?_ ?_)
    · exact notIssued_orderly (abortTries_orderly (ite_orderly h (formTraps_orderly h)))
    · exact hp _ _ _ (ite_orderly h (formTraps_orderly h))

theorem collective_orderly {m : Nat} {on off : Arrive} {perform : WarpId → List LaneId → State → State} (hp : ∀ v on t, orderly t → orderly
    (perform v on t)) (h : orderly s) : orderly (collective e w m on off perform s) := by
  unfold collective
  dsimp only
  split
  · exact runLanes_orderly (fun _ _ _ ht => arrive_orderly ht) h
  · exact collCheck_orderly hp (runLanes_orderly (fun _ _ _ ht => arrive_orderly ht) h)

theorem deliverAll_advanceOff_orderly {parts : List LaneId} {rs : List (LaneId × Nat × Flags)} (h : orderly s) :
    orderly (deliverAll.advanceOff parts rs s) := by
  unfold deliverAll.advanceOff
  refine foldl_orderly h (fun _ _ ht => ?_)
  split
  · exact setLane_orderly ht
  · exact ht

theorem deliverAll_orderly {td : Ty} {parts : List LaneId} {rs : List (LaneId × Nat × Flags)} (h : orderly s) :
    orderly (deliverAll w td parts rs s) := by
  unfold deliverAll
  refine formTraps_orderly (foldl_fst_orderly (deliverAll_advanceOff_orderly (unpark_orderly h)) (fun _ _ ht => ?_))
  split
  next e => exact LaneOut.orderly_ok (finish_orderly ht) e
  · exact ht
  next e => exact LaneOut.orderly_trapWith (finish_orderly ht) e
  · exact ht

theorem crossLane_orderly {td : Ty} {f : State → List LaneId → List LaneId → LaneId → Res} (h : orderly s) : orderly (crossLane e w td f s) :=
  collective_orderly (fun _ _ _ ht => deliverAll_orderly ht) h

theorem fetchByte_orderly (h : orderly s) : orderly (fetchByte s d ctx va).1 := by
  unfold fetchByte
  split
  · exact h
  · split
    · exact h
    · split
      next e => exact fst_orderly (vread_orderly h) e
      next e => exact fst_orderly (vread_orderly h) e
      next e => exact fst_orderly (vread_orderly h) e
      next e => exact fst_orderly (vread_orderly h) e

theorem fetchBytes_orderly (h : orderly s) : orderly (fetchBytes s d ctx va n).1 := by
  induction n generalizing s va with
  | zero => exact h
  | succ n ih =>
    unfold fetchBytes
    split
    next e => exact ih (fst_orderly (fetchByte_orderly h) e)
    next e => exact fst_orderly (fetchByte_orderly h) e

theorem fillAt_orderly (h : orderly s) : orderly (fillAt s core ctx va).1 := by
  unfold fillAt
  dsimp only
  split
  next e => exact fst_orderly (fetchByte_orderly h) e
  next e => exact fst_orderly (fetchByte_orderly h) e
  next e =>
    have ht := fst_orderly (fetchByte_orderly h) e
    split
    next e => exact fst_orderly (fetchBytes_orderly ht) e
    next e => exact fst_orderly (fetchBytes_orderly ht) e
    next e => exact fst_orderly (fetchBytes_orderly ht) e

theorem fillCache_orderly (h : orderly s) : orderly (fillCache s core ctx va).1 := by
  unfold fillCache
  split
  · exact h
  · split
    next e => exact fst_orderly (fillAt_orderly h) e
    next e => exact setCore_orderly (fst_orderly (fillAt_orderly h) e)

theorem setPath_orderly {w : WarpId} {a : Option Addr} (h : orderly s) : orderly (setPath s w a) := by
  unfold setPath
  split
  · exact ite_orderly h (setWarp_orderly h)
  · exact h

theorem repath_orderly {w : WarpId} (h : orderly s) : orderly (repath s w) := by
  unfold repath
  split
  · exact setPath_orderly h
  · exact h

theorem yieldPath_orderly {w : WarpId} {at_ : List Addr} (h : orderly s) : orderly (yieldPath s w at_) := by
  unfold yieldPath
  split
  · exact setPath_orderly h
  · exact h

theorem timerPath_orderly {w : WarpId} (h : orderly s) : orderly (timerPath s w) := by
  unfold timerPath
  split
  · dsimp only
    split
    · exact h
    · exact setPath_orderly h
  · exact h

theorem tick_orderly (h : orderly s) : orderly (tick s core) := by
  unfold tick
  extract_lets d y s1 here mine held
  have h1 : orderly s1 := keepView_orderly h rfl
  refine mapGroups_orderly (s := s1) rfl rfl (fun p hp => ?_) h1
  dsimp only
  split <;> exact hp

theorem endCycle_orderly (h : orderly s) : orderly (endCycle core s) := h

theorem repathPart_orderly {part : Nat} (h : orderly s) : orderly (repathPart s core part) := foldl_orderly h (fun _ _ ht => repath_orderly ht)

theorem fenceSc_orderly {scp : Nat} (h : orderly s) : orderly (fenceSc s scp) := ite_orderly (drainAll_orderly h) h

/-! ### Accesses and the Square -/

theorem addPend_orderly {p : Pend} (h : orderly s) : orderly (addPend s k p) := by
  unfold addPend
  split
  · exact setLane_orderly h
  · exact h

theorem goOn_orderly (h : orderly s) : (goOn s k).Orderly := by
  unfold goOn
  split
  · exact .ok (setLane_orderly h)
  · exact .ok h

theorem memFault_orderly {t : TrapInfo} (h : orderly s) : (memFault l s t).Orderly := by
  unfold memFault
  split
  · exact .abort h
  · exact .trap

theorem transFault_orderly {info : Word} {access : Nat} {dst : List Nat} {c : Cause} {level : Nat} {mal : Bool} (h : orderly s) :
    (transFault s k l va info access dst c level mal).Orderly := by
  unfold transFault
  split
  · exact .park
  · exact memFault_orderly h

theorem failLater_orderly {kind : PKind} {dst : List Nat} {info : Word} {f : FailInfo} (h : orderly s) :
    (failLater s k l kind dst va info f).Orderly := by
  unfold failLater
  split
  · exact .abort h
  · exact goOn_orderly (addPend_orderly h)

theorem sendSquare_orderly {h : SqShape} (hs : orderly s) : (sendSquare w h k l s).Orderly := by
  unfold sendSquare
  refine withSrcs_orderly hs (fun _ _ _ _ ht => ?_)
  split
  · exact .wait
  · dsimp only
    split
    · exact memFault_orderly (ite_orderly (fenceSc_orderly ht) ht)
    · split
      next e =>
        have ht1 := fst_orderly (vplaceAs_orderly (ite_orderly (fenceSc_orderly ht) ht)) e
        exact goOn_orderly (setDie_orderly (addPend_orderly ht1) (die_orderly ht1))
      next e => exact transFault_orderly (fst_orderly (vplaceAs_orderly (ite_orderly (fenceSc_orderly ht) ht)) e)
      next e => exact failLater_orderly (fst_orderly (vplaceAs_orderly (ite_orderly (fenceSc_orderly ht) ht)) e)
      · exact .wait

theorem laneAtomic_orderly (h : orderly s) : (laneAtomic op w k l s).Orderly := sendSquare_orderly h

theorem laneAaddl_orderly (h : orderly s) : (laneAaddl w k l s).Orderly := sendSquare_orderly h

theorem laneRed_orderly (h : orderly s) : (laneRed op w k l s).Orderly := sendSquare_orderly h

theorem laneMwait_orderly (h : orderly s) : (laneMwait w k l s).Orderly := by
  unfold laneMwait
  split
  · exact .wait
  · exact .trap
  next e =>
    have ht := Rd.orderly_val (readSrc_orderly h) e
    split
    · exact .wait
    · dsimp only
      split
      · exact goOn_orderly (ite_orderly ht (addPend_orderly ht))
      · split <;> exact .ok (setLane_orderly ht)

theorem settle_orderly {pid : Nat} {vals : Option (List Word)} {needs : Vec} {fail : Option FailInfo} (h : orderly s) :
    orderly (settle s k pid vals needs fail) := by
  unfold settle
  split
  · exact setLane_orderly h
  · exact h

theorem settleVal_orderly {q : SqReq} {vs : List Word} (h : orderly s) : orderly (settleVal s d q vs) := settle_orderly h

theorem squareWrite_orderly {q : SqReq} {cells : List (Nat × Byte)} {vas : List Nat} (h : orderly s) : orderly (squareWrite s d q cells vas) :=
  flatWrite_orderly h

theorem doAtomic_orderly {q : SqReq} (h : orderly s) : orderly (doAtomic s d q) :=
  ite_orderly (settleVal_orderly (squareWrite_orderly h)) (settleVal_orderly (squareWrite_orderly h))

theorem doDeque_orderly {e : Nat} {q : SqReq} (h : orderly s) : orderly (doDeque s e q) := by
  unfold doDeque
  refine ite_orderly (settle_orderly h) (ite_orderly (settleVal_orderly (squareWrite_orderly h)) (ite_orderly ?_ ?_))
  · exact settleVal_orderly (squareWrite_orderly h)
  · refine ite_orderly (settle_orderly h) (ite_orderly (settle_orderly h) ?_)
    split
    next e =>
      have ht := fst_orderly (vplace_orderly h) e
      exact ite_orderly (settleVal_orderly (squareWrite_orderly ht)) (settleVal_orderly (squareWrite_orderly ht))
    next e =>
      have ht := fst_orderly (vplace_orderly h) e
      exact ite_orderly ht (ite_orderly (keepView_orderly (ite_orderly (postFault_orderly ht) ht) rfl) (settle_orderly ht))
    next e => exact settle_orderly (fst_orderly (vplace_orderly h) e)
    next e => exact keepView_orderly (fst_orderly (vplace_orderly h) e) rfl

theorem doMarm_orderly {q : SqReq} (h : orderly s) : orderly (doMarm s d q) := by
  unfold doMarm
  split
  · exact h
  · exact ite_orderly h (ite_orderly (settle_orderly h) (settleVal_orderly (setLane_orderly h)))

theorem performSquare_orderly {e : Nat} {q : SqReq} (h : orderly s) : orderly (performSquare s e q) := by
  unfold performSquare
  refine ite_orderly ?_ ?_
  · refine drainAll_orderly ?_
    split
    · exact settle_orderly (ite_orderly h (drainTo_orderly h))
    · refine ite_orderly (doDeque_orderly (ite_orderly h (drainTo_orderly h))) (ite_orderly ?_ ?_)
      · exact doMarm_orderly (ite_orderly h (drainTo_orderly h))
      · exact doAtomic_orderly (ite_orderly h (drainTo_orderly h))
  · split
    · exact settle_orderly (ite_orderly h (drainTo_orderly h))
    · refine ite_orderly (doDeque_orderly (ite_orderly h (drainTo_orderly h))) (ite_orderly ?_ ?_)
      · exact doMarm_orderly (ite_orderly h (drainTo_orderly h))
      · exact doAtomic_orderly (ite_orderly h (drainTo_orderly h))

theorem doSquare_orderly {q : SqReq} (h : orderly s) : orderly (doSquare s d q) := by
  unfold doSquare
  refine ite_orderly (performSquare_orderly h) ?_
  dsimp only
  split
  next e =>
    have ht := fst_orderly (vplaceAs_orderly h) e
    exact ite_orderly (performSquare_orderly ht) (keepView_orderly ht rfl)
  next e =>
    have ht := fst_orderly (vplaceAs_orderly h) e
    exact ite_orderly (ite_orderly ht (keepView_orderly (postFault_orderly ht) rfl)) (settle_orderly ht)
  next e => exact settle_orderly (fst_orderly (vplaceAs_orderly h) e)
  next e => exact keepView_orderly (fst_orderly (vplaceAs_orderly h) e) rfl

/-! ### Sets -/

theorem writeSpill_orderly {p : (Nat × Nat) × Nat} (h : orderly s) : orderly (writeSpill d s p) := by
  unfold writeSpill
  split
  · exact privWrite_orderly h
  · exact h

theorem packSpills_orderly (h : orderly s) : orderly (packSpills s d) :=
  foldl_orderly (keepView_orderly h rfl) (fun _ _ ht => writeSpill_orderly ht)

theorem writeSpills_orderly (h : orderly s) : orderly (writeSpills s d) := by
  unfold writeSpills
  refine foldl_orderly h (fun _ _ ht => (ite_orderly ht ?_))
  split
  · exact writeSpill_orderly (keepView_orderly ht rfl)
  · exact packSpills_orderly ht

theorem setStock_orderly {z : Die} (h : orderly s) (hz : z.view.wf = true) : orderly (setStock s d z) := writeSpills_orderly (setDie_orderly h hz)

/-- One die's storage after an operation, where the store gives the room. -/
theorem restock_orderly {room : Nat} {y : Die} {used : List (Nat × Nat)} (h : orderly s) (hy : y.view.wf = true) :
    ∀ u ∈ (y.restock slot used room).map (setStock s d), orderly u := by
  intro u hu
  obtain ⟨z, hz, rfl⟩ := Option.mem_map.1 hu
  exact setStock_orderly h (Die.restock_view hz ▸ hy)

theorem touchFar_orderly {us : Uses} (h : orderly s) : ∀ u ∈ touchFar s d us, orderly u := by
  refine List.foldlRecOn (motive := fun o : Option State => ∀ u ∈ o, orderly u) _ _ (orderly_mem_some h) (fun o ho e _ u hu => ?_)
  obtain ⟨t, ht, hu⟩ := Option.mem_bind_iff.1 hu
  exact restock_orderly (ho t ht) (die_orderly (ho t ht)) u hu

theorem putSet_orderly {x : PSet} {anew : Bool} {us : Uses} (h : orderly s) : ∀ u ∈ putSet s d slot x anew us, orderly u := by
  have hv := (Die.touch_view { s.die d with sets := mset (s.die d).sets slot x } (usesOf us d)) ▸ die_orderly h
  intro u hu
  obtain ⟨t, ht, hu⟩ := Option.mem_bind_iff.1 hu
  refine touchFar_orderly (restock_orderly h ?_ t ht) u hu
  split <;> exact hv

theorem operandSet_orderly (h : orderly s) : ∀ u ∈ operandSet s ctx n, orderly u.1 := by
  unfold operandSet
  split
  · rintro u ⟨⟩
    exact h
  · intro u hu
    obtain ⟨p, _, rfl⟩ := Option.mem_map.1 hu
    exact h

theorem finishSet_orderly {x y : PSet} {q : SetReq} {anew : Bool} {hs : HUses} {r units : Nat} (h : orderly s) :
    (finishSet s d slot x y q anew hs r units).Orderly := by
  unfold finishSet
  dsimp only
  split
  · exact .fail h
  next e =>
    have ht := some_orderly (putSet_orderly h) e
    split
    · exact .fail h
    · split
      · exact .done ht
      · exact .later h
      · exact .fail h

theorem onSet_orderly {x : PSet} {q : SetReq} (h : orderly s) : (onSet s d slot x q).Orderly := by
  unfold onSet
  dsimp only
  split
  · exact .done (keepView_orderly h rfl)
  · split
    · exact .fail h
    · exact finishSet_orderly h
  · split
    · exact .fail h
    · exact finishSet_orderly h
  · split
    · exact .fail h
    · exact finishSet_orderly h
  · exact finishSet_orderly h
  · split
    · exact .fail h
    next e =>
      have ht := some_fst_orderly (operandSet_orderly h) e
      split
      · exact .fail ht
      · exact finishSet_orderly ht
  · exact finishSet_orderly h
  · exact finishSet_orderly h
  · exact finishSet_orderly h
  · split
    next e =>
      have ht := fst_orderly (bulkRead_orderly h) e
      split
      · split
        · exact .fail ht
        · exact finishSet_orderly ht
      · split
        · exact .fail ht
        · exact finishSet_orderly ht
    next e =>
      have ht := fst_orderly (bulkRead_orderly h) e
      split
      · exact .park ht
      · exact .fail ht
    next e => exact .fail (fst_orderly (bulkRead_orderly h) e)
    next e => exact .later (fst_orderly (bulkRead_orderly h) e)
  · split
    next e1 =>
      have ht := fst_orderly (bulkPlace_orderly h) e1
      split
      next e => exact .done (flatWrite_orderly (SetOut.orderly_done (finishSet_orderly ht) e))
      · exact finishSet_orderly ht
    next e =>
      have ht := fst_orderly (bulkPlace_orderly h) e
      split
      · exact .park ht
      · exact .fail ht
    next e1 =>
      have ht := fst_orderly (bulkPlace_orderly h) e1
      split
      next e => split <;> exact .fail (SetOut.orderly_fail (finishSet_orderly ht) e)
      · exact .fail ht
    next e => exact .later (fst_orderly (bulkPlace_orderly h) e)
  · exact finishSet_orderly h
  · exact finishSet_orderly h
  · split
    · exact .fail h
    next e13 =>
      have ht := some_fst_orderly (operandSet_orderly h) e13
      split
      · exact .fail ht
      next e14 =>
        have ht1 := some_fst_orderly (operandSet_orderly ht) e14
        split
        · exact .fail ht1
        · exact finishSet_orderly ht1

theorem countSetOp_orderly {units : Nat} (h : orderly s) : orderly (countSetOp s d slot op units) := by
  unfold countSetOp
  dsimp only
  split
  · exact keepView_orderly h rfl
  · exact h

theorem failSet_orderly {q : SetReq} {f : FailInfo} {addr : Nat} (h : orderly s) : orderly (failSet s q f addr) := by
  unfold failSet
  dsimp only
  split
  · exact setLane_orderly (settle_orderly h)
  · exact settle_orderly h

theorem doSet_orderly {q : SetReq} (h : orderly s) : orderly (doSet s d q) := by
  unfold doSet
  extract_lets others s1
  have h1 : orderly s1 := ite_orderly h (drainTo_orderly h)
  clear_value s1
  refine ite_orderly ?_ ?_
  · split
    · exact failSet_orderly h1
    next slot _ =>
      dsimp only
      split
      · exact failSet_orderly h1
      next t e =>
        have ht := some_orderly (putSet_orderly h1) e
        split
        · exact settle_orderly ht
        · exact keepView_orderly h1 rfl
        · exact failSet_orderly h1
  · split
    · exact failSet_orderly h1
    · split
      next e =>
        have ht := SetOut.orderly_done (onSet_orderly h1) e
        exact settle_orderly (ite_orderly ht (countSetOp_orderly ht))
      next e => exact failSet_orderly (SetOut.orderly_fail (onSet_orderly h1) e)
      next e =>
        have ht := SetOut.orderly_park (onSet_orderly h1) e
        exact ite_orderly ht (keepView_orderly (postFault_orderly ht) rfl)
      next e => exact keepView_orderly (SetOut.orderly_later (onSet_orderly h1) e) rfl

theorem laneSet_orderly (h : orderly s) : (laneSet op w k l s).Orderly := by
  unfold laneSet
  refine withSrcs_orderly h (fun _ _ _ _ ht => ?_)
  dsimp only
  split
  · split
    · exact .wait
    · split
      · exact .trap
      · split
        · exact goOn_orderly (addPend_orderly ht)
        · exact goOn_orderly (keepView_orderly (addPend_orderly ht) rfl)
  · split
    · exact .wait
    · split
      · exact .trap
      · split
        · exact goOn_orderly (addPend_orderly ht)
        · exact goOn_orderly (keepView_orderly (addPend_orderly ht) rfl)

/-! ### The stream instructions -/

theorem stopLanes_orderly {which code : Nat} {bpc : Option Addr} (h : orderly s) : orderly (stopLanes s ls cause which code bpc) := by
  unfold stopLanes
  refine foldl_orderly ?_ (fun _ _ ht => foldl_orderly ht (fun _ _ ht => emitRing_orderly ht))
  refine foldl_orderly h (fun _ _ ht => ?_)
  split
  · exact setLane_orderly ht
  · exact ht

theorem stopRest_orderly (h : orderly s) : orderly (stopRest s g) := ite_orderly h (stopLanes_orderly h)

theorem cmdDone_orderly {t : Ty} {o : CmdOut} (ho : o.Orderly) : (cmdDone k w t o).Orderly := by
  cases ho with
  | issued h => exact finish_orderly h
  | trap => exact .trap
  | trapWith h => exact .trapWith h
  | wait => exact .wait
  | adm h => exact .adm h

theorem laneCmd_orderly {td ta tb tc : Ty} (h : orderly s) : (laneCmd op td ta tb tc w k l s).Orderly := by
  unfold laneCmd
  refine withSrcs_orderly h (fun _ _ _ _ ht => ?_)
  split
  · exact .wait
  · exact cmdDone_orderly (cmdIssue_orderly ht)

theorem laneCpy_orderly (h : orderly s) : (laneCpy w k l s).Orderly := laneCmd_orderly h

theorem laneCpyw_orderly (h : orderly s) : (laneCpyw w k l s).Orderly := laneCmd_orderly h

theorem laneCpywClr_orderly (h : orderly s) : (laneCpywClr w k l s).Orderly := by
  unfold laneCpywClr
  split
  · exact .trap
  · exact laneCmd_orderly h

theorem laneSrd_orderly (h : orderly s) : (laneSrd w k l s).Orderly := laneCmd_orderly h

theorem laneChwp_orderly (h : orderly s) : (laneChwp w k l s).Orderly := by
  unfold laneChwp
  split
  · exact .wait
  · dsimp only
    split
    · exact .ok (setLane_orderly h)
    · exact goOn_orderly (addPend_orderly h)

theorem laneSwait_orderly (h : orderly s) : (laneSwait w k l s).Orderly := by
  unfold laneSwait
  refine withSrcs_orderly h (fun _ _ _ _ ht => ?_)
  split
  · exact .wait
  · exact finish_orderly ht

theorem laneSwaitAll_orderly (h : orderly s) : (laneSwaitAll w k l s).Orderly := by
  unfold laneSwaitAll
  split
  · exact .wait
  · exact finish_orderly (setLane_orderly h)

theorem laneIscfg_orderly (h : orderly s) : (laneIscfg w k l s).Orderly := by
  unfold laneIscfg
  refine withSrcs_orderly h (fun _ _ _ _ ht => ?_)
  split
  · exact .wait
  · split
    · exact .trap
    · split
      · exact .trap
      · split
        · exact .trap
        · exact goOn_orderly (setIstream_orderly ht)

theorem laneItdef_orderly (h : orderly s) : (laneItdef w k l s).Orderly := by
  unfold laneItdef
  refine withSrcs_orderly h (fun _ _ _ _ ht => ?_)
  split
  · exact .wait
  · split
    · exact .trap
    next e =>
      split
      · exact .trap
      · exact goOn_orderly (keepSpad_orderly ht (group_orderly ht e) rfl)
    · exact .wait

/-! ### Deliveries, failures and the ends of waits -/

theorem woke_orderly (h : orderly s) : orderly (woke s) := h

theorem deliverTstat_orderly {pid : Nat} (h : orderly s) : orderly (deliverTstat s k pid) := by
  unfold deliverTstat
  dsimp only
  split
  · split
    · exact setLane_orderly (ite_orderly (abortTries_orderly (drainTo_orderly h)) (drainTo_orderly h))
    · exact ite_orderly (abortTries_orderly (drainTo_orderly h)) (drainTo_orderly h)
  · exact ite_orderly (abortTries_orderly (drainTo_orderly h)) (drainTo_orderly h)

theorem answersAway_orderly {p : Pend} (h : orderly s) : orderly (answersAway p s k) := ite_orderly (recheckGang_orderly h) h

theorem deliver_orderly (h : orderly s) : orderly (deliver s k i) := by
  unfold deliver
  split
  · exact h
  · split
    · exact h
    · refine ite_orderly h (ite_orderly (ite_orderly (answersAway_orderly (setLane_orderly h)) h) (ite_orderly (deliverTstat_orderly h) ?_))
      dsimp only
      split
      · exact h
      · split
        · exact answersAway_orderly (setLane_orderly (ite_orderly h (drainTo_orderly h)))
        · exact ite_orderly h (drainTo_orderly h)

theorem dropRequest_orderly {pid : Nat} (h : orderly s) : orderly (dropRequest s pid) := mapDies_orderly rfl rfl (fun _ hp => hp) h

theorem failPend_orderly {f : FailInfo} (h : orderly s) : orderly (failPend s k i f) := by
  unfold failPend
  split
  · exact h
  · split
    · exact h
    · refine ite_orderly (recheckGang_orderly (faultRecord_orderly (dropRequest_orderly (setLane_orderly h)))) (ite_orderly ?_ h)
      refine recheckGang_orderly (ite_orderly ?_ ?_)
      · exact abortTries_orderly (dropRequest_orderly (setLane_orderly h))
      · exact parkSub_orderly (dropRequest_orderly (setLane_orderly h))

theorem failAway_orderly {p : Pend} {c : Cause} (h : orderly s) : orderly (failAway s k i p c) := by
  unfold failAway
  split
  · exact ite_orderly h (failPend_orderly (setLane_orderly h))
  · exact failPend_orderly h

theorem holdAway_orderly (h : orderly s) : orderly (holdAway s k i) := by
  unfold holdAway
  split
  · exact setLane_orderly h
  · exact h

theorem failWith_orderly {c : Cause} (h : orderly s) : orderly (failWith s k i c) := by
  unfold failWith
  split
  · split
    · split
      · exact ite_orderly (failPend_orderly h) h
      · exact ite_orderly h (ite_orderly (holdAway_orderly h) (failAway_orderly h))
    · exact h
  · exact h

theorem failRemote_orderly {c : Cause} (h : orderly s) : orderly (failRemote s k i c) := by
  unfold failRemote
  split
  · split
    · exact ite_orderly (failAway_orderly h) h
    · exact h
  · exact h

theorem clearWdog_orderly (h : orderly s) : orderly (clearWdog s g) := by
  unfold clearWdog
  split
  next e => exact keepSpad_orderly h (group_orderly h e) rfl
  · exact h

theorem deliverSub_orderly {p : WarpId × SubWarp} {watch : Bool} (h : orderly s) : orderly (deliverSub s g p watch) :=
  ite_orderly (clearWdog_orderly (deliverTrap_orderly h)) (deliverTrap_orderly h)

theorem execTrapDelivery_orderly (h : orderly s) : Lands (execTrapDelivery g s) := by
  unfold execTrapDelivery
  split
  · exact .next (woke_orderly (deliverSub_orderly h))
  · exact .next h

theorem watchWarp_orderly {w : WarpId} (h : orderly s) : orderly (watchWarp s w) :=
  foldl_orderly (foldl_orderly h (fun _ _ ht => leaveWait_orderly ht)) (fun _ _ ht => parkSub_orderly ht)

theorem watchdogFires_orderly (h : orderly s) : orderly (watchdogFires s g) := by
  unfold watchdogFires
  dsimp only
  split
  · exact ite_orderly h (deliverSub_orderly h)
  · split
    · refine ite_orderly ?_ ?_
      · exact foldl_orderly h (fun _ _ ht => watchWarp_orderly ht)
      · exact deliverSub_orderly (foldl_orderly h (fun _ _ ht => watchWarp_orderly ht))
    · exact foldl_orderly h (fun _ _ ht => watchWarp_orderly ht)

theorem replayWarp_orderly {w : WarpId} (h : orderly s) : orderly (replayWarp s w) := foldl_orderly h (fun _ _ ht => setLane_orderly ht)

theorem recheckFor_orderly (h : orderly s) : orderly (recheckFor s ls) := foldl_orderly h (fun _ _ ht => recheckGang_orderly ht)

theorem regrant_orderly {p : LaneId × Nat} (h : orderly s) : orderly (regrant s p) := by
  unfold regrant
  split
  · exact ite_orderly (setLane_orderly h) (releaseUnits_orderly (dropRoads_orderly h))
  · exact h

theorem grantGang_orderly (h : orderly s) : orderly (grantGang s gang) := by
  unfold grantGang
  dsimp only
  split
  · refine ite_orderly ?_ ?_
    · exact recheckGang_orderly (foldl_orderly (setGang_orderly h) (fun _ _ ht => regrant_orderly ht))
    · exact foldl_orderly (setGang_orderly h) (fun _ _ ht => regrant_orderly ht)
  · exact h

theorem grant_orderly (h : orderly s) : orderly (grant s d) := by
  unfold grant
  split
  · exact h
  · dsimp only
    split
    · exact grantGang_orderly (keepView_orderly h rfl)
    · exact release_orderly (setCore_orderly (keepView_orderly h rfl))
    · split
      · exact setLane_orderly (keepView_orderly h rfl)
      · exact keepView_orderly h rfl

theorem admTimeout_orderly {k : Nat} (h : orderly s) : orderly (admTimeout s d k) := by
  unfold admTimeout
  split
  · exact h
  · refine ite_orderly h (ite_orderly ?_ ?_)
    · dsimp only
      split
      · exact release_orderly (leaveWait_orderly h)
      · exact parkSub_orderly (release_orderly (leaveWait_orderly h))
    · split
      · exact parkSub_orderly (leaveWait_orderly h)
      · exact h

theorem mwaitTimeout_orderly (h : orderly s) : orderly (mwaitTimeout s k) := by
  unfold mwaitTimeout
  split
  · split
    · exact setLane_orderly h
    · exact h
  · exact h

theorem spuriousTrigger_orderly (h : orderly s) : orderly (spuriousTrigger s k) := by
  unfold spuriousTrigger
  split
  · split
    · exact setLane_orderly h
    · exact h
  · exact h

theorem applyFlight_orderly {k : Nat} (h : orderly s) : orderly (applyFlight s d k) := by
  unfold applyFlight
  split
  · exact ite_orderly (applyWrite_orderly h) h
  · exact h

theorem squareTry_orderly {q : SqReq} (h : orderly s) : ∀ u ∈ squareTry s d q, orderly u := by
  unfold squareTry
  dsimp only
  split
  · exact orderly_mem_none
  · exact orderly_mem_some (recheckFor_orderly (foldl_orderly (keepView_orderly h rfl) (fun _ _ ht => doSquare_orderly ht)))

theorem squareStep_orderly (h : orderly s) : orderly (squareStep s d) := by
  obtain e | ⟨q, _, _, e⟩ := squareStep_cases s d
  · rw [e]; exact h
  · exact squareTry_orderly h _ e

theorem setTry_orderly {q : SetReq} (h : orderly s) : ∀ u ∈ setTry s d q, orderly u := by
  unfold setTry
  dsimp only
  split
  · exact orderly_mem_none
  · exact orderly_mem_some (recheckFor_orderly (foldl_orderly (keepView_orderly h rfl) (fun _ _ ht => doSet_orderly ht)))

theorem setStep_orderly (h : orderly s) : orderly (setStep s d) := by
  obtain e | ⟨q, _, _, e⟩ := setStep_cases s d
  · rw [e]; exact h
  · exact setTry_orderly h _ e

theorem cqRecord_orderly (h : orderly s) : orderly (cqRecord s k) := by
  unfold cqRecord
  split
  · exact h
  · refine ite_orderly h ?_
    dsimp only
    split
    · exact parkSub_orderly (setLane_orderly h)
    · split
      next e =>
        have ht := CmdOut.orderly_issued (cmdIssue_orderly h) e
        split
        · exact setLane_orderly ht
        · exact ht
      · exact parkSub_orderly (setLane_orderly h)
      next e => exact parkSub_orderly (CmdOut.orderly_trapWith (cmdIssue_orderly h) e)
      · exact h
      · exact h

/-! ### The order of the warps -/

theorem execOverdue_orderly {w : WarpId} (h : orderly s) : Lands (execOverdue w s) := by
  unfold execOverdue
  split
  · exact .next (ite_orderly (woke_orderly (setWarp_orderly h)) h)
  · exact .next h

theorem execPathTimerExpiry_orderly {w : WarpId} (h : orderly s) : Lands (execPathTimerExpiry w s) := by
  unfold execPathTimerExpiry
  split
  · exact .next (ite_orderly (woke_orderly (timerPath_orderly h)) h)
  · exact .next h

theorem swapWarps_orderly {out into : WarpId} (h : orderly s) : orderly (swapWarps s out into) := by
  unfold swapWarps
  split
  · exact setCore_orderly (setWarp_orderly (setWarp_orderly h))
  · exact h

theorem execWarpSwapOut_orderly {out : WarpId} (h : orderly s) : Lands (execWarpSwapOut out s) := by
  unfold execWarpSwapOut
  split
  · split
    · exact .next (ite_orderly (woke_orderly (swapWarps_orderly h)) h)
    · exact .next h
  · exact .next h

theorem execActiveSetAging_orderly {w : WarpId} (h : orderly s) : Lands (execActiveSetAging w s) := by
  unfold execActiveSetAging
  split
  · split
    · exact .next (ite_orderly (woke_orderly (swapWarps_orderly h)) h)
    · exact .next h
  · exact .next h

theorem punctualWarp_orderly {w : WarpId} (h : orderly s) : orderly (punctualWarp s w) := by
  unfold punctualWarp
  split
  · exact h
  · exact ite_orderly (timerPath_orderly (ite_orderly (setWarp_orderly h) h)) (ite_orderly (setWarp_orderly h) h)

theorem displaceAll_orderly {ws : List WarpId} {olds : List (WarpId × Warp)} (h : orderly s) : orderly (displaceAll ws olds s) := by
  induction ws generalizing olds s with
  | nil => exact h
  | cons w ws ih =>
    unfold displaceAll
    split
    · exact ih (swapWarps_orderly h)
    · exact h

theorem punctual_orderly (h : orderly s) : orderly (punctual s core) :=
  foldl_orderly (foldl_orderly h (fun _ _ ht => ite_orderly (punctualWarp_orderly ht) ht)) (fun _ _ ht => displaceAll_orderly ht)

theorem fillActive_orderly {part : Nat} (h : orderly s) : orderly (fillActive s core part n) := by
  induction n generalizing s with
  | zero => exact h
  | succ n ih =>
    unfold fillActive
    refine ite_orderly h ?_
    extract_lets low
    clear_value low
    split
    · split
      · exact ih (setWarp_orderly h)
      · exact h
    · exact h

/-! ### Arithmetic -/

theorem laneAlu_orderly {ty : IWord → Tys} {f : IWord → Lane → Nat → Nat → Nat → Res} (h : orderly s) : (laneAlu ty f w k l s).Orderly := by
  unfold laneAlu
  split
  · exact .trap
  · exact withSrcs_orderly h (fun _ _ _ _ ht => finish_orderly ht)

theorem laneDiv_orderly {f : Ty → Nat → Nat → Res} (h : orderly s) : (laneDiv f w k l s).Orderly := by
  unfold laneDiv
  split
  · exact .trap
  · refine withSrcs_orderly h (fun _ _ _ _ ht => ?_)
    dsimp only
    split
    · exact finish_orderly ht
    · split
      · exact finish_orderly ht
      · split
        · exact .trapWith ht
        · exact finish_orderly ht

theorem laneAmxrec_orderly (h : orderly s) : (laneAmxrec w k l s).Orderly := by
  unfold laneAmxrec
  split
  · exact .trap
  · refine withSrcs_orderly h (fun _ _ _ _ ht => ?_)
    split
    · exact .trapWith ht
    · exact finish_orderly (setCore_orderly ht)

theorem laneAmxget_orderly (h : orderly s) : (laneAmxget w k l s).Orderly := by
  unfold laneAmxget
  split
  · exact .trap
  · refine withSrcs_orderly h (fun _ _ _ _ ht => ?_)
    split
    · exact .trapWith ht
    · exact finish_orderly ht

theorem laneBexp_orderly (h : orderly s) : (laneBexp w k l s).Orderly := by
  unfold laneBexp
  split
  · exact .trap
  · split
    · dsimp only
      split
      · split
        · exact .trap
        · exact .wait
      · exact finish_orderly h
    · exact .trap

/-! ### The matrix engine -/

theorem setMx_orderly {m : Matrix} (h : orderly s) : orderly (setMx s core m) := setCore_orderly h

theorem mxError_orderly {c : Cause} {index : Nat} (h : orderly s) : orderly (mxError s core c index) := emit_orderly (setMx_orderly h)

theorem fillPends_orderly {c : MCmd} {v : LaneId → List Word} (h : orderly s) : orderly (fillPends s core c v) := by
  unfold fillPends
  refine foldl_orderly h (fun _ _ ht => ?_)
  split
  · exact setLane_orderly ht
  · exact ht

theorem orphaned_orderly {c : MCmd} (h : orderly s) : orderly (orphaned s core c) := by
  unfold orphaned
  split
  · exact ite_orderly (matrixOrphan_orderly h) h
  · exact h

theorem mxDone_orderly {c : MCmd} {v : LaneId → List Word} (h : orderly s) : orderly (mxDone s core c v) :=
  orphaned_orderly (setMx_orderly (fillPends_orderly (dropRoads_orderly h)))

theorem mxRow_orderly {c : MCmd} (h : orderly s) : orderly (mxRow s core c) := ite_orderly (mxDone_orderly h) (orphaned_orderly (setMx_orderly h))

theorem mxLoad_orderly {c : MCmd} (h : orderly s) : orderly (mxLoad s core c) := by
  unfold mxLoad
  dsimp only
  split
  · exact mxDone_orderly h
  · refine ite_orderly (mxDone_orderly (setMx_orderly h)) ?_
    split
    next e =>
      have ht := fst_orderly (bulkRead_orderly h) e
      exact ite_orderly (mxDone_orderly (setMx_orderly (mxError_orderly ht))) (mxDone_orderly (setMx_orderly ht))
    next e =>
      have ht := fst_orderly (bulkRead_orderly h) e
      exact ite_orderly (setMx_orderly (postFault_orderly ht)) (mxDone_orderly (setMx_orderly (mxError_orderly ht)))
    next e => exact mxDone_orderly (setMx_orderly (mxError_orderly (fst_orderly (bulkRead_orderly h) e)))
    next e => exact fst_orderly (bulkRead_orderly h) e

theorem mxStream_orderly {c : MCmd} (h : orderly s) : orderly (mxStream s core c) := by
  unfold mxStream
  dsimp only
  split
  · refine ite_orderly (mxDone_orderly h) (ite_orderly ?_ (mxRow_orderly (setMx_orderly h)))
    exact ite_orderly (setMx_orderly h) (mxRow_orderly (setMx_orderly (setMx_orderly h)))
  · exact mxDone_orderly h

theorem mxDrain_orderly {c : MCmd} (h : orderly s) : orderly (mxDrain s core c) := by
  unfold mxDrain
  dsimp only
  split
  · exact mxDone_orderly (setMx_orderly h)
  · refine ite_orderly (mxDone_orderly h) (ite_orderly ?_ (mxRow_orderly (spadWrite_orderly (setMx_orderly h))))
    exact ite_orderly (ite_orderly (mxRow_orderly (setMx_orderly h)) h) (mxRow_orderly (setMx_orderly (setMx_orderly h)))

theorem mxCommand_orderly (h : orderly s) : orderly (mxCommand s core) := by
  unfold mxCommand
  dsimp only
  split
  · exact h
  · refine ite_orderly h (ite_orderly (mxDone_orderly h) ?_)
    split
    · exact mxLoad_orderly h
    · exact mxStream_orderly h
    · exact mxStream_orderly h
    · exact mxDrain_orderly h
    · exact mxDone_orderly (setMx_orderly h)
    · exact ite_orderly (mxDone_orderly h) (mxRow_orderly (setMx_orderly h))
    · exact ite_orderly (mxDone_orderly h) (mxRow_orderly (spadWrite_orderly h))
    · exact mxDone_orderly h
    · exact mxDone_orderly h

theorem mxPerform_orderly {f : Nat → List LaneId → LaneId → Lane → State → MxOut} {v : WarpId} {parts : List LaneId} (hf : ∀ c on k l t, orderly t
    → (f c on k l t).Orderly) (h : orderly s) : orderly (mxPerform w f v parts s) := by
  unfold mxPerform
  extract_lets on goAll
  have hg : ∀ t ls, orderly t → orderly (goAll t ls) := by
    refine fun t ls ht => foldl_orderly (unpark_orderly ht) (fun _ _ hu => ?_)
    split
    · exact setLane_orderly hu
    · exact hu
  clear_value on goAll
  split
  · exact hg _ _ h
  · split
    · exact h
    · split
      next e => exact hg _ _ (MxOut.orderly_done (hf _ _ _ _ _ h) e)
      next e => exact MxOut.orderly_parked (hf _ _ _ _ _ h) e
      · exact formTraps_orderly (hg _ _ h)
      · exact h

theorem matrixColl_orderly {f : IWord → Nat → List LaneId → LaneId → Lane → State → MxOut} (hf : ∀ w c on k l t, orderly t → (f w c on k l
    t).Orderly) (h : orderly s) : orderly (matrixColl e f w s) :=
  collective_orderly (fun _ _ _ ht => mxPerform_orderly (fun _ _ _ _ _ ht => hf _ _ _ _ _ _ ht) ht) h

theorem mxSrcs_orderly {ta tb tc : Ty} {f : Nat → Nat → Nat → MxOut} (hf : ∀ a b c, (f a b c).Orderly) :
    (mxSrcs s k l w ta tb tc f).Orderly := by
  unfold mxSrcs
  split
  · exact .trap
  · exact .wait
  · exact .trap
  · exact .wait
  · exact .trap
  · exact .wait
  · exact hf _ _ _

theorem mxOwned_orderly {needsCfg : Bool} {f : Matrix → MxOut} (hf : ∀ m, (f m).Orderly) : (mxOwned s core k needsCfg f).Orderly := by
  unfold mxOwned
  dsimp only
  split
  · exact .trap
  · split
    · exact .trap
    · exact hf _

theorem mxQueue_orderly {ty : Ty} {a b c : Nat} {rs : List Range} {dst : List Nat} (h : orderly s) :
    (mxQueue s core on k w op ty a b c rs dst).Orderly := by
  unfold mxQueue
  refine ite_mxOrderly .wait ?_
  dsimp only
  refine .done (setMx_orderly ?_)
  split
  · exact addRoads_orderly h
  · exact foldl_fst_orderly (addRoads_orderly h) (fun _ _ ht => addPend_orderly ht)

theorem mxMacq_orderly (h : orderly s) : (mxMacq w core on k l s).Orderly := by
  unfold mxMacq
  dsimp only
  split
  · exact .done h
  · refine .parked (matrixPass_orderly (setMx_orderly ?_))
    refine foldl_orderly h (fun _ _ ht => ?_)
    split
    · exact setLane_orderly ht
    · exact ht

theorem mxMrel_orderly (h : orderly s) : (mxMrel w core on k l s).Orderly := by
  unfold mxMrel
  refine mxOwned_orderly (fun _ => ?_)
  split
  · exact .wait
  · refine .done (matrixRelease_orderly ?_)
    split
    · exact setLane_orderly h
    · exact h

theorem mxMcfg_orderly (h : orderly s) : (mxMcfg w core on k l s).Orderly := by
  unfold mxMcfg
  refine mxOwned_orderly (fun _ => (mxSrcs_orderly (fun _ _ _ => ?_)))
  split
  · exact .trap
  · split
    · exact .trap
    · split
      · exact .wait
      · split
        · exact .trap
        · exact .done (setMx_orderly h)

theorem mxMwld_orderly (h : orderly s) : (mxMwld w core on k l s).Orderly := by
  unfold mxMwld
  refine mxOwned_orderly (fun _ => (mxSrcs_orderly (fun _ _ _ => ?_)))
  dsimp only
  split
  · exact .trap
  · exact .trap
  · split
    · exact .trap
    · exact mxQueue_orderly h

theorem mxMstr_orderly (h : orderly s) : (mxMstr op w core on k l s).Orderly := by
  unfold mxMstr
  refine mxOwned_orderly (fun _ => (mxSrcs_orderly (fun _ _ _ => ?_)))
  dsimp only
  split
  · exact .trap
  · split
    · exact .trap
    · split
      · exact .trap
      · split
        · split
          · exact .trap
          · exact mxQueue_orderly h
        · split
          · exact .trap
          · exact mxQueue_orderly h

theorem mxMdrn_orderly (h : orderly s) : (mxMdrn w core on k l s).Orderly := by
  unfold mxMdrn
  refine mxOwned_orderly (fun _ => (mxSrcs_orderly (fun _ _ _ => ?_)))
  dsimp only
  split
  · exact .trap
  · split
    · split
      · split
        · exact .trap
        · exact mxQueue_orderly h
      · split
        · exact .trap
        · exact mxQueue_orderly h
    · split
      · split
        · exact .trap
        · exact mxQueue_orderly h
      · split
        · exact .trap
        · exact mxQueue_orderly h

theorem mxMzer_orderly (h : orderly s) : (mxMzer w core on k l s).Orderly := by
  unfold mxMzer
  refine mxOwned_orderly (fun _ => ?_)
  split
  · exact .trap
  · exact mxQueue_orderly h

theorem mxMove_orderly (h : orderly s) : (mxMove op w core on k l s).Orderly := by
  unfold mxMove
  refine mxOwned_orderly (fun _ => (mxSrcs_orderly (fun _ _ _ => ?_)))
  split
  · exact .trap
  · split
    · exact .trap
    · split
      · exact .trap
      · exact mxQueue_orderly h

theorem mxMcnt_orderly (h : orderly s) : (mxMcnt w core on k l s).Orderly := by
  unfold mxMcnt
  refine mxOwned_orderly (fun _ => ?_)
  split
  · exact .trap
  · exact mxQueue_orderly h

theorem mxMsync_orderly (h : orderly s) : (mxMsync w core on k l s).Orderly := by
  unfold mxMsync
  refine mxOwned_orderly (fun _ => ?_)
  split
  · split
    · exact .done (setMx_orderly h)
    · exact .wait
  · exact mxQueue_orderly h

theorem mxMstat_orderly (h : orderly s) : (mxMstat w core on k l s).Orderly := by
  unfold mxMstat
  refine mxOwned_orderly (fun _ => ?_)
  dsimp only
  split
  · exact .wait
  · exact .done (foldl_orderly h (fun _ _ ht => addPend_orderly ht))

/-! ### The registers of the module -/

theorem regStore_orderly {r : MReg} (h : orderly s) : orderly (regStore s r v) := ite_orderly h (ite_orderly h (ite_orderly h (setMreg_orderly h)))

theorem noteHalf_orderly {r : MReg} {v : BitVec 64} (h : orderly s) : orderly (noteHalf r v s) := ite_orderly h h

theorem clearBindings_orderly (h : orderly s) : orderly (clearBindings s) := foldl_orderly h (fun _ _ ht => setMreg_orderly ht)

theorem killsDone_orderly (h : orderly s) : orderly (killsDone s) := foldl_orderly h (fun _ _ ht => setMreg_orderly ht)

theorem engrstDone_orderly {v : BitVec 64} (h : orderly s) : orderly (engrstDone s v st) := setMreg_orderly h

theorem resetRecord_orderly {die unit : Nat} (h : orderly s) : orderly (resetRecord s die unit) := emit_orderly h

theorem writeReg_orderly {r : MReg} {v : BitVec 64} (h : orderly s) : orderly (writeReg s r v) := by
  unfold writeReg
  split
  · exact ite_orderly (ite_orderly (engrstDone_orderly h) h) (setMreg_orderly h)
  · exact h
  · exact fbFlush_orderly (regStore_orderly h)
  · exact fbFlush_orderly (regStore_orderly h)
  · exact fbFlush_orderly (regStore_orderly h)
  · exact regStore_orderly h
  · exact regStore_orderly h
  · exact ite_orderly h (regStore_orderly h)

/-! ### The stream engine -/

theorem engRead_orderly {va : Nat} (h : orderly s) : orderly (engRead s core c va n).1 := by
  unfold engRead
  split
  · exact h
  · split
    next e => exact fst_orderly (bulkRead_orderly h) e
    next e => exact fst_orderly (bulkRead_orderly h) e

theorem engPlace_orderly {va : Nat} (h : orderly s) : orderly (engPlace s core c va n).1 := by
  unfold engPlace
  split
  · exact h
  · split
    next e => exact fst_orderly (bulkPlace_orderly h) e
    next e => exact fst_orderly (bulkPlace_orderly h) e

theorem putCmd_orderly (h : orderly s) : orderly (putCmd s core c) := setCmd_orderly h

theorem skipLater_orderly (h : orderly s) : orderly (skipLater s core c) := setCore_orderly h

theorem failCmd_orderly {what level : Nat} {mal : Bool} {attempts va : Nat} (h : orderly s) :
    orderly (failCmd s core c cause what level mal attempts va) :=
  ite_orderly (skipLater_orderly (setChan_orderly (streamFault_orderly (putCmd_orderly h)))) (streamFault_orderly (putCmd_orderly h))

theorem meets_orderly {what : Nat} {m : Met} (h : orderly s) : orderly (meets s core c what m) := by
  unfold meets
  split
  · exact putCmd_orderly (postFault_orderly h)
  · exact failCmd_orderly h
  · exact h

theorem chunkRead_orderly {o : Nat} (h : orderly s) : orderly (chunkRead s core c o n).1 := by
  unfold chunkRead
  split
  · split <;> exact h
  · exact engRead_orderly h

theorem chunkWrite_orderly {o : Nat} (h : orderly s) : orderly (chunkWrite s core c o bs).1 := by
  unfold chunkWrite
  split
  · split
    · exact spadWrite_orderly h
    · exact h
  · split
    next e => exact writePieces_orderly (fst_orderly (engPlace_orderly h) e)
    next e => exact fst_orderly (engPlace_orderly h) e

theorem elemRead_orderly {r : IterRec} (h : orderly s) : orderly (elemRead s core c r i).1 := by
  unfold elemRead
  split
  · exact h
  · split
    next e => exact fst_orderly (engRead_orderly h) e
    next e => exact fst_orderly (engRead_orderly h) e

theorem elemsRead_orderly {r : IterRec} {is : List Nat} (h : orderly s) : orderly (elemsRead core c r is s).1 := by
  induction is generalizing s with
  | nil => exact h
  | cons i is ih =>
    unfold elemsRead
    split
    next e =>
      have ht := ih (fst_orderly (elemRead_orderly h) e)
      split
      next e => exact fst_orderly ht e
      · exact ht
    next e => exact fst_orderly (elemRead_orderly h) e

theorem elemWrite_orderly {r : IterRec} (h : orderly s) : orderly (elemWrite s core c r i v).1 := by
  unfold elemWrite
  dsimp only
  split
  · exact spadWrite_orderly h
  · split
    next e => exact writePieces_orderly (fst_orderly (engPlace_orderly h) e)
    next e => exact fst_orderly (engPlace_orderly h) e

theorem elemsPlace_orderly {r : IterRec} {is : List Nat} (h : orderly s) : orderly (elemsPlace core c r is s).1 := by
  induction is generalizing s with
  | nil => exact h
  | cons i is ih =>
    unfold elemsPlace
    split
    · exact h
    · split
      next e => exact ih (fst_orderly (engPlace_orderly h) e)
      next e => exact fst_orderly (engPlace_orderly h) e

theorem chunkDone_orderly (h : orderly s) : orderly (chunkDone s core c i) :=
  ite_orderly (keepView_orderly (setChan_orderly (putCmd_orderly h)) rfl) (putCmd_orderly h)

theorem chunkMeets_orderly {what : Nat} {m : Met} (h : orderly s) : orderly (chunkMeets s core c i what m) := ite_orderly (meets_orderly h) h

theorem doChunk_orderly (h : orderly s) : orderly (doChunk s core c i) := by
  unfold doChunk
  refine ite_orderly ?_ ?_
  · split
    · dsimp only
      split
      next e => exact chunkMeets_orderly (fst_orderly (elemsRead_orderly h) e)
      next e1 =>
        have ht := fst_orderly (elemsRead_orderly h) e1
        split
        next e => exact chunkMeets_orderly (fst_orderly (elemsPlace_orderly ht) e)
        next e =>
          have ht1 := fst_orderly (elemsPlace_orderly ht) e
          exact chunkDone_orderly (foldl_orderly ht1 (fun _ _ ht => elemWrite_orderly ht))
    · exact h
  · split
    next e => exact chunkMeets_orderly (fst_orderly (chunkRead_orderly h) e)
    next e =>
      have ht := fst_orderly (chunkRead_orderly h) e
      split
      next e => exact chunkMeets_orderly (fst_orderly (chunkWrite_orderly ht) e)
      next e => exact chunkDone_orderly (fst_orderly (chunkWrite_orderly ht) e)

theorem sweepRead_orderly {ps : List (IterRec × List Nat)} (h : orderly s) : orderly (sweepRead core c ps s).1 := by
  induction ps generalizing s with
  | nil => exact h
  | cons p ps ih =>
    unfold sweepRead
    split
    next e =>
      have ht := ih (fst_orderly (elemsRead_orderly h) e)
      split
      next e => exact fst_orderly ht e
      · exact ht
    next e => exact fst_orderly (elemsRead_orderly h) e

theorem retire_orderly (h : orderly s) : orderly (retire s core c) := by
  unfold retire
  split
  · split
    next e => exact meets_orderly (fst_orderly (sweepRead_orderly h) e)
    next e1 =>
      have ht := fst_orderly (sweepRead_orderly h) e1
      dsimp only
      split
      next e => exact meets_orderly (fst_orderly (elemWrite_orderly ht) e)
      next e => exact putCmd_orderly (fst_orderly (elemWrite_orderly ht) e)
  · exact h

theorem execSweepRetire_orderly (h : orderly s) : Lands (execSweepRetire core ticket s) := by
  unfold execSweepRetire
  split
  · exact .next (woke_orderly (retire_orderly h))
  · exact .next h

theorem isIndex_orderly {x : IsCfg} (h : orderly s) : orderly (isIndex s core c x i).1 := by
  unfold isIndex
  dsimp only
  split
  · split <;> exact h
  · split
    next e => exact fst_orderly (engRead_orderly h) e
    next e => exact fst_orderly (engRead_orderly h) e

theorem isElem_orderly {x : IsCfg} {idx : Nat} (h : orderly s) : orderly (isElem s core c x idx).1 := by
  unfold isElem
  dsimp only
  split
  · split
    · exact h
    · split
      · exact h
      · split
        next e => exact fst_orderly (engRead_orderly h) e
        next e => exact fst_orderly (engRead_orderly h) e
  · split
    · exact h
    · split
      · exact h
      · split
        next e => exact fst_orderly (engRead_orderly h) e
        next e => exact fst_orderly (engRead_orderly h) e

theorem isPush_orderly {x : IsCfg} (h : orderly s) : orderly (isPush s core c x) := by
  unfold isPush
  refine ite_orderly (putCmd_orderly h) ?_
  split
  next e => exact meets_orderly (fst_orderly (isIndex_orderly h) e)
  next e =>
    have ht := fst_orderly (isIndex_orderly h) e
    split
    next e => exact meets_orderly (fst_orderly (isElem_orderly ht) e)
    next e => exact putCmd_orderly (queuePush_orderly (fst_orderly (isElem_orderly ht) e))

theorem execIndirectStreamPush_orderly (h : orderly s) : Lands (execIndirectStreamPush core ticket s) := by
  unfold execIndirectStreamPush
  split
  · exact .next (woke_orderly (isPush_orderly h))
  · exact .next h

theorem setNvme_orderly {b : Nat × Nat} {q : Nvme} (h : orderly s) : orderly (setNvme s b q) := h

theorem nvmeSubmit_orderly (h : orderly s) : orderly (nvmeSubmit s core c) := by
  unfold nvmeSubmit
  refine ite_orderly h ?_
  split
  · exact h
  · exact setNvme_orderly (putCmd_orderly (ioWrite_orderly (ioWrite_orderly (ite_orderly h (ioWrite_orderly h)))))

theorem ioCycle_orderly (h : orderly s) : orderly (ioCycle s) := by
  unfold ioCycle
  refine foldl_orderly h (fun _ _ ht => ?_)
  split
  · exact nvmeSubmit_orderly ht
  · exact ht

theorem srdFails_orderly {k : NvmeCmd} (h : orderly s) : orderly (srdFails s core c k) := failCmd_orderly h

theorem nvmeTake_orderly {b : Nat × Nat} {cid : BitVec 16} (h : orderly s) : orderly (nvmeTake s b cid) := by
  unfold nvmeTake
  dsimp only
  split
  · exact h
  · refine ite_orderly h ?_
    split
    · exact setNvme_orderly (ioWrite_orderly h)
    · split
      · exact setNvme_orderly (ioWrite_orderly h)
      · exact ite_orderly (setNvme_orderly (ioWrite_orderly h)) (srdFails_orderly (setNvme_orderly (ioWrite_orderly h)))

theorem execNvmeTimeout_orderly (h : orderly s) : Lands (execNvmeTimeout core ticket s) := by
  unfold execNvmeTimeout
  dsimp only
  split
  · exact .next (woke_orderly (srdFails_orderly h))
  · exact .next h

theorem srdMoved_orderly {k : NvmeCmd} (h : orderly s) : orderly (srdMoved s core c k i) :=
  ite_orderly (setNvme_orderly h) (ite_orderly (putCmd_orderly (setNvme_orderly h)) (setNvme_orderly h))

theorem doSrdChunk_orderly {k : NvmeCmd} (h : orderly s) : orderly (doSrdChunk s core c k i) := by
  unfold doSrdChunk
  dsimp only
  split
  · exact h
  · exact failCmd_orderly h
  · split
    next e => exact meets_orderly (fst_orderly (chunkWrite_orderly h) e)
    next e => exact srdMoved_orderly (fst_orderly (chunkWrite_orderly h) e)

theorem execCopyChunk_orderly {chunk : Nat} (h : orderly s) : Lands (execCopyChunk core ticket chunk s) := by
  unfold execCopyChunk
  split
  · exact .next (woke_orderly (doChunk_orderly h))
  · split
    · exact .next (woke_orderly (doSrdChunk_orderly h))
    · exact .next h

theorem tickEngines_orderly (h : orderly s) : orderly (tickEngines s core) := ite_orderly h (setCore_orderly h)

theorem completes_orderly (h : orderly s) : orderly (completes s core c) :=
  clearBindings_orderly (completeCmd_orderly (ite_orderly (failCmd_orderly h) h))

theorem execStreamCompletion_orderly (h : orderly s) : Lands (execStreamCompletion core ticket s) := by
  unfold execStreamCompletion
  split
  · exact .next (woke_orderly (completes_orderly h))
  · exact .next h

theorem cdMove_orderly (h : orderly s) : orderly (cdMove s core) := by
  unfold cdMove
  dsimp only
  split
  · exact h
  · split
    · exact setWarp_orderly (setCore_orderly h)
    · exact setCore_orderly h

theorem resetStream_orderly (h : orderly s) : orderly (resetStream s core) :=
  foldl_orderly (foldl_orderly h (fun _ _ ht => setChan_orderly ht)) (fun _ _ ht => failCmd_orderly ht)

theorem resetMatrix_orderly (h : orderly s) : orderly (resetMatrix s core) := mxError_orderly (setMx_orderly h)

theorem resetSquare_orderly (h : orderly s) : orderly (resetSquare s d) := by
  unfold resetSquare
  exact recheckFor_orderly (foldl_orderly (foldl_orderly (keepView_orderly h rfl) (fun _ _ ht => settle_orderly ht)) (fun _ _ ht1 =>
      failSet_orderly ht1))

theorem execEngineResetSquare_orderly {die : Nat} (h : orderly s) : Lands (execEngineResetSquare die s) :=
  .next (woke_orderly (ite_orderly (resetRecord_orderly (engrstDone_orderly (resetSquare_orderly h))) (resetSquare_orderly h)))

/-! ### Launch -/

theorem setLq_orderly {x : LQueue} (h : orderly s) : orderly (setLq s q x) := h

theorem launchRead_orderly {va : Nat} (h : orderly s) : orderly (launchRead s q va n).1 := by
  unfold launchRead
  split
  · exact h
  · split
    next e => exact fst_orderly (vread_orderly h) e
    next e => exact fst_orderly (vread_orderly h) e

theorem lqPark_orderly {f : FbInfo} (h : orderly s) : orderly (lqPark s q f) := setLq_orderly (postFault_orderly h)

theorem lqFail_orderly {c : Cause} (h : orderly s) : orderly (lqFail s q c) := emit_orderly (setLq_orderly (setMreg_orderly h))

theorem lqMeets_orderly {l : LMet} (h : orderly s) : orderly (lqMeets s q l) := by
  unfold lqMeets
  split
  · exact lqPark_orderly h
  · exact lqFail_orderly h
  · exact h

theorem advanceHead_orderly {after : State → State} (h : orderly s) (hafter : ∀ t, orderly t → orderly (after t)) :
    orderly (advanceHead s q after) := by
  unfold advanceHead
  dsimp only
  split
  next e => exact hafter _ (setLq_orderly (flatWrite_orderly (fst_orderly (vplace_orderly h) e)))
  next e => exact lqMeets_orderly (fst_orderly (vplace_orderly h) e)

theorem addGrid_orderly {g : Grid} (h : orderly s) : orderly (addGrid s g) := h

theorem finishRec_orderly {c : Cause} {ofs : Nat} (h : orderly s) : orderly (finishRec q bs st c ofs s) := finishGrid_orderly (addGrid_orderly h)

theorem endRecord_orderly {c : Cause} {ofs : Nat} (h : orderly s) : orderly (endRecord s q bs st c ofs) :=
  advanceHead_orderly (setLq_orderly (finishRec_orderly h)) (fun _ ht => ht)

theorem makeReady_orderly {head age : Nat} (h : orderly s) : orderly (makeReady q head age bs s) :=
  ite_orderly (finishGrid_orderly (addGrid_orderly (emit_orderly h))) (addGrid_orderly (emit_orderly h))

theorem takeRecord_orderly (h : orderly s) : orderly (takeRecord s q) := by
  unfold takeRecord
  dsimp only
  split
  next e => exact lqMeets_orderly (fst_orderly (launchRead_orderly h) e)
  next e =>
    have ht := fst_orderly (launchRead_orderly h) e
    split
    next e => exact lqMeets_orderly (fst_orderly (launchRead_orderly ht) e)
    next e1 =>
      have ht1 := fst_orderly (launchRead_orderly ht) e1
      refine ite_orderly (setLq_orderly ht1) ?_
      split
      next e => exact lqMeets_orderly (fst_orderly (launchRead_orderly ht1) e)
      next e =>
        have ht2 := fst_orderly (launchRead_orderly ht1) e
        split
        · exact endRecord_orderly (setLq_orderly ht2)
        · exact setLq_orderly ht2

theorem execLaunchRecord_orderly (h : orderly s) : Lands (execLaunchRecord q s) := by
  unfold execLaunchRecord
  dsimp only
  split
  · exact .next h
  · split
    · exact .next (woke_orderly (takeRecord_orderly h))
    · exact .next (ite_orderly (woke_orderly (advanceHead_orderly h (fun _ ht => ht))) h)

theorem depsOf_orderly {is : List Nat} (h : orderly s) : orderly (depsOf q bs is s).1 := by
  induction is generalizing s with
  | nil => exact h
  | cons i is ih =>
    unfold depsOf
    dsimp only
    split
    · exact ih h
    · split
      next e => exact fst_orderly (launchRead_orderly h) e
      next e => exact fst_orderly (launchRead_orderly h) e
      next e => exact fst_orderly (launchRead_orderly h) e
      next e =>
        have ht := fst_orderly (launchRead_orderly h) e
        split
        · exact ht
        · split
          · exact ih ht
          · exact ht

theorem tryReady_orderly (h : orderly s) : orderly (tryReady s q bs) := by
  unfold tryReady
  dsimp only
  split
  · exact advanceHead_orderly (setLq_orderly (depsOf_orderly h)) (fun _ ht => makeReady_orderly ht)
  · exact setLq_orderly (depsOf_orderly h)
  · exact endRecord_orderly (setLq_orderly (depsOf_orderly h))
  · exact endRecord_orderly (setLq_orderly (depsOf_orderly h))
  · exact lqPark_orderly (setLq_orderly (depsOf_orderly h))

theorem execGridReady_orderly (h : orderly s) : Lands (execGridReady q s) := by
  unfold execGridReady
  dsimp only
  split
  · exact .next (ite_orderly (woke_orderly (tryReady_orderly h)) h)
  · exact .next h

/-! ### Gangs: placement, saving, return -/

theorem fillClose_orderly (h : orderly s) : orderly (fillClose s close) :=
  foldl_orderly h (fun _ _ ht => foldl_orderly ht (fun _ _ ht => fillActive_orderly ht))

theorem dropCode_orderly (h : orderly s) : orderly (dropCode s close ctx) := foldl_orderly h (fun _ _ ht => setCore_orderly ht)

theorem placeGroup_orderly {g : Grid} {b : Nat} {priv : List Nat} (h : orderly s) : orderly (placeGroup s gang g i core b priv) :=
  orderly_of_eq (s := s.setGroup ⟨gang, i⟩ (Group.placed core (freeGslot s core) g.warps g.regs g.scratch g.idem g.expect)) rfl rfl
    (setGroup_orderly h mem_nil_wf)

theorem placeNew_orderly {index : Nat} {g : Grid} (h : orderly s) : orderly (placeNew s gang gk index g close plan) := by
  unfold placeNew
  extract_lets priv n s1 s2
  have h1 : orderly s1 := dropCode_orderly (drainTo_orderly h)
  have h2 : orderly s2 := orderly_of_eq (s := s1) rfl rfl h1
  exact fillClose_orderly (foldl_orderly h2 (fun _ _ ht => placeGroup_orderly ht))

theorem checkImage_orderly {index image : Nat} (h : orderly s) : orderly (checkImage s d ctx index off len image).1 := by
  unfold checkImage
  dsimp only
  split
  next e => exact fst_orderly (bulkRead_orderly h) e
  next e => exact fst_orderly (bulkRead_orderly h) e
  next e => exact fst_orderly (bulkRead_orderly h) e
  next e => exact fst_orderly (bulkRead_orderly h) e

theorem moveWork_orderly (h : orderly s) : orderly (moveWork s x gang plan) := by
  unfold moveWork
  exact foldl_orderly (foldl_orderly (foldl_orderly h (fun _ _ ht => setCore_orderly ht)) (fun _ _ ht => setCore_orderly ht)) (fun _ _ ht2 =>
      setCore_orderly ht2)

theorem restoreEngine_orderly {p : Nat × Matrix} (h : orderly s) : orderly (restoreEngine s ctx plan p) := setCore_orderly h

theorem rejoin_orderly (h : orderly s) : orderly (rejoin s gang) := foldl_orderly h (fun _ _ ht => matrixPass_orderly (setCore_orderly ht))

theorem restoreGang_orderly (h : orderly s) : orderly (restoreGang s gang x ctx close plan) := by
  unfold restoreGang
  extract_lets d units roads s1 s2 ask waits y s3 s4 s5 s6 s7 s8 s9 s10
  have h2 : orderly s2 := dropCode_orderly (drainTo_orderly (moveWork_orderly h))
  have h3 : orderly s3 := keepView_orderly h2 rfl
  have h4 : orderly s4 := by
    refine ⟨fun p hp => ?_, fun p hp => ?_⟩
    · obtain ⟨q, hq, rfl⟩ := List.mem_map.1 hp
      exact h3.1 q hq
    · obtain ⟨q, hq, rfl⟩ := List.mem_map.1 hp
      dsimp only
      split <;> exact h3.2 q hq
  have h6 : orderly s6 := orderly_of_eq (s := s4) rfl rfl h4
  have h7 : orderly s7 := by
    refine foldl_orderly h6 (fun t p ht => ?_)
    split
    · exact ht
    next e => exact keepSpad_orderly (orderly_of_eq (s := t) rfl rfl ht) (group_orderly ht e) rfl
  have h8 : orderly s8 := foldl_orderly h7 (fun _ _ ht => restoreEngine_orderly ht)
  have h9 : orderly s9 := orderly_of_eq (s := s8) rfl rfl h8
  have h10 : orderly s10 := fillClose_orderly (rejoin_orderly h9)
  exact ite_orderly (recheckGang_orderly h10) h10

theorem tryRestore_orderly {g : Grid} {image : Nat} (h : orderly s) : orderly (tryRestore s gang x g close off len image plan) := by
  unfold tryRestore
  refine ite_orderly h ?_
  split
  next e => exact restoreGang_orderly (fst_orderly (checkImage_orderly h) e)
  next e => exact endGrid_orderly (fst_orderly (checkImage_orderly h) e)
  next e => exact fst_orderly (checkImage_orderly h) e

theorem placeGang_orderly {name : Nat} (h : orderly s) : orderly (placeGang s name close) := by
  unfold placeGang
  split
  · exact h
  · split
    · exact h
    · refine ite_orderly h ?_
      split
      · split
        · exact tryRestore_orderly h
        · exact placeNew_orderly h
      · exact placeNew_orderly h

theorem endTries_orderly (h : orderly s) : orderly (endTries s gang) := abortTries_orderly h

theorem toSaving_orderly (h : orderly s) : orderly (toSaving s gang) := by
  unfold toSaving
  dsimp only
  split
  · exact setGang_orderly (endTries_orderly h)
  · exact endTries_orderly h

theorem flushGang_orderly (h : orderly s) : orderly (flushGang s gang x) := by
  unfold flushGang
  extract_lets n s1 s2 s3 s4
  have h3 : orderly s3 := orderly_of_eq (s := s1) rfl rfl (killGang_orderly h)
  have h4 : orderly s4 := by
    dsimp only [s4]
    clear_value s3
    split
    · exact ite_orderly h3 (setGrid_orderly h3)
    · exact h3
  exact fillClose_orderly h4

theorem preemptGang_orderly {byCtxop : Bool} {forGang : Option Nat} (h : orderly s) : orderly (preemptGang s gang byCtxop forGang) := by
  unfold preemptGang
  split
  · exact h
  · dsimp only
    split
    · exact flushGang_orderly (endTries_orderly (setGang_orderly h))
    · exact setGang_orderly (endTries_orderly (setGang_orderly h))
    · exact toSaving_orderly (endTries_orderly (setGang_orderly h))

theorem nextPreempt_orderly (h : orderly s) : orderly (nextPreempt s close n) := by
  induction n generalizing s with
  | zero => exact h
  | succ n ih =>
    unfold nextPreempt
    refine ite_orderly h ?_
    split
    · exact ih (preemptGang_orderly h)
    · exact h

theorem leftClose_orderly (h : orderly s) : orderly (leftClose s close) := nextPreempt_orderly (fillClose_orderly h)

theorem execGangRetire_orderly (h : orderly s) : Lands (execGangRetire gang s) := by
  unfold execGangRetire
  split
  · refine .next (ite_orderly ?_ h)
    refine woke_orderly (leftClose_orderly ?_)
    split
    · exact finishGrid_orderly (setGrid_orderly (removeGang_orderly h))
    · exact removeGang_orderly h
  · exact .next h

theorem execDrainDeadline_orderly (h : orderly s) : Lands (execDrainDeadline gang s) := by
  unfold execDrainDeadline
  split
  · exact .next (ite_orderly (woke_orderly (toSaving_orderly h)) h)
  · exact .next h

theorem abandonSave_orderly (h : orderly s) : orderly (abandonSave s gang x) :=
  nextPreempt_orderly (ite_orderly (recheckGang_orderly (setGang_orderly (emit_orderly h))) (setGang_orderly (emit_orderly h)))

theorem pauseStream_orderly (h : orderly s) : orderly (pauseStream s gang core) := by
  unfold pauseStream
  dsimp only
  split
  · exact setGang_orderly (setCore_orderly (foldl_orderly (releaseUnits_orderly h) (fun _ _ ht => dropRoads_orderly ht)))
  · exact setCore_orderly (foldl_orderly (releaseUnits_orderly h) (fun _ _ ht => dropRoads_orderly ht))

theorem pauseMatrix_orderly (h : orderly s) : orderly (pauseMatrix s gang core) := by
  unfold pauseMatrix
  dsimp only
  split
  · exact ite_orderly (matrixLeave_orderly (setCore_orderly (setGang_orderly (foldl_orderly h (fun _ _ ht => dropRoads_orderly ht))))) h
  · exact h

theorem keepAsk_orderly (h : orderly s) : orderly (keepAsk s k l) := by
  unfold keepAsk
  split
  · exact setGang_orderly h
  · exact h

theorem pauseLane_orderly (h : orderly s) : orderly (pauseLane s k) := by
  unfold pauseLane
  split
  · refine setLane_orderly (ite_orderly ?_ ?_)
    · exact dropRoads_orderly (leaveWait_orderly (keepAsk_orderly h))
    · exact releaseUnits_orderly (dropRoads_orderly (leaveWait_orderly (keepAsk_orderly h)))
  · exact h

theorem saveGang_orderly {image : Nat} (h : orderly s) : orderly (saveGang s gang x off len image) := by
  unfold saveGang
  extract_lets s1 s2 s3
  have h1 : orderly s1 := foldl_orderly (dropAsk_orderly h) (fun _ _ ht => pauseLane_orderly ht)
  have h2 : orderly s2 := foldl_orderly h1 (fun _ _ ht => pauseMatrix_orderly (pauseStream_orderly ht))
  have h3 : orderly s3 := by
    dsimp only [s3]
    clear_value s2
    split
    · exact setGang_orderly h2
    · exact h2
  exact leftClose_orderly h3

theorem trySave_orderly (h : orderly s) : orderly (trySave s gang x) := by
  unfold trySave
  dsimp only
  split
  · exact abandonSave_orderly h
  · split
    next e =>
      have ht := fst_orderly (bulkPlace_orderly h) e
      exact saveGang_orderly (writePieces_orderly (orderly_of_eq rfl rfl ht))
    next e => exact fst_orderly (bulkPlace_orderly h) e
    next e => exact abandonSave_orderly (fst_orderly (bulkPlace_orderly h) e)

theorem execSave_orderly (h : orderly s) : Lands (execSave gang s) := by
  unfold execSave
  split
  · exact .next (ite_orderly (woke_orderly (trySave_orderly h)) h)
  · exact .next h

/-! ### Contexts -/

theorem preemptCtx_orderly (h : orderly s) : orderly (preemptCtx s ctx) := ite_orderly h (foldl_orderly h (fun _ _ ht => nextPreempt_orderly ht))

theorem ctxopStore_orderly (h : orderly s) : orderly (ctxopStore s ctx op) := setMreg_orderly h

theorem refill_orderly (h : orderly s) : orderly (refill s) := foldl_orderly h (fun _ _ ht => leftClose_orderly ht)

theorem endHeads_orderly (h : orderly s) : orderly (endHeads s ctx) := by
  unfold endHeads
  refine foldl_orderly h (fun _ _ ht => ?_)
  dsimp only
  split
  · exact ite_orderly (endRecord_orderly ht) ht
  · exact ht

theorem endCtx_orderly {c : Cause} (h : orderly s) : orderly (endCtx s ctx st c) :=
  refill_orderly (foldl_orderly (ite_orderly (endHeads_orderly h) h) (fun _ _ ht => endGrid_orderly ht))

theorem stopQueues_orderly (h : orderly s) : orderly (stopQueues s ctx) :=
  foldl_orderly h (fun _ _ ht => ite_orderly (setLq_orderly (setMreg_orderly ht)) ht)

theorem freeSets_orderly (h : orderly s) : orderly (freeSets s ctx) :=
  mapDies_orderly rfl rfl (fun _ hp => List.foldlRecOn (motive := fun y : Die => y.view.wf = true) _ _ hp (fun _ hy _ _ => hy)) h

theorem resetCtx_orderly (h : orderly s) : orderly (resetCtx s ctx) := h

theorem eraseKey_orderly (h : orderly s) : orderly (eraseKey s ctx) := h

theorem endDestroy_orderly (h : orderly s) : orderly (endDestroy s ctx) := resetCtx_orderly (eraseKey_orderly (freeSets_orderly h))

theorem tryDestroy_orderly (h : orderly s) : orderly (tryDestroy s ctx) := ite_orderly h (endDestroy_orderly h)

theorem destroyCtx_orderly (h : orderly s) : orderly (destroyCtx s ctx) :=
  tryDestroy_orderly (stopQueues_orderly (endCtx_orderly (ctxopStore_orderly h)))

theorem leaveGang_orderly (h : orderly s) : orderly (leaveGang s gang) := by
  unfold leaveGang
  split
  · refine ite_orderly (ite_orderly h (removeGang_orderly h)) ?_
    split
    · exact ite_orderly (killGang_orderly h) h
    · exact h
  · exact h

theorem settleWork_orderly (h : orderly s) : orderly (settleWork s) :=
  foldl_orderly (clearBindings_orderly (killsDone_orderly (foldl_orderly (foldl_orderly (foldl_orderly h (fun _ _ ht => leaveGang_orderly ht)) (fun
      _ _ ht => finishGrid_orderly ht)) (fun _ _ ht => tryDestroy_orderly ht)))) (fun _ _ ht => leftClose_orderly ht)

/-! ### The debugger -/

theorem recheckAll_orderly {ks : List LaneId} (h : orderly s) : orderly (recheckAll s ks) := foldl_orderly h (fun _ _ ht => recheckGang_orderly ht)

theorem resume_orderly {step : Bool} (h : orderly s) : orderly (resume step s k) := by
  unfold resume
  split
  · exact setLane_orderly h
  · exact h

theorem execDbgstep_orderly (h : orderly s) : Lands (execDbgstep ctx value s) := by
  unfold execDbgstep
  dsimp only
  split
  · exact .next (woke_orderly (recheckAll_orderly (foldl_orderly (regStore_orderly h) (fun _ _ ht => resume_orderly ht))))
  · exact .next (regStore_orderly h)

theorem dbgselDone_orderly {v : BitVec 64} {empty : Bool} (h : orderly s) : orderly (dbgselDone s ctx v st empty) := setMreg_orderly h

theorem dbgWrite_orderly {code : Nat} (h : orderly s) : ∀ u ∈ dbgWrite s k l code v, orderly u := by
  unfold dbgWrite
  dsimp only
  split
  · split
    · exact orderly_mem_some (setLane_orderly h)
    · exact orderly_mem_none
  · intro u hu
    obtain ⟨w, _, rfl⟩ := Option.mem_map.1 hu
    exact ite_orderly h (recheckWaits_orderly (setWarp_orderly h))
  · exact orderly_mem_some (setLane_orderly h)
  · exact orderly_mem_some (setLane_orderly h)
  · exact orderly_mem_none

theorem execDbgselRead_orderly (h : orderly s) : Lands (execDbgselRead ctx value s) := by
  unfold execDbgselRead
  refine .next ?_
  split
  · exact dbgselDone_orderly h
  · split
    · exact dbgselDone_orderly (setMreg_orderly h)
    · exact dbgselDone_orderly h

theorem execDbgselWrite_orderly (h : orderly s) : Lands (execDbgselWrite ctx value s) := by
  unfold execDbgselWrite
  refine .next ?_
  split
  · exact dbgselDone_orderly h
  · split
    next e => exact woke_orderly (dbgselDone_orderly (some_orderly (dbgWrite_orderly h) e))
    · exact dbgselDone_orderly h

theorem dump_orderly (h : orderly s) : orderly (dump s ctx va) := by
  unfold dump
  extract_lets ks d bs s1 s2
  have h1 : orderly s1 := h
  have h2 : orderly s2 := by
    dsimp only [s2]
    split
    next e => exact writePieces_orderly (fst_orderly (bulkPlace_orderly h1) e)
    next e => exact fst_orderly (bulkPlace_orderly h1) e
  exact ite_orderly h2 (sealCount_orderly h2)

theorem execDbgdump_orderly (h : orderly s) : Lands (execDbgdump ctx value s) :=
  .next (ite_orderly (woke_orderly (dump_orderly (setMreg_orderly h))) (setMreg_orderly h))

/-! ### Invalidation, Skims and module reset -/

theorem settleSquares_orderly (h : orderly s) : orderly (settleSquares s d) :=
  foldl_orderly h (fun _ _ ht => foldl_orderly ht (fun _ _ ht => ite_orderly (squareStep_orderly ht) ht))

theorem retryStores_orderly {hit : Nat → Nat → Bool} (h : orderly s) : orderly (retryStores s k hit) := by
  unfold retryStores
  split
  · split
    · extract_lets ctx r
      have hr : orderly r.1 := by
        refine foldl_fst_orderly h (fun _ _ ht => ?_)
        split
        · exact ht
        · refine fst_ite_orderly ht ?_
          split
          all_goals next e => exact fst_orderly (vplace_orderly ht) e
      clear_value r
      obtain ⟨t, f | es⟩ := r
      · refine abortTries_orderly ?_
        split
        · exact postFault_orderly hr
        · exact hr
      · exact setLane_orderly hr
    · exact h
  · exact h

theorem invalidate_orderly {sz va : Nat} (h : orderly s) : orderly (invalidate s d ctx sz va) := by
  unfold invalidate
  refine foldl_orderly (mapDies_orderly rfl rfl (fun _ hp => hp) (keepView_orderly (d := d) ?_ rfl)) (fun _ _ ht => retryStores_orderly ht)
  exact drainAll_orderly (settleSquares_orderly h)

theorem execXinv_orderly {die : Nat} (h : orderly s) : Lands (execXinv die value s) :=
  .next (ite_orderly (woke_orderly (invalidate_orderly (regStore_orderly h))) (regStore_orderly h))

theorem replayCtx_orderly (h : orderly s) : orderly (replayCtx s d ctx) := by
  unfold replayCtx
  refine foldl_orderly (mapDies_orderly rfl rfl (fun p hp => ?_) (keepView_orderly (d := d) h rfl)) (fun _ _ ht => tryWords_orderly ht)
  dsimp only
  split <;> exact hp

theorem execXreplay_orderly {die : Nat} (h : orderly s) : Lands (execXreplay die value s) :=
  .next (ite_orderly (woke_orderly (replayCtx_orderly (regStore_orderly h))) (regStore_orderly h))

theorem skDone_orderly {e : Nat} {c : SkCmd} {entry : Nat} (h : orderly s) : orderly (skDone s e c status entry) := by
  unfold skDone
  extract_lets head index ok s1 s2
  have h2 : orderly s2 := emit_orderly (ite_orderly (ioWrite_orderly h) h)
  exact setMreg_orderly (orderly_of_eq rfl rfl h2)

theorem skReady_orderly {e : Nat} {old new : Addr} (h : orderly s) : orderly (skReady s e old new) := h

theorem skSwap_orderly {e : Nat} {c : SkCmd} {old new : Addr} (h : orderly s) : orderly (skSwap s e c old new) := by
  unfold skSwap
  refine ite_orderly h ?_
  split
  · exact h
  · exact skDone_orderly h
  · refine ite_orderly (skDone_orderly h) (skDone_orderly (ite_orderly ?_ ?_))
    · exact foldl_orderly (foldl_orderly (ioWrite_orderly (drainAll_orderly h)) (fun _ _ ht => invalidate_orderly ht)) (fun _ _ ht1 =>
        replayCtx_orderly ht1)
    · exact foldl_orderly (ioWrite_orderly (drainAll_orderly h)) (fun _ _ ht => invalidate_orderly ht)

theorem promote_orderly {e : Nat} {c : SkCmd} (h : orderly s) : orderly (promote s e c) := by
  unfold promote
  split
  · exact h
  · exact skDone_orderly h
  · refine ite_orderly (skDone_orderly h) ?_
    split
    · exact h
    · split
      · exact h
      · exact skDone_orderly h
      · exact skReady_orderly (ioWriteAs_orderly h)
    · exact skDone_orderly h

theorem writeChunks_orderly {c : SkCmd} {ps : List (Nat × List Byte)} (h : orderly s) : orderly (writeChunks s c ps) :=
  foldl_orderly h (fun _ _ ht => ioWrite_orderly (ite_orderly (ioWrite_orderly (ioWrite_orderly ht)) (ioWrite_orderly ht)))

theorem demote_orderly {e : Nat} {c : SkCmd} (h : orderly s) : orderly (demote s e c) := by
  unfold demote
  split
  · exact h
  · exact skDone_orderly h
  · refine ite_orderly (skDone_orderly h) ?_
    dsimp only
    split
    · exact h
    · refine ite_orderly (skDone_orderly h) ?_
      split
      · exact h
      · exact skDone_orderly h
      · exact skReady_orderly (writeChunks_orderly h)
    · exact skDone_orderly h

theorem skStep_orderly {e : Nat} {c : SkCmd} {f : State → Nat → SkCmd → State} (h : orderly s) (hf : ∀ t e c, orderly t → orderly (f t e c)) :
    orderly (skStep s e c f) := by
  unfold skStep
  refine ite_orderly h ?_
  split
  · exact skSwap_orderly h
  · exact hf _ _ _ h

theorem execPromote_orderly {engine : Nat} (h : orderly s) : Lands (execPromote engine s) := by
  unfold execPromote
  split
  · exact .next (ite_orderly (woke_orderly (skStep_orderly h (fun _ _ _ ht => promote_orderly ht))) h)
  · exact .next h

theorem execDemote_orderly {engine : Nat} (h : orderly s) : Lands (execDemote engine s) := by
  unfold execDemote
  split
  · exact .next (ite_orderly (woke_orderly (skStep_orderly h (fun _ _ _ ht => demote_orderly ht))) h)
  · exact .next h

theorem execBadcmd_orderly {engine : Nat} (h : orderly s) : Lands (execBadcmd engine s) := by
  unfold execBadcmd
  split
  · exact .next (ite_orderly (woke_orderly (skDone_orderly h)) h)
  · exact .next h

theorem resetSkim_orderly {e : Nat} (h : orderly s) : orderly (resetSkim s e) := by
  unfold resetSkim
  split
  · exact ite_orderly h (skDone_orderly h)
  · exact h

theorem moduleReset_orderly (h : orderly s) : orderly (moduleReset s) := by
  have hs : orderly (drainAll ([0, 1].foldl resetSkim s)) := drainAll_orderly (foldl_orderly h (fun _ _ ht => resetSkim_orderly ht))
  refine ⟨fun p hp => ?_, fun _ hp => nomatch hp⟩
  obtain ⟨q, hq, rfl⟩ := List.mem_map.1 hp
  exact keptCells_wf (hs.1 q hq)

/-! ### The host and the events of the module -/

theorem hostWrite_orderly {loc : Nat} {bytes : List Byte} (h : orderly s) : orderly (hostWrite s loc bytes) :=
  woke_orderly (flatWrite_orderly (ite_orderly h (drainTo_orderly h)))

theorem hostRead_orderly {p : Nat × Nat} (h : orderly s) : orderly (hostRead s p) := ite_orderly h (drainTo_orderly h)

theorem hostTry_orderly {op : HostOp} (h : orderly s) : ∀ u ∈ hostTry s op, orderly u := by
  unfold hostTry
  split
  · split
    · exact orderly_mem_some (hostWrite_orderly h)
    · exact orderly_mem_some h
    · exact orderly_mem_none
  · dsimp only
    split
    · exact orderly_mem_none
    · split
      · exact orderly_mem_some h
      · exact orderly_mem_some (foldl_orderly h (fun _ _ ht => hostRead_orderly ht))

theorem hostDo_orderly {op : HostOp} (h : orderly s) : orderly (hostDo s op) := by
  unfold hostDo
  split
  next e => exact hostTry_orderly h _ (Option.ite_none_left_eq_some.1 e).2
  · exact h

theorem retryHost_orderly (h : orderly s) : orderly (retryHost s) := foldl_orderly h (fun _ _ ht => hostDo_orderly ht)

theorem retryWaits_orderly (h : orderly s) : orderly (retryWaits s) :=
  retryHost_orderly (foldl_orderly (foldl_orderly (retryDevice_orderly h) (fun _ _ ht => traceFlush_orderly (fbFlush_orderly ht))) (fun _ _ ht =>
      tryWords_orderly ht))

theorem setReady_orderly {b : Nat} (h : orderly s) : orderly (setReady s b) := retryWaits_orderly (setMreg_orderly h)

theorem setFail_orderly {b : Nat} (h : orderly s) : orderly (setFail s b) := retryWaits_orderly (setMreg_orderly h)

theorem finishTest_orderly {b : Nat} {passed : Bool} (h : orderly s) : orderly (finishTest s b passed) :=
  ite_orderly (setFail_orderly h) (ite_orderly h (ite_orderly (keepView_orderly h rfl) (setReady_orderly h)))

theorem verified_orderly {result : Nat} {svn : BitVec 32} (h : orderly s) : orderly (verified s result svn) :=
  ite_orderly (setReady_orderly (setMreg_orderly h)) (setMreg_orderly h)

theorem writeSqov_orderly {v : BitVec 64} (h : orderly s) : orderly (writeSqov s d v) :=
  ite_orderly (setReady_orderly (regStore_orderly h)) (regStore_orderly h)

theorem setHot_orderly {hot : Bool} (h : orderly s) : orderly (setHot s d hot) := keepView_orderly h rfl

theorem setHalted_orderly {cores : List Nat} {halted : Bool} (h : orderly s) : orderly (setHalted s cores halted) :=
  foldl_orderly h (fun _ _ ht => setCore_orderly ht)

theorem endGrids_orderly {gs : List Nat} {c : Cause} (h : orderly s) : orderly (endGrids s gs c) :=
  refill_orderly (foldl_orderly h (fun _ _ ht => endGrid_orderly ht))

theorem abortCtx_orderly {c : Cause} (h : orderly s) : orderly (abortCtx s ctx c) := endCtx_orderly (setMreg_orderly h)

theorem execModctlAbort_orderly {byHost : Bool} (h : orderly s) : Lands (execModctlAbort ctx byHost s) :=
  .next (ite_orderly (woke_orderly (abortCtx_orderly h)) (ite_orderly (woke_orderly (abortCtx_orderly h)) h))

theorem installTable_orderly {module dsize : BitVec 3} {table : List Byte} (h : orderly s) : orderly (installTable module dsize table s) := h

theorem attDo_orderly {op : BitVec 64} (h : orderly s) : orderly (attDo s op bs) := by
  unfold attDo
  split
  · exact setMreg_orderly h
  · exact setMreg_orderly (ioWrite_orderly h)

theorem klDone_orderly (h : orderly s) : orderly (klDone s st) := setMreg_orderly (setMreg_orderly h)

theorem useMessage_orderly {m : List Byte} (h : orderly s) : orderly (useMessage s m) := by
  unfold useMessage
  dsimp only
  split
  · exact ite_orderly (klDone_orderly (setMreg_orderly h)) (klDone_orderly (setMreg_orderly h))
  · exact klDone_orderly h

theorem keyGo_orderly (h : orderly s) : orderly (keyGo s) := by
  unfold keyGo
  split
  · exact useMessage_orderly h
  · exact klDone_orderly h
  · exact setMreg_orderly h

/-! ### Control and masks -/

theorem laneSkip_orderly (h : orderly s) : (laneSkip w k l s).Orderly := .ok (setLane_orderly h)

theorem branchTo_orderly {target : Addr} (h : orderly s) : (branchTo w k l s target).Orderly := by
  unfold branchTo
  split
  · split
    · exact .ok (setLane_orderly h)
    · exact .wait
  · exact .ok (setLane_orderly h)

theorem laneRel_orderly (h : orderly s) : (laneRel w k l s).Orderly := branchTo_orderly h

theorem lanePair_orderly (h : orderly s) : (lanePair w k l s).Orderly := by
  unfold lanePair
  split
  next e => exact branchTo_orderly (Rd.orderly_val (readSrc_orderly h) e)
  · exact .wait
  · exact .trap

theorem activeLanes_orderly (h : orderly s) : orderly (activeLanes e w s).1 := by
  unfold activeLanes
  refine runLanes_orderly (fun _ _ _ ht => ?_) h
  split
  · exact .ok ht
  · exact .ok (setLane_orderly ht)
  · exact .wait
  · exact .trap
  · exact .abort ht

theorem execExit_orderly (h : orderly s) : Lands (execExit w s) := by
  unfold execExit
  refine .next (exitLanes_orderly (runLanes_orderly (fun _ _ _ ht => ?_) h))
  split
  · exact .ok ht
  · exact .ok (setLane_orderly ht)
  · exact .wait
  · exact .trap
  · exact .abort ht

theorem advanceAll_orderly (h : orderly s) : orderly (advanceAll s ls) := by
  unfold advanceAll
  refine foldl_orderly h (fun _ _ ht => ?_)
  split
  · exact setLane_orderly ht
  · exact ht

theorem changeMask_orderly {act : List LaneId} {m : Nat} {f : WarpId → Warp → List Nat → Word} (h : orderly s) :
    orderly (changeMask s act m f) := by
  unfold changeMask
  refine foldl_orderly (advanceAll_orderly h) (fun _ _ ht => ?_)
  split
  · exact recheckWaits_orderly (setWarp_orderly ht)
  · exact ht

theorem execJoin_orderly (h : orderly s) : Lands (execJoin w s) := by
  unfold execJoin
  refine .next (changeMask_orderly (runLanes_orderly (fun _ _ _ ht => ?_) h))
  split
  · exact .ok ht
  · exact .ok (setLane_orderly ht)
  · exact .wait
  · exact .trap
  · exact .abort ht

theorem execLeave_orderly (h : orderly s) : Lands (execLeave w s) := by
  unfold execLeave
  refine .next (changeMask_orderly (runLanes_orderly (fun _ _ _ ht => ?_) h))
  split
  · exact .ok ht
  · exact .ok (setLane_orderly ht)
  · exact .wait
  · exact .trap
  · exact .abort ht

theorem laneWaitm_orderly (h : orderly s) : (laneWaitm w k l s).Orderly := by
  unfold laneWaitm
  split
  · split
    · exact .ok (setLane_orderly h)
    · exact .trap
  · exact .wait

theorem laneMsetSrc_orderly (h : orderly s) : (laneMsetSrc w k l s).Orderly := readSrc_orderly h

theorem activeWith_orderly {rd : LaneId → Lane → State → Rd} (h : orderly s) : orderly (activeWith e rd w s).1 := by
  unfold activeWith
  refine runLanes_orderly (fun _ _ _ ht => ?_) h
  refine gated_orderly (fun _ _ _ ht1 => ?_) ht
  split
  · exact .ok ht1
  · exact .wait
  · exact .trap

theorem execMset_orderly (h : orderly s) : Lands (execMset w s) := by
  unfold execMset
  refine .next (changeMask_orderly (runLanes_orderly (fun _ _ _ ht => ?_) h))
  refine gated_orderly (fun _ _ _ ht1 => ?_) ht
  split
  · exact .ok ht1
  · exact .wait
  · exact .trap

theorem laneMget_orderly (h : orderly s) : (laneMget w k l s).Orderly := by
  unfold laneMget
  split
  · exact finish_orderly h
  · exact .wait

theorem maskOp_orderly {f : Word → Word → Word} (h : orderly s) : orderly (maskOp e f w s) := by
  unfold maskOp
  refine changeMask_orderly (runLanes_orderly (fun _ _ _ ht => ?_) h)
  split
  · exact .ok ht
  · exact .ok (setLane_orderly ht)
  · exact .wait
  · exact .trap
  · exact .abort ht

theorem loopTrap_orderly {c : Cause} : (loopTrap c n).Orderly := .trap

theorem startLoop_orderly {c : Nat} {stop : Addr} {n : Word} (h : orderly s) : (startLoop k l s c stop n).Orderly := by
  unfold startLoop
  split <;> exact .ok (setLane_orderly h)

theorem laneLoop_orderly (h : orderly s) : (laneLoop w k l s).Orderly := by
  unfold laneLoop
  dsimp only
  split
  · exact loopTrap_orderly
  · split
    · exact loopTrap_orderly
    · split
      next e => exact startLoop_orderly (Rd.orderly_val (readSrc_orderly h) e)
      · exact .wait
      · exact .trap

theorem laneLoopx_orderly (h : orderly s) : (laneLoopx w k l s).Orderly := by
  unfold laneLoopx
  dsimp only
  split
  · exact loopTrap_orderly
  · split
    · exact loopTrap_orderly
    · exact startLoop_orderly h

theorem laneLbrk_orderly (h : orderly s) : (laneLbrk w k l s).Orderly := by
  unfold laneLbrk
  dsimp only
  split
  · split
    · exact .ok (setLane_orderly h)
    · exact loopTrap_orderly
  · exact loopTrap_orderly

theorem laneBar_orderly {gang : Bool} (h : orderly s) : (laneBar gang w k l s).Orderly := by
  unfold laneBar
  split
  next e =>
    have ht := Rd.orderly_val (readSrc_orderly h) e
    split
    · split
      · exact .trap
      · exact .ok (setLane_orderly ht)
    · split
      · exact .trap
      · exact .ok (setLane_orderly ht)
  · exact .wait
  · exact .trap

theorem laneFe_orderly {f : BitVec 6 → BitVec 6 → BitVec 6} (h : orderly s) : (laneFe f w k l s).Orderly := by
  unfold laneFe
  split
  next e =>
    have ht := Rd.orderly_val (readSrc_orderly h) e
    split
    next e =>
      have ht1 := LaneOut.orderly_ok (finish_orderly ht) e
      split
      · exact .ok (setLane_orderly ht1)
      · exact .ok ht1
    · exact finish_orderly ht
  · exact .wait
  · exact .trap

theorem laneBkpt_orderly (h : orderly s) : (laneBkpt w k l s).Orderly := by
  unfold laneBkpt
  refine withSrcs_orderly h (fun _ _ _ _ ht => ?_)
  split
  · exact .ok (setLane_orderly ht)
  · exact .trap

theorem bkptStop_orderly {s0 : State} (hs : orderly s) : orderly (bkptStop w s0 s) := by
  unfold bkptStop
  dsimp only
  split
  · exact hs
  · refine stopRest_orderly (foldl_orderly ?_ (fun _ _ ht => foldl_orderly ht (fun _ _ ht => stopLanes_orderly ht)))
    refine foldl_orderly hs (fun _ _ ht => ?_)
    split
    · exact setLane_orderly ht
    · exact ht

theorem setRegion_orderly {base : Nat} {spad : Option (GroupId × Nat)} (h : orderly s) : orderly (setRegion s ctx n base len spad) := h

theorem laneWatch_orderly (h : orderly s) : (laneWatch w k l s).Orderly := by
  unfold laneWatch
  split
  · exact .trap
  · refine withSrcs_orderly h (fun _ _ _ _ ht => ?_)
    dsimp only
    split
    · exact goOn_orderly (setRegion_orderly ht)
    · split
      · split
        · exact goOn_orderly (setRegion_orderly ht)
        · exact .trap
      · split
        · exact .trap
        · split
          · exact .trap
          · exact goOn_orderly (setRegion_orderly ht)

theorem laneUnwatch_orderly (h : orderly s) : (laneUnwatch w k l s).Orderly := by
  unfold laneUnwatch
  split
  · exact .trap
  · exact goOn_orderly (setRegion_orderly h)

theorem laneCntr_orderly (h : orderly s) : (laneCntr w k l s).Orderly := withSrcs_orderly h (fun _ _ _ _ ht => finish_orderly ht)

theorem laneCntrst_orderly (h : orderly s) : (laneCntrst w k l s).Orderly := goOn_orderly (setCore_orderly h)

theorem laneTmark_orderly (h : orderly s) : (laneTmark w k l s).Orderly := by
  unfold laneTmark
  refine withSrcs_orderly h (fun _ _ _ _ ht => ?_)
  dsimp only
  split
  · exact goOn_orderly ht
  · exact goOn_orderly (emitRing_orderly ht)

/-! ### Memory instructions -/

theorem bufferHit_orderly {sp : Space} (h : orderly s) : ∀ u ∈ bufferHit s k l sp va n, orderly u.1 := by
  intro u hu
  unfold bufferHit at hu
  split at hu
  next e =>
    have ht := fst_orderly (translate_orderly h) e
    split at hu
    · cases hu
    · split at hu
      · split at hu
        · cases hu
          exact ht
        · cases hu
      · cases hu
  · cases hu

theorem loaded_orderly {sp : Space} {loc : Nat} {remote : Bool} (h : orderly s) : (loaded w k l s va sp loc bs remote).Orderly := by
  unfold loaded
  dsimp only
  split
  · exact .abort h
  · exact goOn_orderly (ite_orderly (setLane_orderly h) (addPend_orderly (setLane_orderly h)))

theorem flatLoad_orderly (h : orderly s) : (flatLoad w k l s va).Orderly := by
  unfold flatLoad
  dsimp only
  split
  · exact memFault_orderly h
  · split
    next e => exact loaded_orderly (some_fst_orderly (bufferHit_orderly h) e)
    · split
      next e => exact loaded_orderly (fst_orderly (vread_orderly h) e)
      next e => exact transFault_orderly (fst_orderly (vread_orderly h) e)
      next e => exact failLater_orderly (fst_orderly (vread_orderly h) e)
      · exact .wait

theorem laneLd_orderly (h : orderly s) : (laneLd w k l s).Orderly := by
  unfold laneLd
  split
  · exact .wait
  · exact .trap
  next e =>
    have ht := Rd.orderly_val (readSrc_orderly h) e
    split
    · exact .wait
    · split
      · dsimp only
        split
        · exact flatLoad_orderly (fenceSc_orderly ht)
        · exact .wait
      · exact flatLoad_orderly ht

theorem flatStore_orderly (h : orderly s) : (flatStore w k l s va v).Orderly := by
  unfold flatStore
  dsimp only
  split
  · exact memFault_orderly h
  · split
    next e =>
      have ht := fst_orderly (vplace_orderly h) e
      split
      · split
        · exact .abort ht
        · exact goOn_orderly (setLane_orderly ht)
      · refine goOn_orderly (ite_orderly ?_ ?_)
        · exact addPend_orderly (ite_orderly (privWrite_orderly ht) (flatWrite_orderly ht))
        · exact ite_orderly (privWrite_orderly ht) (flatWrite_orderly ht)
    next e => exact transFault_orderly (fst_orderly (vplace_orderly h) e)
    next e => exact failLater_orderly (fst_orderly (vplace_orderly h) e)
    · exact .wait

theorem laneSt_orderly (h : orderly s) : (laneSt w k l s).Orderly := by
  unfold laneSt
  split
  · exact .trap
  · refine withSrcs_orderly h (fun _ _ _ _ ht => ?_)
    split
    · exact .wait
    · split
      next e =>
        have ht1 := LaneOut.orderly_ok (flatStore_orderly ht) e
        exact .ok (ite_orderly (fenceSc_orderly ht1) ht1)
      · exact flatStore_orderly ht

theorem laneLds_orderly (h : orderly s) : (laneLds w k l s).Orderly := by
  unfold laneLds
  split
  · exact .wait
  · exact .trap
  next e =>
    have ht := Rd.orderly_val (readSrc_orderly h) e
    split
    · exact .wait
    · dsimp only
      split
      · exact memFault_orderly ht
      · split
        · exact .abort ht
        · exact goOn_orderly (ite_orderly (setLane_orderly ht) (addPend_orderly (setLane_orderly ht)))

theorem laneSts_orderly (h : orderly s) : (laneSts w k l s).Orderly := by
  unfold laneSts
  split
  · exact .trap
  · refine withSrcs_orderly h (fun _ _ _ _ ht => ?_)
    dsimp only
    split
    · exact .wait
    · split
      · exact memFault_orderly ht
      · split
        · split
          · exact .abort ht
          · exact goOn_orderly (setLane_orderly ht)
        · exact goOn_orderly (spadWrite_orderly ht)

theorem laneLdc_orderly (h : orderly s) : (laneLdc w k l s).Orderly := by
  unfold laneLdc
  split
  · exact .wait
  · exact .trap
  next e =>
    have ht := Rd.orderly_val (readSrc_orderly h) e
    split
    · exact .wait
    · dsimp only
      split
      · split
        · exact memFault_orderly ht
        · split
          · exact memFault_orderly ht
          · split
            next e =>
              have ht1 := fst_orderly (vread_orderly ht) e
              exact goOn_orderly (ite_orderly ht1 (addPend_orderly ht1))
            next e => exact transFault_orderly (fst_orderly (vread_orderly ht) e)
            next e => exact failLater_orderly (fst_orderly (vread_orderly ht) e)
            · exact .wait
      · split
        · exact memFault_orderly ht
        · split
          · exact memFault_orderly ht
          · split
            next e =>
              have ht1 := fst_orderly (vread_orderly ht) e
              exact goOn_orderly (ite_orderly ht1 (addPend_orderly ht1))
            next e => exact transFault_orderly (fst_orderly (vread_orderly ht) e)
            next e => exact failLater_orderly (fst_orderly (vread_orderly ht) e)
            · exact .wait

theorem execPref_laneStep_orderly (h : orderly s) : (execPref.laneStep w k l s).Orderly := by
  unfold execPref.laneStep
  exact goOn_orderly h

theorem laneFence_orderly (h : orderly s) : (laneFence w k l s).Orderly := by
  unfold laneFence
  split
  · exact .wait
  · exact goOn_orderly (ite_orderly (fenceSc_orderly h) h)

theorem laneTry_orderly (h : orderly s) : (laneTry w k l s).Orderly := by
  unfold laneTry
  split
  · split
    · exact .trap
    · exact goOn_orderly (setLane_orderly h)
  · dsimp only
    split
    · exact .wait
    · exact goOn_orderly (setLane_orderly h)

theorem pendStore_orderly {e : StoreEnt} {bad : Option Cause} (h : orderly s) : orderly (pendStore s k e bad) := ite_orderly h (addPend_orderly h)

theorem applyStores_orderly {es : List StoreEnt} (h : orderly s) : orderly (applyStores s k es) := by
  unfold applyStores
  exact foldl_orderly (foldl_orderly (ite_orderly (flatWrite_orderly h) (privWrite_orderly (flatWrite_orderly h))) (fun _ _ ht =>
      spadCells_orderly ht)) (fun _ _ ht => pendStore_orderly ht)

theorem laneCommit_orderly (h : orderly s) : (laneCommit w k l s).Orderly := by
  unfold laneCommit
  split
  · exact .trap
  · split
    · exact goOn_orderly (setLane_orderly h)
    · split
      · exact .wait
      · dsimp only
        split
        · split
          · split
            · exact .abort (drainTo_orderly h)
            · exact goOn_orderly (applyStores_orderly (setLane_orderly (drainTo_orderly h)))
          · split
            · exact .abort (drainTo_orderly h)
            · exact goOn_orderly (applyStores_orderly (setLane_orderly (drainTo_orderly h)))
        · split
          · exact .abort (drainTo_orderly h)
          · exact .ok (drainTo_orderly h)

theorem laneAbort_orderly (h : orderly s) : (laneAbort w k l s).Orderly := by
  unfold laneAbort
  split
  · exact .trap
  · split
    · exact .wait
    · exact .trap
    next e => exact .abort (Rd.orderly_val (readSrc_orderly h) e)

theorem laneTstat_orderly (h : orderly s) : (laneTstat w k l s).Orderly := by
  unfold laneTstat
  split
  · exact .wait
  · exact goOn_orderly (addPend_orderly h)

theorem laneQcfg_orderly (h : orderly s) : (laneQcfg w k l s).Orderly := by
  unfold laneQcfg
  dsimp only
  split
  · split
    · exact .trap
    · split
      · exact .wait
      · exact goOn_orderly (ite_orderly h (setQueue_orderly h))
  · split
    · exact .trap
    · split
      · exact .wait
      · exact goOn_orderly (ite_orderly h (setQueue_orderly h))

theorem laneQlen_orderly (h : orderly s) : (laneQlen w k l s).Orderly := by
  unfold laneQlen
  split
  · exact .trap
  · split
    · exact .wait
    · exact goOn_orderly (addPend_orderly h)

theorem laneQrst_orderly (h : orderly s) : (laneQrst w k l s).Orderly := by
  unfold laneQrst
  split
  · exact .trap
  · split
    · exact .wait
    · refine goOn_orderly ?_
      split
      · exact setQueue_orderly h
      · exact h

/-! ### Traps and system instructions -/

theorem laneTrap_orderly (h : orderly s) : (laneTrap w k l s).Orderly := withSrcs_orderly h (fun _ _ _ _ _ => .trap)

theorem dropWord_orderly (h : orderly s) : orderly (dropWord s cause) := ite_orderly (setCore_orderly h) h

theorem execFaultWord_orderly (h : orderly s) : Lands (execFaultWord cause off len s) := by
  unfold execFaultWord
  refine .next (dropWord_orderly (runLanes_orderly (fun _ _ _ ht => ?_) h))
  split
  · exact .abort ht
  · exact .trap

theorem laneTret_orderly {skip : Bool} {u : IWord} (h : orderly s) : (laneTret skip u k l s).Orderly := by
  unfold laneTret
  split
  · exact .ok (clearSubs_orderly (setLane_orderly h))
  · exact .wait

theorem laneTretEndg_orderly (h : orderly s) : (laneTretEndg w k l s).Orderly := .ok (exitLanes_orderly (forsakeLanes_orderly h))

theorem laneTretEndr_orderly (h : orderly s) : (laneTretEndr w k l s).Orderly := .ok (endGrid_orderly h)

theorem execTretEndg_orderly (h : orderly s) : Lands (execTretEndg w s) := by
  unfold execTretEndg
  refine .next (runLanes_orderly (fun _ _ _ ht => ?_) h)
  split
  · exact .ok ht
  · exact gated_orderly (fun _ _ _ ht => laneTretEndg_orderly ht) ht

theorem sregWrite_orderly (h : orderly s) : orderly (sregWrite s k n v) := by
  unfold sregWrite
  dsimp only
  split
  · exact regStore_orderly h
  · exact regStore_orderly h
  · exact regStore_orderly h
  · split
    next e => exact keepSpad_orderly h (group_orderly h e) rfl
    · exact h
  · exact h

theorem laneMfs_orderly (h : orderly s) : (laneMfs w k l s).Orderly := finish_orderly h

theorem laneMts_orderly (h : orderly s) : (laneMts w k l s).Orderly := withSrcs_orderly h (fun _ _ _ _ ht => goOn_orderly (sregWrite_orderly ht))

theorem placeRecord_orderly (h : orderly s) : orderly (placeRecord s d ctx va).1 := by
  unfold placeRecord
  split
  next e =>
    have ht := fst_orderly (vplace_orderly h) e
    split
    next e => exact fst_orderly (vplace_orderly ht) e
    next e => exact fst_orderly (vplace_orderly ht) e
  next e => exact fst_orderly (vplace_orderly h) e

theorem lnchAppend_orderly (h : orderly s) : (lnchAppend s k w q bs).Orderly := by
  unfold lnchAppend
  dsimp only
  split
  · exact .ok h
  · split
    · exact memFault_orderly h
    · split
      next e2 =>
        have ht := fst_orderly (vplace_orderly h) e2
        split
        · exact .wait
        · split
          · exact finish_orderly (drainTo_orderly (drainTo_orderly ht))
          · split
            · exact memFault_orderly (drainTo_orderly ht)
            · split
              next e =>
                have ht1 := fst_orderly (placeRecord_orderly (drainTo_orderly ht)) e
                exact finish_orderly (drainTo_orderly (flatWrite_orderly ht1))
              next e => exact transFault_orderly (fst_orderly (placeRecord_orderly (drainTo_orderly ht)) e)
              next e => exact failLater_orderly (fst_orderly (placeRecord_orderly (drainTo_orderly ht)) e)
              · exact .wait
      next e => exact transFault_orderly (fst_orderly (vplace_orderly h) e)
      next e => exact failLater_orderly (fst_orderly (vplace_orderly h) e)
      · exact .wait

theorem laneLnch_orderly (h : orderly s) : (laneLnch w k l s).Orderly := by
  unfold laneLnch
  refine withSrcs_orderly h (fun _ _ _ _ ht => ?_)
  split
  · exact .wait
  · dsimp only
    split
    · exact .trap
    · split
      · exact .trap
      · split
        · exact .trap
        · exact lnchAppend_orderly ht

theorem laneLtrig_orderly (h : orderly s) : (laneLtrig w k l s).Orderly := by
  unfold laneLtrig
  split
  · exact .wait
  · exact goOn_orderly (trigger_orderly h)

/-- Whatever an instruction or an event leaves is orderly. -/
theorem exec_orderly (i : Instr) (h : orderly s) : Lands (exec i s) := by
  cases i
  case nop | yield => exact .next (perLane_orderly (fun _ _ _ _ ht => laneSkip_orderly ht) h)
  case bra | call => exact .next (perLane_orderly (fun _ _ _ _ ht => laneRel_orderly ht) h)
  case brx | callx | ret => exact .next (perLane_orderly (fun _ _ _ _ ht => lanePair_orderly ht) h)
  case exit => exact execExit_orderly h
  case join => exact execJoin_orderly h
  case leave => exact execLeave_orderly h
  case waitm => exact .next (foldl_orderly (perLane_orderly (fun _ _ _ _ ht => laneWaitm_orderly ht) h) (fun _ _ ht => recheckWaits_orderly ht))
  case mset => exact execMset_orderly h
  case mget => exact .next (perLane_orderly (fun _ _ _ _ ht => laneMget_orderly ht) h)
  case mand | mor | mnot => exact .next (maskOp_orderly h)
  case loop => exact .next (perLane_orderly (fun _ _ _ _ ht => laneLoop_orderly ht) h)
  case loopx => exact .next (perLane_orderly (fun _ _ _ _ ht => laneLoopx_orderly ht) h)
  case lbrk => exact .next (perLane_orderly (fun _ _ _ _ ht => laneLbrk_orderly ht) h)
  case barg | barn => exact .next (recheckBars_orderly (perLane_orderly (fun _ _ _ _ ht => laneBar_orderly ht) h))
  case feset | feclr => exact .next (perLane_orderly (fun _ _ _ _ ht => laneFe_orderly ht) h)
  case mov | movi | iadd | isub | ineg | iabs | imul | imulh | imad | imadw | imin | imax | iset | sel | and | or | xor | not | shl | shr | sar |
      rot | bfx | bfi | popc | clz | ctz | brev | prmb | lea | fadd | fsub | fmul | ffma | fmin | fmax | fabs | fneg | fset | fclass | fdot2 |
      hadd2 | hmul2 | hfma2 | cvt | qgrp | dqgrp | absent | absentMk | rcp | rsq | sqrt | exp2 | log2 | sinpi | cospi | tanh | padd | psub | pmin |
      pmax | pavg | pabd | psad | pmad | pshr | ppack | punpk | pclmp =>
    exact .next (perLane_orderly (fun _ _ _ _ ht => laneAlu_orderly ht) h)
  case idiv | irem => exact .next (perLane_orderly (fun _ _ _ _ ht => laneDiv_orderly ht) h)
  case amxrec => exact .next (perLane_orderly (fun _ _ _ _ ht => laneAmxrec_orderly ht) h)
  case amxget => exact .next (perLane_orderly (fun _ _ _ _ ht => laneAmxget_orderly ht) h)
  case bexp => exact .next (perLane_orderly (fun _ _ _ _ ht => laneBexp_orderly ht) h)
  case shfi | shfu | shfd | shfx | bcst | qswh | qswv | qswd | qbcst | vany | vall | vbal | scani | scane | redw | matchLanes | elect =>
    exact .next (crossLane_orderly h)
  case ld => exact .next (perLane_orderly (fun _ _ _ _ ht => laneLd_orderly ht) h)
  case st => exact .next (perLane_orderly (fun _ _ _ _ ht => laneSt_orderly ht) h)
  case lds => exact .next (perLane_orderly (fun _ _ _ _ ht => laneLds_orderly ht) h)
  case sts => exact .next (perLane_orderly (fun _ _ _ _ ht => laneSts_orderly ht) h)
  case ldc => exact .next (perLane_orderly (fun _ _ _ _ ht => laneLdc_orderly ht) h)
  case pref => exact .next (perLane_orderly (fun _ _ _ _ ht => execPref_laneStep_orderly ht) h)
  case fence => exact .next (perLane_orderly (fun _ _ _ _ ht => laneFence_orderly ht) h)
  case aadd | amin | amax | aand | aor | axor | axch | acas | aincb | aincw | adecz =>
    exact .next (perLane_orderly (fun _ _ _ _ ht => laneAtomic_orderly ht) h)
  case aaddl => exact .next (perLane_orderly (fun _ _ _ _ ht => laneAaddl_orderly ht) h)
  case radd | rmin | rmax => exact .next (perLane_orderly (fun _ _ _ _ ht => laneRed_orderly ht) h)
  case dqpush | dqpop | dqsteal | marm => exact .next (perLane_orderly (fun _ _ _ _ ht => sendSquare_orderly ht) h)
  case mwait => exact .next (perLane_orderly (fun _ _ _ _ ht => laneMwait_orderly ht) h)
  case snew | sfree | sins | sdel | shas | scard | suni | sint | sdif | scpy | sclr | snext | srank | sload | sstor | scost | srep =>
    exact .next (perLane_orderly (fun _ _ _ _ ht => laneSet_orderly ht) h)
  case macq => exact .next (matrixColl_orderly (fun _ _ _ _ _ _ ht => mxMacq_orderly ht) h)
  case mrel => exact .next (matrixColl_orderly (fun _ _ _ _ _ _ ht => mxMrel_orderly ht) h)
  case mcfg => exact .next (matrixColl_orderly (fun _ _ _ _ _ _ ht => mxMcfg_orderly ht) h)
  case mwld => exact .next (matrixColl_orderly (fun _ _ _ _ _ _ ht => mxMwld_orderly ht) h)
  case mstr | mspr => exact .next (matrixColl_orderly (fun _ _ _ _ _ _ ht => mxMstr_orderly ht) h)
  case mdrn => exact .next (matrixColl_orderly (fun _ _ _ _ _ _ ht => mxMdrn_orderly ht) h)
  case mzer => exact .next (matrixColl_orderly (fun _ _ _ _ _ _ ht => mxMzer_orderly ht) h)
  case mlda | msta => exact .next (matrixColl_orderly (fun _ _ _ _ _ _ ht => mxMove_orderly ht) h)
  case mcnt => exact .next (matrixColl_orderly (fun _ _ _ _ _ _ ht => mxMcnt_orderly ht) h)
  case msync => exact .next (matrixColl_orderly (fun _ _ _ _ _ _ ht => mxMsync_orderly ht) h)
  case mstat => exact .next (matrixColl_orderly (fun _ _ _ _ _ _ ht => mxMstat_orderly ht) h)
  case cpy => exact .next (perLane_orderly (fun _ _ _ _ ht => laneCpy_orderly ht) h)
  case cpyw => exact .next (perLane_orderly (fun _ _ _ _ ht => laneCpyw_orderly ht) h)
  case cpywClr => exact .next (perLane_orderly (fun _ _ _ _ ht => laneCpywClr_orderly ht) h)
  case cpyt | isgo | isstp | sweep => exact .next (perLane_orderly (fun _ _ _ _ ht => laneCmd_orderly ht) h)
  case chwp => exact .next (perLane_orderly (fun _ _ _ _ ht => laneChwp_orderly ht) h)
  case swait => exact .next (perLane_orderly (fun _ _ _ _ ht => laneSwait_orderly ht) h)
  case swaitAll => exact .next (perLane_orderly (fun _ _ _ _ ht => laneSwaitAll_orderly ht) h)
  case iscfg => exact .next (perLane_orderly (fun _ _ _ _ ht => laneIscfg_orderly ht) h)
  case itdef => exact .next (perLane_orderly (fun _ _ _ _ ht => laneItdef_orderly ht) h)
  case srd => exact .next (perLane_orderly (fun _ _ _ _ ht => laneSrd_orderly ht) h)
  case tryOpen => exact .next (perLane_orderly (fun _ _ _ _ ht => laneTry_orderly ht) h)
  case commit => exact .next (perLane_orderly (fun _ _ _ _ ht => laneCommit_orderly ht) h)
  case abortTry => exact .next (perLane_orderly (fun _ _ _ _ ht => laneAbort_orderly ht) h)
  case tstat => exact .next (perLane_orderly (fun _ _ _ _ ht => laneTstat_orderly ht) h)
  case qcfg => exact .next (perLane_orderly (fun _ _ _ _ ht => laneQcfg_orderly ht) h)
  case qlen => exact .next (perLane_orderly (fun _ _ _ _ ht => laneQlen_orderly ht) h)
  case qrst => exact .next (perLane_orderly (fun _ _ _ _ ht => laneQrst_orderly ht) h)
  case trap => exact .next (perLane_orderly (fun _ _ _ _ ht => laneTrap_orderly ht) h)
  case tret | tretSkip => exact .next (perLane_orderly (fun _ _ _ _ ht => laneTret_orderly ht) h)
  case tretEndg => exact execTretEndg_orderly h
  case tretEndr => exact .next (perLane_orderly (fun _ _ _ _ ht => laneTretEndr_orderly ht) h)
  case mfs => exact .next (perLane_orderly (fun _ _ _ _ ht => laneMfs_orderly ht) h)
  case mts => exact .next (perLane_orderly (fun _ _ _ _ ht => laneMts_orderly ht) h)
  case lnch => exact .next (perLane_orderly (fun _ _ _ _ ht => laneLnch_orderly ht) h)
  case ltrig => exact .next (perLane_orderly (fun _ _ _ _ ht => laneLtrig_orderly ht) h)
  case idem => exact .next (perLane_orderly (fun _ _ _ _ ht => goOn_orderly (clearIdem_orderly ht)) h)
  case bkpt => exact .next (bkptStop_orderly (perLane_orderly (fun _ _ _ _ ht => laneBkpt_orderly ht) h))
  case watch => exact .next (perLane_orderly (fun _ _ _ _ ht => laneWatch_orderly ht) h)
  case unwatch => exact .next (perLane_orderly (fun _ _ _ _ ht => laneUnwatch_orderly ht) h)
  case cntr => exact .next (perLane_orderly (fun _ _ _ _ ht => laneCntr_orderly ht) h)
  case cntrst => exact .next (perLane_orderly (fun _ _ _ _ ht => laneCntrst_orderly ht) h)
  case tmark => exact .next (perLane_orderly (fun _ _ _ _ ht => laneTmark_orderly ht) h)
  case faultWord => exact execFaultWord_orderly h
  case instructionFill => exact .next (woke_orderly (fillCache_orderly h))
  case overdue => exact execOverdue_orderly h
  case pathTimerExpiry => exact execPathTimerExpiry_orderly h
  case warpSwapOut => exact execWarpSwapOut_orderly h
  case activeSetAging => exact execActiveSetAging_orderly h
  case delivery => exact .next (woke_orderly (deliver_orderly h))
  case failedDelivery => exact .next (woke_orderly (failWith_orderly h))
  case trapDelivery => exact execTrapDelivery_orderly h
  case replay => exact .next (ite_orderly (woke_orderly (replayWarp_orderly h)) h)
  case watchdog => exact .next (ite_orderly (woke_orderly (watchdogFires_orderly h)) h)
  case admissionGrant => exact .next (ite_orderly (woke_orderly (grant_orderly h)) h)
  case admissionTimeout => exact .next (woke_orderly (admTimeout_orderly h))
  case mwaitTimeout => exact .next (woke_orderly (mwaitTimeout_orderly h))
  case writeApply => exact .next (woke_orderly (applyFlight_orderly h))
  case squareOperation => exact .next (ite_orderly (woke_orderly (squareStep_orderly h)) h)
  case setOperation => exact .next (ite_orderly (woke_orderly (setStep_orderly h)) h)
  case cqCommand => exact .next (woke_orderly (cqRecord_orderly h))
  case copyChunk => exact execCopyChunk_orderly h
  case sweepRetire => exact execSweepRetire_orderly h
  case indirectStreamPush => exact execIndirectStreamPush_orderly h
  case streamCompletion => exact execStreamCompletion_orderly h
  case cdEntryDelivery => exact .next (woke_orderly (cdMove_orderly h))
  case matrixCommand => exact .next (ite_orderly (woke_orderly (mxCommand_orderly h)) h)
  case nvmeCompletion => exact .next (woke_orderly (nvmeTake_orderly h))
  case nvmeTimeout => exact execNvmeTimeout_orderly h
  case remoteTimeout | fabricError => exact .next (woke_orderly (failRemote_orderly h))
  case launchRecord => exact execLaunchRecord_orderly h
  case gridReady => exact execGridReady_orderly h
  case priorityAging => exact .next (woke_orderly (foldl_orderly h (fun _ _ ht => setLq_orderly ht)))
  case gangPlacement => exact .next (woke_orderly (placeGang_orderly h))
  case gangRetire => exact execGangRetire_orderly h
  case launchPreempt => exact .next (ite_orderly (woke_orderly (preemptGang_orderly h)) h)
  case drainDeadline => exact execDrainDeadline_orderly h
  case save => exact execSave_orderly h
  case preempt => exact .next (ite_orderly h (woke_orderly (preemptCtx_orderly (ctxopStore_orderly h))))
  case kill => exact .next (ite_orderly h (woke_orderly (endCtx_orderly (ctxopStore_orderly h))))
  case destroy => exact .next (ite_orderly h (woke_orderly (destroyCtx_orderly h)))
  case xinv => exact execXinv_orderly h
  case xreplay => exact execXreplay_orderly h
  case promote => exact execPromote_orderly h
  case demote => exact execDemote_orderly h
  case engineResetStream => exact .next (woke_orderly (resetRecord_orderly (engrstDone_orderly (resetStream_orderly h))))
  case engineResetMatrix => exact .next (woke_orderly (resetRecord_orderly (engrstDone_orderly (resetMatrix_orderly h))))
  case engineResetSquare => exact execEngineResetSquare_orderly h
  case engineResetSkim => exact .next (woke_orderly (resetRecord_orderly (engrstDone_orderly (resetSkim_orderly h))))
  case mrst | pcieConventionalReset | functionLevelReset => exact .next (moduleReset_orderly h)
  case modctlAbort => exact execModctlAbort_orderly h
  case selfTest => exact .next (ite_orderly (woke_orderly (finishTest_orderly h)) h)
  case firmwareVerify => exact .next (ite_orderly (verified_orderly h) h)
  case squareReady => exact .next (woke_orderly (writeSqov_orderly h))
  case junctionAboveThot => exact .next (setHot_orderly h)
  case thermalHalt => exact .next (woke_orderly (setHalted_orderly (endGrids_orderly h)))
  case machineCheck => exact .next (woke_orderly (endGrids_orderly h))
  case attestationReport | identityCertificate => exact .next (woke_orderly (attDo_orderly h))
  case keyLoad => exact .next (ite_orderly h (woke_orderly (keyGo_orderly h)))
  case keyUnload => exact .next (ite_orderly (woke_orderly (keyGo_orderly h)) h)
  case halt => exact .next (woke_orderly (stopLanes_orderly h))
  case go => exact .next (woke_orderly (recheckAll_orderly (foldl_orderly h (fun _ _ ht => resume_orderly ht))))
  case dbgstep => exact execDbgstep_orderly h
  case dbgselRead => exact execDbgselRead_orderly h
  case dbgselWrite => exact execDbgselWrite_orderly h
  case dbgdump => exact execDbgdump_orderly h
  case trdropRead => exact .next (setMreg_orderly h)
  case registerWrite => exact .next (writeReg_orderly h)
  case junctionBelowThot => exact .next (woke_orderly (setHalted_orderly (setHot_orderly h)))
  case spuriousWake => exact .next (woke_orderly (spuriousTrigger_orderly h))
  case admresChange => exact .next (ite_orderly (woke_orderly (setMreg_orderly h)) h)
  case routingTableUpdate => exact .next (ite_orderly (woke_orderly (installTable_orderly h)) h)
  case badcmd => exact execBadcmd_orderly h

/-! ### The issue of a bundle -/

theorem onNext_orderly {o : Host.Outcome State Fault Refusal} {f : State → State} (ho : Lands o) (hf : ∀ t, orderly t → orderly (f t)) :
    Lands (onNext o f) := by
  cases ho with
  | next h => exact .next (hf _ h)
  | fault => exact .fault
  | refused => exact .refused

theorem beginIssue_orderly (h : orderly s) : orderly (beginIssue s b) := h

theorem refresh_orderly (h : orderly s) : orderly (refresh s) := h

theorem comparatorHits_orderly {hit : List LaneId} (h : orderly s) : orderly (comparatorHits s b n hit) := by
  unfold comparatorHits
  refine ite_orderly ?_ (formTraps_orderly h)
  refine foldl_orderly (stopLanes_orderly h) (fun _ _ ht => ?_)
  split
  · exact setLane_orderly ht
  · exact ht

theorem comparators_orderly {i : Instr} (h : orderly s) : orderly (comparators s b i).1 := by
  unfold comparators
  dsimp only
  split
  · exact h
  · split
    · exact h
    · split
      · exact stopRest_orderly (foldl_orderly h (fun _ _ ht => ite_orderly ht (comparatorHits_orderly ht)))
      · exact foldl_orderly h (fun _ _ ht => ite_orderly ht (comparatorHits_orderly ht))

theorem countBundle_orderly {s0 : State} {i : Instr} {issued : List LaneId} (hs : orderly s) : orderly (countBundle s0 s b i issued) :=
  ite_orderly hs (setCore_orderly hs)

theorem noteIssue_orderly {i : Instr} {issued : List LaneId} (h : orderly s) : orderly (noteIssue s b i issued) := by
  unfold noteIssue
  extract_lets ws goesOn s1 s2 g s3 x
  have h1 : orderly s1 := by
    refine foldl_orderly h (fun _ _ ht => ?_)
    split
    · exact setWarp_orderly ht
    · exact ht
  have h2 : orderly s2 := by
    refine foldl_orderly h1 (fun _ _ ht => ?_)
    split
    · exact setLane_orderly ht
    · exact ht
  clear_value s2
  have h3 : orderly s3 := by
    dsimp only [s3]
    split
    next e => exact keepSpad_orderly h2 (group_orderly h2 e) rfl
    · exact h2
  exact setCore_orderly h3

theorem stepTraps_orderly {due : List LaneId} (h : orderly s) : orderly (stepTraps s due) := by
  unfold stepTraps
  refine foldl_orderly ?_ (fun _ _ ht => foldl_orderly ht (fun _ _ ht => formTraps_orderly ht))
  refine foldl_orderly h (fun _ _ ht => ?_)
  split
  · exact setLane_orderly ht
  · exact ht

theorem settleSteps_orderly (h : orderly s) : orderly (settleSteps s core) := ite_orderly h (stopLanes_orderly (stepTraps_orderly h))

theorem endSteps_orderly {s0 : State} {issued : List LaneId} (hs : orderly s) : orderly (endSteps s0 s b issued) := by
  unfold endSteps
  refine stepTraps_orderly (foldl_orderly (stopLanes_orderly hs) (fun _ _ ht => ?_))
  split
  · exact setLane_orderly ht
  · exact ht

theorem yieldPaths_orderly {ks : List LaneId} (h : orderly s) : orderly (yieldPaths s ks) := foldl_orderly h (fun _ _ ht => yieldPath_orderly ht)

theorem dropToken_orderly (h : orderly s) : orderly (dropToken s k) := by
  unfold dropToken
  split
  · exact ite_orderly h (setLane_orderly (releaseUnits_orderly (dropRoads_orderly h)))
  · exact h

theorem endIssue_orderly {s0 : State} {i : Instr} (hs : orderly s) : orderly (endIssue s0 i s) := by
  unfold endIssue
  refine ite_orderly ?_ ?_
  · exact endSteps_orderly hs
  · exact endSteps_orderly (yieldPaths_orderly (foldl_orderly (noteIssue_orderly (countBundle_orderly hs)) (fun _ _ ht => dropToken_orderly ht)))

theorem blockAll_orderly (h : orderly s) : orderly (blockAll s b) := notIssued_orderly h

theorem issueBundle_orderly (h : orderly s) : Lands (issueBundle b s) := by
  unfold issueBundle
  split
  next e => exact .next (blockAll_orderly (fst_orderly (fillCache_orderly h) e))
  next e =>
    have ht := fst_orderly (fillCache_orderly h) e
    dsimp only
    split
    · exact .next (comparators_orderly ht)
    · exact onNext_orderly (exec_orderly _ (beginIssue_orderly (comparators_orderly ht))) (fun _ ht => endIssue_orderly ht)

theorem issueForced_orderly (h : orderly s) : Lands (issueForced b s) := by
  unfold issueForced
  split
  · exact .next h
  · exact onNext_orderly (issueBundle_orderly (tick_orderly h)) (fun _ ht => endCycle_orderly ht)

/-! ### Windows and registers -/

theorem windowWrite_orderly {bytes : List Byte} (h : orderly s) : orderly (windowWrite s off bytes) := by
  unfold windowWrite
  refine foldl_fst_orderly h (fun _ _ ht => ?_)
  split
  · exact hostDo_orderly ht
  · exact ht

theorem windowRead_orderly (h : orderly s) : orderly (windowRead s off n) := ite_orderly h (hostDo_orderly h)

theorem setError_orderly {line : Nat} {write : Bool} {c : Option Cause} (h : orderly s) : orderly (setError s line write c) := by
  unfold setError
  split
  · exact woke_orderly h
  · exact ite_orderly (woke_orderly h) h

theorem setBlockError_orderly {block : Nat} (h : orderly s) : orderly (setBlockError s d slot block) := ite_orderly h (keepView_orderly h rfl)

theorem portRecord_orderly {port : Nat} {timeout : Bool} (h : orderly s) : orderly (portRecord s port timeout) := ite_orderly h (emit_orderly h)

theorem andThen_orderly {o : Host.Outcome State Fault Refusal} {f : State → Host.Outcome State Fault Refusal} (ho : Lands o) (hf : ∀ t, orderly t →
    Lands (f t)) : Lands (andThen o f) := by
  cases ho with
  | next h => exact hf _ h
  | fault => exact .fault
  | refused => exact .refused

theorem evict_orderly {k : Nat} (h : orderly s) : orderly (evict s d k) := keepView_orderly h rfl

theorem barAct_orderly {r : MReg} {v : BitVec 64} (h : orderly s) : Lands (barAct r v s) := by
  unfold barAct
  split
  · dsimp only
    split
    · refine andThen_orderly ?_ (fun _ ht => exec_orderly .mrst ht)
      split
      · exact execModctlAbort_orderly h
      · exact .next h
    · split
      · exact execModctlAbort_orderly h
      · exact exec_orderly (.registerWrite _ _) h
  · split
    · exact exec_orderly .attestationReport h
    · split
      · exact exec_orderly .identityCertificate h
      · exact exec_orderly (.registerWrite _ _) h
  · split
    · split
      · exact exec_orderly .keyUnload h
      · exact exec_orderly .keyLoad h
    · exact exec_orderly (.registerWrite _ _) h
  · split
    · exact execXinv_orderly h
    · exact exec_orderly (.registerWrite _ _) h
  · split
    · exact execXreplay_orderly h
    · exact exec_orderly (.registerWrite _ _) h
  · exact exec_orderly (.squareReady _ _) h
  · split
    · split
      · exact exec_orderly (.engineResetStream _) h
      · exact exec_orderly (.engineResetMatrix _) h
      · exact execEngineResetSquare_orderly h
      · exact exec_orderly (.engineResetSkim _) h
      · exact exec_orderly (.registerWrite _ _) h
    · exact exec_orderly (.registerWrite _ _) h
  · split
    · exact exec_orderly (.preempt _) h
    · split
      · exact exec_orderly (.kill _) h
      · split
        · exact exec_orderly (.destroy _) h
        · exact exec_orderly (.registerWrite _ _) h
  · dsimp only
    split
    · refine andThen_orderly ?_ (fun _ ht => exec_orderly (.halt _) ht)
      split
      · exact exec_orderly (.go _) h
      · exact .next h
    · split
      · exact exec_orderly (.go _) h
      · exact exec_orderly (.registerWrite _ _) h
  · split
    · split
      · exact execDbgselWrite_orderly h
      · exact execDbgselRead_orderly h
    · exact exec_orderly (.registerWrite _ _) h
  · exact execDbgstep_orderly h
  · exact execDbgdump_orderly h
  · exact exec_orderly (.registerWrite _ _) h

theorem barWrite_orderly {size : Nat} (h : orderly s) : Lands (barWrite off size value s) := by
  unfold barWrite
  split
  · split
    · dsimp only
      split
      · exact .next h
      · refine onNext_orderly (barAct_orderly h) (fun _ ht => ?_)
        split
        · exact noteHalf_orderly ht
        · exact ht
    · exact .next h
  · exact .next h

theorem barRead_orderly {size : Nat} (h : orderly s) : Lands (barRead off size s) := by
  unfold barRead
  split
  · dsimp only
    split
    · split
      · exact exec_orderly (.trdropRead _) h
      · exact .next h
    · exact .next h
  · exact .next h

/-! ### The cycle of a core -/

theorem issuePart_orderly {part : Nat} (h : orderly s) : Lands (issuePart core part s) := by
  unfold issuePart
  split
  · exact issueBundle_orderly h
  · exact .next h

theorem issueParts_orderly {ps : List Nat} (h : orderly s) : Lands (issueParts core ps s) := by
  induction ps generalizing s with
  | nil => exact .next h
  | cons p ps ih => exact andThen_orderly (issuePart_orderly h) (fun t ht => ih (ite_orderly (refresh_orderly ht) ht))

theorem coreCycle_orderly (h : orderly s) : Lands (coreCycle core s) := by
  unfold coreCycle
  exact onNext_orderly (issueParts_orderly (tickEngines_orderly (tick_orderly (foldl_orderly (punctual_orderly (settleSteps_orderly h)) (fun _ _ ht
      => repathPart_orderly ht))))) (fun _ ht1 => endCycle_orderly ht1)

theorem cycleAll_orderly {cores : List Nat} (h : orderly s) : Lands (cycleAll cores s) := by
  induction cores generalizing s with
  | nil => exact .next h
  | cons c cs ih => exact andThen_orderly (coreCycle_orderly h) (fun _ => ih)

/-! ### What happens in a cycle of its own -/

/-- Every one of these steps keeps every memory in canonical form. -/
def AllOrderly (fs : List Act) : Prop := ∀ f ∈ fs, ∀ s, orderly s → Lands (f s)

theorem allOrderly_nil : AllOrderly [] := fun _ hf => nomatch hf

theorem allOrderly_cons {f : Act} {fs : List Act} (hf : ∀ s, orderly s → Lands (f s)) (h : AllOrderly fs) : AllOrderly (f :: fs) :=
  List.forall_mem_cons.2 ⟨hf, h⟩

theorem allOrderly_append {fs gs : List Act} (hf : AllOrderly fs) (hg : AllOrderly gs) : AllOrderly (fs ++ gs) := List.forall_mem_append.2 ⟨hf, hg⟩

theorem allOrderly_map {α : Type} {f : α → Act} {xs : List α} (hf : ∀ x s, orderly s → Lands (f x s)) : AllOrderly (xs.map f) :=
  List.forall_mem_map.2 (fun x _ => hf x)

theorem allOrderly_flatMap {α : Type} {f : α → List Act} {xs : List α} (hf : ∀ x, AllOrderly (f x)) : AllOrderly (xs.flatMap f) := by
  intro g hg
  obtain ⟨x, _, hx⟩ := List.mem_flatMap.1 hg
  exact hf x g hx

theorem allOrderly_ite {c : Prop} [Decidable c] {fs gs : List Act} (hf : AllOrderly fs) (hg : AllOrderly gs) :
    AllOrderly (if c then fs else gs) := by
  split
  · exact hf
  · exact hg

theorem laneActs_orderly : AllOrderly (laneActs s k l) := by
  refine allOrderly_append (allOrderly_map (fun p t ht => ?_)) (allOrderly_cons (fun _ ht => exec_orderly (.mwaitTimeout _) ht) allOrderly_nil)
  cases p.1.fail with
  | some f => exact exec_orderly (.failedDelivery _ _ _) ht
  | none =>
    dsimp only
    split
    · exact exec_orderly (.remoteTimeout _ _) ht
    · exact exec_orderly (.delivery _ _) ht

theorem engineActs_orderly {c : Nat} {x : Core} : AllOrderly (engineActs c x) := by
  refine allOrderly_append (allOrderly_flatMap fun k => allOrderly_append (allOrderly_map fun _ _ ht => execCopyChunk_orderly ht) ?_) ?_
  · exact allOrderly_cons (fun _ ht => execSweepRetire_orderly ht) (allOrderly_cons (fun _ ht => execIndirectStreamPush_orderly ht)
        (allOrderly_cons (fun _ ht => execCopyChunk_orderly ht) (allOrderly_cons (fun _ ht => execNvmeTimeout_orderly ht) (allOrderly_cons (fun _
        ht => execStreamCompletion_orderly ht) allOrderly_nil))))
  · exact allOrderly_cons (fun _ ht => exec_orderly (.cdEntryDelivery _) ht) (allOrderly_cons (fun _ ht => exec_orderly (.matrixCommand _) ht)
        allOrderly_nil)

theorem dieActs_orderly : AllOrderly (dieActs s d) :=
  allOrderly_append (allOrderly_append (allOrderly_cons (fun _ ht => exec_orderly (.admissionGrant _) ht) allOrderly_nil)
    (allOrderly_map fun _ _ ht => exec_orderly (.admissionTimeout _ _) ht)) (allOrderly_map fun _ _ ht => exec_orderly (.writeApply _ _) ht)

theorem gangActs_orderly : AllOrderly (gangActs s) := by
  refine allOrderly_append (allOrderly_append (allOrderly_append (allOrderly_flatMap fun p => ?_) (allOrderly_flatMap fun q => ?_)) ?_) ?_
  · exact allOrderly_cons (fun _ ht => execGangRetire_orderly ht) (allOrderly_cons (fun _ ht => execDrainDeadline_orderly ht) (allOrderly_cons (fun
        _ ht => execSave_orderly ht) allOrderly_nil))
  · exact allOrderly_cons (fun _ ht => execLaunchRecord_orderly ht) (allOrderly_cons (fun _ ht => execGridReady_orderly ht) allOrderly_nil)
  · exact allOrderly_flatMap fun _ => allOrderly_map fun _ _ ht => exec_orderly (.gangPlacement _ _) ht
  · exact allOrderly_flatMap fun _ => allOrderly_map fun _ _ ht => exec_orderly (.launchPreempt _ _) ht

theorem crossingActs_orderly : AllOrderly (crossingActs s) := by
  refine allOrderly_append (allOrderly_flatMap fun p => ?_) (allOrderly_flatMap fun p => ?_)
  · exact allOrderly_cons (fun _ ht => execTrapDelivery_orderly ht) (allOrderly_cons (fun _ ht => exec_orderly (.watchdog _) ht) allOrderly_nil)
  · exact allOrderly_cons (fun _ ht => exec_orderly (.replay _) ht) (allOrderly_cons (fun _ ht => execOverdue_orderly ht) (allOrderly_cons (fun _
        ht => execPathTimerExpiry_orderly ht) (allOrderly_cons (fun _ ht => execWarpSwapOut_orderly ht) (allOrderly_cons (fun _ ht =>
        execActiveSetAging_orderly ht) allOrderly_nil))))

theorem keyActs_orderly : AllOrderly (if s.mreg ⟨.klgo, 0, 0⟩ = 0 then [] else [execKeyLoad, execKeyUnload]) :=
  allOrderly_ite allOrderly_nil
    (allOrderly_cons (fun _ ht => exec_orderly .keyLoad ht) (allOrderly_cons (fun _ ht => exec_orderly .keyUnload ht) allOrderly_nil))

theorem attestActs_orderly :
    AllOrderly (if s.mreg ⟨.attgo, 0, 0⟩ = 1 then [execAttestationReport]
      else if s.mreg ⟨.attgo, 0, 0⟩ = 2 then [execIdentityCertificate] else []) :=
  allOrderly_ite (allOrderly_cons (fun _ ht => exec_orderly .attestationReport ht) allOrderly_nil)
    (allOrderly_ite (allOrderly_cons (fun _ ht => exec_orderly .identityCertificate ht) allOrderly_nil) allOrderly_nil)

theorem skimActs_orderly : AllOrderly [execPromote 0, execPromote 1, execDemote 0, execDemote 1, execBadcmd 0, execBadcmd 1] :=
  allOrderly_append (fs := [execPromote 0, execPromote 1]) (allOrderly_map (f := execPromote) (xs := [0, 1]) fun _ _ ht => execPromote_orderly ht)
    (allOrderly_append (fs := [execDemote 0, execDemote 1]) (allOrderly_map (f := execDemote) (xs := [0, 1]) fun _ _ ht => execDemote_orderly ht)
      (allOrderly_map (f := execBadcmd) (xs := [0, 1]) fun _ _ ht => execBadcmd_orderly ht))

theorem nvmeActs_orderly {xs : List ((Nat × Nat) × Nvme)} :
    AllOrderly (xs.filterMap (fun p => (nvmeEntry s p.1).map (fun w => execNvmeCompletion p.1.1 p.1.2 (BitVec.ofNat 16 w)))) := by
  intro f hf
  obtain ⟨p, _, hp⟩ := List.mem_filterMap.1 hf
  obtain ⟨w, _, rfl⟩ := Option.map_eq_some_iff.1 hp
  exact fun _ ht => exec_orderly (.nvmeCompletion _ _ _) ht

theorem dueActs_orderly : AllOrderly (dueActs s) := by
  refine allOrderly_append (allOrderly_append (allOrderly_append (allOrderly_append (allOrderly_append (allOrderly_append
    (allOrderly_append (allOrderly_append ?_ ?_) ?_) ?_) ?_) ?_) ?_) ?_) ?_
  · exact allOrderly_flatMap fun _ => laneActs_orderly
  · exact crossingActs_orderly
  · exact allOrderly_flatMap fun _ => dieActs_orderly
  · exact nvmeActs_orderly
  · exact allOrderly_flatMap fun _ => engineActs_orderly
  · exact gangActs_orderly
  · exact keyActs_orderly
  · exact attestActs_orderly
  · exact skimActs_orderly

theorem requestActs_orderly {away : List Nat} :
    AllOrderly ((List.range 4).flatMap (fun d => [execSquareOperation d, execSetOperation d]) ++ away.map execSquareOperation) := by
  refine allOrderly_append (allOrderly_flatMap fun d => ?_) (allOrderly_map fun _ _ ht => exec_orderly (.squareOperation _) ht)
  exact allOrderly_cons (fun _ ht => exec_orderly (.squareOperation _) ht) (allOrderly_cons (fun _ ht => exec_orderly (.setOperation _) ht)
      allOrderly_nil)

theorem auto_orderly (h : orderly s) : Lands (auto s) := by
  unfold auto
  split
  next f e => exact dueActs_orderly f (List.mem_of_find?_eq_some e) s h
  · dsimp only
    split
    next f e => exact requestActs_orderly f (List.mem_of_find?_eq_some e) s h
    · exact onNext_orderly (cycleAll_orderly h) (fun _ ht => ioCycle_orderly ht)

theorem choose_orderly {c : Choice} (h : orderly s) : Lands (choose c s) := by
  unfold choose
  split
  · split
    · exact .fault
    · split
      · exact exec_orderly _ h
      · exact .next h
  · split
    · exact .fault
    · split
      · exact .next h
      · exact onNext_orderly (coreCycle_orderly h) (fun _ ht => ite_orderly ht ht)
  · exact .next (woke_orderly (hostDo_orderly h))
  · exact .next (hostDo_orderly h)
  · exact barWrite_orderly h
  · exact barRead_orderly h
  · exact .next (windowWrite_orderly h)
  · exact .next (windowRead_orderly h)
  · split
    · exact .next h
    · exact .next (ite_orderly (ioCycle_orderly h) (ioCycle_orderly h))
  · split
    · exact .fault
    · exact .next (evict_orderly h)
  · exact .next (setError_orderly h)
  · split
    · exact .fault
    · exact .next (setBlockError_orderly h)
  · split
    · exact .fault
    · exact .next (portRecord_orderly h)

theorem step_orderly (h : orderly s) : Lands (step s) := by
  unfold step
  split
  · exact issueForced_orderly h
  · split
    · exact choose_orderly (refresh_orderly (settleWork_orderly h))
    · exact auto_orderly (refresh_orderly (settleWork_orderly h))

end

/-- Settles O59: every function that a step goes through keeps the canonical form, each by the lemmas of the functions it calls; only a byte
write (`memWrite_wf`), a flight applied (`applyCells_wf`), a placed group and a module reset make a memory at all. -/
theorem memoriesStayCanonical : Obligations.MemoriesStayCanonical := by
  unfold Obligations.MemoriesStayCanonical
  exact fun s t h e => (step_orderly h).orderly e

end Sys2Proof.Machine
end

section
/-! PROOFS. Reset and bring-up: the registers that the emission of records leaves, the bytes that a reset keeps, the functions that come up
(spec/22 R407 to R411, R418). -/

namespace Sys2Proof.Machine

open Sys2Proof.Claims

/-! ### What writes and records leave alone -/

/-- What every step of a fold leaves, the fold leaves. -/
theorem foldl_keeps {σ α β : Type} (p : σ → β) {f : σ → α → σ} (hf : ∀ t x, p (f t x) = p t) (xs : List α) (s : σ) : p (xs.foldl f s) = p s := by
  induction xs generalizing s with
  | nil => rfl
  | cons x xs ih => exact (ih (f s x)).trans (hf s x)

/-- A reading of the state that sees neither dies, cores, lanes, records and writes on their way, nor the heads and drop counters of the rings: what
writes and records leave alone. -/
structure Blind {β : Type} (p : State → β) : Prop where
  fields : ∀ (s : State) ds cs ls io rs fs ws hv hs hg hw ms,
    p { s with dies := ds, cores := cs, lanes := ls, seqIo := io, recs := rs, inflight := fs, devWait := ws, hostVec := hv, hostSeen := hs,
               hostGot := hg, hostWait := hw, msix := ms } = p s
  trhead : ∀ (s : State) d v, p (s.setMreg ⟨.trhead, d, 0⟩ v) = p s
  trdrop : ∀ (s : State) d v, p (s.setMreg ⟨.trdrop, d, 0⟩ v) = p s
  fbhead : ∀ (s : State) d v, p (s.setMreg ⟨.fbhead, d, 0⟩ v) = p s

theorem blind_grids : Blind State.grids := ⟨fun _ _ _ _ _ _ _ _ _ _ _ _ _ => rfl, fun _ _ _ => rfl, fun _ _ _ => rfl, fun _ _ _ => rfl⟩

/-- A register other than the heads and the drop counters of the rings, and the heads of the Skim queues. -/
def steady (r : MReg) : Bool := r.name != .trhead && r.name != .trdrop && r.name != .fbhead && r.name != .skhead

theorem mreg_setMreg_name {r q : MReg} (s : State) (v : BitVec 64) (h : r.name ≠ q.name) : (s.setMreg q v).mreg r = s.mreg r :=
  State.mreg_setMreg_ne s q v (fun e => h (congrArg MReg.name e))

theorem steady_names {r : MReg} (hr : steady r = true) : r.name ≠ .trhead ∧ r.name ≠ .trdrop ∧ r.name ≠ .fbhead ∧ r.name ≠ .skhead := by
  simpa [steady, and_assoc] using hr

theorem blind_mreg {r : MReg} (hr : steady r = true) : Blind (·.mreg r) := by
  obtain ⟨h1, h2, h3, _⟩ := steady_names hr
  exact ⟨fun _ _ _ _ _ _ _ _ _ _ _ _ _ => rfl, fun s _ v => mreg_setMreg_name s v h1, fun s _ v => mreg_setMreg_name s v h2,
    fun s _ v => mreg_setMreg_name s v h3⟩

section
variable {β : Type} {p : State → β} (hp : Blind p) (s : State)
include hp

theorem blind_setDie (d : Nat) (x : Die) : p (s.setDie d x) = p s :=
  hp.fields s _ s.cores s.lanes s.seqIo s.recs s.inflight s.devWait s.hostVec s.hostSeen s.hostGot s.hostWait s.msix

theorem blind_setCore (c : Nat) (x : Core) : p (s.setCore c x) = p s :=
  hp.fields s s.dies _ s.lanes s.seqIo s.recs s.inflight s.devWait s.hostVec s.hostSeen s.hostGot s.hostWait s.msix

theorem blind_lanes (ls : List (LaneId × Lane)) : p { s with lanes := ls } = p s :=
  hp.fields s s.dies s.cores ls s.seqIo s.recs s.inflight s.devWait s.hostVec s.hostSeen s.hostGot s.hostWait s.msix

theorem blind_recs (rs : List Record) : p { s with recs := rs } = p s :=
  hp.fields s s.dies s.cores s.lanes s.seqIo rs s.inflight s.devWait s.hostVec s.hostSeen s.hostGot s.hostWait s.msix

theorem blind_inflight (fs : List FlatWrite) : p { s with inflight := fs } = p s :=
  hp.fields s s.dies s.cores s.lanes s.seqIo s.recs fs s.devWait s.hostVec s.hostSeen s.hostGot s.hostWait s.msix

theorem blind_devWait (ws : List (Nat × Nat × List Byte)) : p { s with devWait := ws } = p s :=
  hp.fields s s.dies s.cores s.lanes s.seqIo s.recs s.inflight ws s.hostVec s.hostSeen s.hostGot s.hostWait s.msix

theorem blind_bumpSeq (u : Source) : p (bumpSeq s u) = p s := by
  cases u with
  | lane c | stream c | matrix c => exact blind_setCore hp s c _
  | square d | adm d | launch d | trace d => exact blind_setDie hp s d _
  | io u => exact hp.fields s s.dies s.cores s.lanes _ s.recs s.inflight s.devWait s.hostVec s.hostSeen s.hostGot s.hostWait s.msix

theorem blind_emit (u : Source) (kind : Nat) (body : List RField) : p (emit s u kind body) = p s :=
  (blind_recs hp _ _).trans (blind_bumpSeq hp s u)

theorem blind_applyRaw (d : Nat) (w : FlatWrite) : p (applyRaw s d w) = p s := (blind_lanes hp _ _).trans (blind_setDie hp s d _)

theorem blind_rawWrite (d : Nat) (cells : List (Nat × Byte)) (tag : WTag) : p (rawWrite s d cells tag) = p s :=
  (blind_applyRaw hp _ d _).trans (blind_inflight hp s _)

theorem blind_devWrite (d pa : Nat) (bs : List Byte) : p (devWrite s d pa bs) = p s := by
  unfold devWrite
  split
  · exact blind_devWait hp s _
  · exact blind_rawWrite hp s d _ _
  · rfl

theorem blind_retryDevice : p (retryDevice s) = p s :=
  (foldl_keeps p (fun t _ => blind_devWrite hp t _ _ _) _ _).trans (blind_devWait hp s [])

theorem blind_ioWrite (pa : Nat) (bs : List Byte) : p (ioWrite s pa bs) = p s := by
  refine foldl_keeps (fun a : State × Nat => p a.1) (fun a q => ?_) _ (s, 0)
  split
  · exact blind_devWrite hp a.1 _ _ _
  · rfl

theorem blind_traceDrop (d n : Nat) : p (traceDrop s d n) = p s := (blind_setDie hp _ d _).trans (hp.trdrop s d _)

theorem blind_traceWrites (d : Nat) (rs : List Record) : p (traceWrites d rs s) = p s := by
  induction rs generalizing s with
  | nil => exact blind_setDie hp s d _
  | cons rec rs ih =>
    unfold traceWrites
    split
    · exact (ih _).trans ((hp.trhead _ d _).trans (blind_devWrite hp s d _ _))
    · exact blind_setDie hp s d _
    · exact (ih _).trans (blind_traceDrop hp s d 1)

theorem blind_traceFlush (d : Nat) : p (traceFlush s d) = p s := blind_traceWrites hp s d _

theorem blind_tracePut (d : Nat) (rec : Record) : p (tracePut s d rec) = p s := blind_traceWrites hp s d _

theorem blind_toRing (d : Nat) (rs : List Record) : p (toRing s d rs) = p s := by
  have hall : ∀ t : State, p (rs.foldl (fun s r => tracePut s d r) t) = p t :=
    foldl_keeps p (fun t x => blind_tracePut hp t d x) rs
  unfold toRing
  extract_lets room rec s1 s2 y s3
  have h3 : p s3 = p s :=
    (blind_setDie hp _ d _).trans ((blind_tracePut hp _ d rec).trans ((blind_recs hp s1 _).trans (blind_bumpSeq hp s _)))
  clear_value s3
  split
  · exact blind_traceDrop hp s d _
  · split
    · split
      · exact (hall s3).trans h3
      · exact (blind_traceDrop hp s3 d _).trans h3
    · split
      · exact hall s
      · exact blind_traceDrop hp s d _

theorem blind_sealCount (d ctx : Nat) (text : List Byte) (n : Nat) (force : Bool) : p (sealCount s d ctx text n force) = p s := by
  unfold sealCount
  extract_lets x old acc h sig r0 s1 parts
  have h1 : p s1 = p s := blind_bumpSeq hp s _
  clear_value s1 r0 parts
  split
  · exact blind_setDie hp s d _
  · split
    next t rs e =>
      have ht : p t = p s1 :=
        (congrArg (fun a => p a.1) e).symm.trans
          (foldl_keeps (fun a : State × List Record => p a.1) (fun a _ => blind_bumpSeq hp a.1 (.trace d)) parts _)
      exact (foldl_keeps p (fun t x => blind_toRing hp t d [x]) rs _).trans
        ((blind_recs hp _ _).trans ((blind_setDie hp t d _).trans (ht.trans h1)))

theorem blind_stippleRecord (d : Nat) (tag : WTag) (region addr old new bytes : Nat) (dropped spad : Bool) :
    p (stippleRecord s d tag region addr old new bytes dropped spad) = p s := by
  unfold stippleRecord emitRing
  extract_lets ids ex flags rec s1 s2
  have h2 : p s2 = p s := (blind_toRing hp _ d _).trans ((blind_recs hp s1 _).trans (blind_bumpSeq hp s _))
  split
  · exact h2
  · exact (blind_sealCount hp s2 d _ _ _ _).trans h2

theorem blind_applyWrite (d : Nat) (w : FlatWrite) : p (applyWrite s d w) = p s := by
  unfold applyWrite
  split
  · exact blind_applyRaw hp s d w
  · exact (foldl_keeps p (fun t _ => blind_stippleRecord hp t _ _ _ _ _ _ _ _ _) _ (applyRaw s d w)).trans (blind_applyRaw hp s d w)

theorem blind_flatWrite (d : Nat) (cells : List (Nat × Byte)) (tag : WTag) : p (flatWrite s d cells tag) = p s := by
  unfold flatWrite
  split
  · rfl
  · extract_lets dom x vec w others s1
    exact (blind_applyWrite hp s1 d w).trans (blind_inflight hp s _)

theorem blind_drainTo (d : Nat) : p (drainTo s d) = p s :=
  (foldl_keeps p (fun t w => blind_applyWrite hp t d w) _ _).trans (blind_inflight hp s _)

theorem blind_drainAll : p (drainAll s) = p s := by
  have hw : ∀ (t : State) (w : FlatWrite), p (applyWrite t w.dst w) = p t := fun t w => blind_applyWrite hp t w.dst w
  exact (foldl_keeps p hw s.inflight _).trans (blind_inflight hp s [])

theorem blind_walkSeen (d ctx : Nat) (va : Addr) : p (walkSeen s d ctx va) = p s := by
  unfold walkSeen
  dsimp only
  split
  · exact blind_drainTo hp s d
  · rfl

theorem blind_translate (d ctx : Nat) (va : Addr) (k : Access) : p (translate s d ctx va k).1 = p s := by
  unfold translate
  extract_lets page hit judge s1
  have hj : ∀ t e n, (judge t e n).1 = t := by
    intro t e n
    dsimp only [judge]
    split <;> rfl
  have h1 : p s1 = p s := blind_walkSeen hp s d ctx va
  clear_value hit judge s1
  split
  · rw [hj]
  · split
    · rw [hj]
      exact (blind_setDie hp s1 d _).trans h1
    all_goals exact h1

theorem blind_vplace (d ctx : Nat) (va : Addr) (k : Access) : p (vplace s d ctx va k).1 = p s := by
  have ht := blind_translate hp s d ctx va k
  unfold vplace vplaceAs
  split
  next e =>
    rw [e] at ht
    dsimp only
    split
    · exact ht
    · exact ht
    · split <;> exact ht
    · exact ht
  all_goals next e => rw [e] at ht; exact ht

theorem blind_fbPut (d : Nat) (rec : Record) : p (fbPut s d rec) = p s :=
  (hp.fbhead _ d _).trans (blind_devWrite hp s d _ _)

theorem blind_fbWrite (d : Nat) (rs : List Record) : p (fbWrite d rs s) = p s := by
  induction rs generalizing s with
  | nil => exact blind_setDie hp s d _
  | cons rec rs ih =>
    unfold fbWrite
    split
    · exact (ih _).trans (blind_fbPut hp s d rec)
    · exact blind_setDie hp s d _

theorem blind_fbFlush (d : Nat) : p (fbFlush s d) = p s := blind_fbWrite hp s d _

theorem blind_postFault (d : Nat) (u : Source) (f : FbInfo) : p (postFault s d u f) = p s := by
  unfold postFault
  extract_lets hidden rec s1 s2 y s3
  have h2 : p s2 = p s := (blind_recs hp s1 _).trans (blind_bumpSeq hp s u)
  have h3 : p s3 = p s := by
    dsimp only [s3]
    split
    · exact (blind_fbPut hp s2 d rec).trans h2
    · exact (blind_setDie hp s2 d _).trans h2
  split
  · exact h3
  · exact (blind_sealCount hp s3 d _ _ _ _).trans h3


section
variable {gk : Nat} (hg : ∀ (t : State) (g h : Grid), t.grid? gk = some g → h.ended = g.ended → p (t.setGrid gk h) = p t)
include hg

theorem blind_wordDone {g : Grid} (e : s.grid? gk = some g) (status : Nat) (lost : Bool) : p (wordDone s gk g status lost) = p s := by
  unfold wordDone
  extract_lets s1 s2
  have h1 : p s1 = p s := hg s g _ e rfl
  split
  · exact (hp.fields s2 s2.dies s2.cores s2.lanes s2.seqIo s2.recs s2.inflight s2.devWait s2.hostVec s2.hostSeen s2.hostGot s2.hostWait _).trans
      ((blind_emit hp s1 _ _ _).trans h1)
  · exact h1

theorem blind_tryWord : p (tryWord s gk) = p s := by
  unfold tryWord
  split
  · rfl
  next g eg =>
    split
    · rfl
    · extract_lets d s1 seq
      have h1 : p s1 = p s := blind_drainTo hp s d
      have hv := (blind_vplace hp s1 d g.ctx (BitVec.ofNat 64 g.cpl) .store).trans h1
      have e1 : s1.grids = s.grids := blind_drainTo blind_grids s d
      have ev := (blind_vplace blind_grids s1 d g.ctx (BitVec.ofNat 64 g.cpl) .store).trans e1
      have stands : ∀ t : State, t.grids = s.grids → t.grid? gk = some g := fun t et => (congrArg (mfind · gk) et).trans eg
      clear_value s1
      split
      · exact blind_wordDone hp s hg eg _ _
      · split
        · exact blind_wordDone hp s hg eg _ _
        · split
          next e =>
            rw [e] at hv ev
            refine (blind_wordDone hp _ hg (stands _ ((blind_flatWrite blind_grids _ d _ _).trans ev)) _ _).trans ?_
            exact (blind_flatWrite hp _ d _ _).trans hv
          next e =>
            rw [e] at hv ev
            split
            · exact (blind_postFault hp _ d _ _).trans (Eq.trans (hg _ g _ (stands _ ev) rfl) hv)
            · exact (blind_wordDone hp _ hg (stands _ ev) _ _).trans hv
          next e =>
            rw [e] at hv
            exact hv
          next e =>
            rw [e] at hv ev
            exact (blind_wordDone hp _ hg (stands _ ev) _ _).trans hv

theorem blind_tryWords : p (tryWords s gk) = p s := by
  unfold tryWords
  split
  · rfl
  · refine foldl_keeps p (fun t _ => ?_) _ s
    split
    · split
      · rfl
      · exact blind_tryWord hp t hg
    · rfl

end

theorem blind_host (hv hs : Vec) (hg : Option (List Byte)) (hw : List HostOp) :
    p { s with hostVec := hv, hostSeen := hs, hostGot := hg, hostWait := hw } = p s :=
  hp.fields s s.dies s.cores s.lanes s.seqIo s.recs s.inflight s.devWait hv hs hg hw s.msix

theorem blind_hostWrite (hw : ∀ t, p (woke t) = p t) (loc : Nat) (bs : List Byte) : p (hostWrite s loc bs) = p s := by
  unfold hostWrite
  extract_lets d s1 s2
  have h1 : p s1 = p s := by
    dsimp only [s1]
    split
    · rfl
    · exact blind_drainTo hp s d
  exact (hw _).trans ((blind_host hp s2 _ s2.hostSeen s2.hostGot s2.hostWait).trans ((blind_flatWrite hp s1 d _ _).trans h1))

theorem blind_hostRead (q : Nat × Nat) : p (hostRead s q) = p s := by
  unfold hostRead
  extract_lets d s1
  have h1 : p s1 = p s := by
    dsimp only [s1]
    split
    · rfl
    · exact blind_drainTo hp s d
  exact (blind_host hp s1 s1.hostVec _ _ s1.hostWait).trans h1

theorem blind_hostTry (hw : ∀ t, p (woke t) = p t) (op : HostOp) {t : State} (e : hostTry s op = some t) : p t = p s := by
  unfold hostTry at e
  split at e
  · split at e
    · cases e
      exact blind_hostWrite hp s hw _ _
    · cases e
      rfl
    · cases e
  · dsimp only at e
    split at e
    · cases e
    · split at e
      · cases e
        exact blind_host hp s s.hostVec s.hostSeen none s.hostWait
      · cases e
        exact (foldl_keeps p (fun t q => blind_hostRead hp t q) _ _).trans (blind_host hp s s.hostVec s.hostSeen (some []) s.hostWait)

theorem blind_hostDo (hw : ∀ t, p (woke t) = p t) (op : HostOp) : p (hostDo s op) = p s := by
  unfold hostDo
  split
  next e => exact blind_hostTry hp s hw op (Option.ite_none_left_eq_some.1 e).2
  · exact blind_host hp s s.hostVec s.hostSeen s.hostGot _

theorem blind_retryHost (hw : ∀ t, p (woke t) = p t) : p (retryHost s) = p s := by
  unfold retryHost
  exact (foldl_keeps p (fun t op => blind_hostDo hp t hw op) s.hostWait _).trans (blind_host hp s s.hostVec s.hostSeen s.hostGot [])

end

/-- What a function's coming up sets going changes no register but the rings' own. -/
theorem mreg_retryWaits (s : State) {r : MReg} (hr : steady r = true) : (retryWaits s).mreg r = s.mreg r := by
  have hp := blind_mreg hr
  have hflush : ∀ t d, (traceFlush (fbFlush t d) d).mreg r = t.mreg r := fun t d => (blind_traceFlush hp _ d).trans (blind_fbFlush hp t d)
  calc (retryWaits s).mreg r = _ := blind_retryHost hp _ (fun _ => rfl)
    _ = _ := foldl_keeps (f := tryWords) (fun t : State => t.mreg r) (fun t gk => blind_tryWords hp t (fun _ _ _ _ _ => rfl)) _ _
    _ = _ := foldl_keeps (f := fun t d => traceFlush (fbFlush t d) d) (fun t : State => t.mreg r) hflush _ _
    _ = _ := blind_retryDevice hp s

theorem mreg_skDone (s : State) {r : MReg} (hr : steady r = true) (e : Nat) (c : SkCmd) (status entry : Nat) :
    (skDone s e c status entry).mreg r = s.mreg r := by
  have hp := blind_mreg hr
  unfold skDone
  extract_lets head index ok s1 s2
  have h1 : s1.mreg r = s.mreg r := by
    dsimp only [s1]
    split
    · exact blind_ioWrite hp s _ _
    · rfl
  have h2 : s2.mreg r = s.mreg r := (blind_emit hp s1 _ _ _).trans h1
  exact (mreg_setMreg_name _ _ (steady_names hr).2.2.2).trans h2

theorem mreg_resetSkim (s : State) {r : MReg} (hr : steady r = true) (e : Nat) : (resetSkim s e).mreg r = s.mreg r := by
  unfold resetSkim
  split
  · split
    · rfl
    · exact mreg_skDone s hr e _ _ _
  · rfl

/-! ### Bits and fields of a register -/

/-- A one-bit field that is set reads as set. -/
theorem flg_setFld {b : Nat} (v : BitVec 64) (hb : b < 64) : flg (setFld v b b 1) b = true := by
  have hdiv : (v.toNat - fld v b b * 2 ^ b + 1 % 2 * 2 ^ b) / 2 ^ b = v.toNat / 2 ^ b - v.toNat / 2 ^ b % 2 + 1 := by
    have hf : fld v b b = v.toNat / 2 ^ b % 2 := by simp [fld, Nat.shiftRight_eq_div_pow]
    rw [hf, Nat.add_mul_div_right _ _ (Nat.two_pow_pos b), Nat.mul_comm, Nat.sub_mul_div]
  simp only [flg, setFld, Nat.add_sub_cancel_left, pow_one, BitVec.getLsbD_ofNat, hb, decide_true, Bool.true_and,
    Nat.testBit_eq_decide_div_mod_eq, decide_eq_true_eq, hdiv]
  omega

/-- A write of SQOVSIZE stores its 24 bits. -/
theorem fld_regNew_sqovsize (old v : BitVec 64) : fld (regNew old .sqovsize v.toNat) 23 0 = fld v 23 0 := by
  have hkeep : 18446744073692774400 % 2 ^ 24 = 0 := by decide
  calc fld (regNew old .sqovsize v.toNat) 23 0
      = (old.toNat &&& 18446744073692774400 ||| v.toNat &&& (2 ^ 24 - 1)) % 2 ^ 24 := by simp [fld, regNew, clampReg, rwBits, bitsMask]
    _ = v.toNat % 2 ^ 24 := by
      rw [Nat.or_mod_two_pow, Nat.and_mod_two_pow, hkeep, Nat.and_zero, Nat.zero_or, Nat.and_two_pow_sub_one_eq_mod, Nat.mod_mod]
    _ = fld v 23 0 := rfl

/-! ### A function that comes up -/

theorem readyBit_setReady (s : State) {b : Nat} (hb : b < 64) : readyBit (setReady s b) b = true := by
  unfold readyBit setReady
  rw [mreg_retryWaits _ (by decide), State.mreg_setMreg_same]
  exact flg_setFld _ hb

theorem failBit_setFail (s : State) {b : Nat} (hb : b < 64) : failBit (setFail s b) b = true := by
  unfold failBit setFail
  rw [mreg_retryWaits _ (by decide), State.mreg_setMreg_same]
  exact flg_setFld _ hb

theorem readyBit_setFail (s : State) (b c : Nat) : readyBit (setFail s b) c = readyBit s c := by
  unfold readyBit setFail
  rw [mreg_retryWaits _ (by decide), State.mreg_setMreg_ne _ _ _ (by decide)]

theorem mreg_setReady (s : State) (b : Nat) {r : MReg} (hr : steady r = true) (hn : r ≠ ⟨.ready, 0, 0⟩) : (setReady s b).mreg r = s.mreg r :=
  (mreg_retryWaits _ hr).trans (State.mreg_setMreg_ne _ _ _ hn)

theorem untested_lt {s : State} {b : Nat} (h : untested s b = true) : b < 64 := by
  simp only [untested, mapBit, Bool.and_eq_true, decide_eq_true_eq] at h
  omega

theorem untested_unready {s : State} {b : Nat} (h : untested s b = true) : readyBit s b = false := by
  simp only [untested, Bool.and_eq_true, Bool.not_eq_true'] at h
  exact h.1.1.2

theorem execSelfTest_untested {s : State} {b : Nat} (h : untested s b = true) (passed : Bool) :
    exec (.selfTest b passed) s = .next (woke (finishTest s b passed)) := by
  change Host.Outcome.next _ = _
  rw [if_pos h]

/-! ### The boot ROM's report and SQOVSIZE -/

theorem mreg_verified_fwstat (s : State) (r : Nat) (svn : BitVec 32) :
    (verified s r svn).mreg ⟨.fwstat, 0, 0⟩ = BitVec.ofNat 64 (r % 16 + (if r = 0 then svn.toNat * 2 ^ 32 else 0)) := by
  unfold verified
  dsimp only
  split
  · rw [mreg_setReady _ _ (by decide) (by decide), State.mreg_setMreg_same]
  · exact State.mreg_setMreg_same ..

theorem exec_firmwareVerify_due {s : State} (h1 : readyBit s 1 = false) (h2 : failBit s 1 = false) (h3 : fld (s.mreg ⟨.fwstat, 0, 0⟩) 3 0 = 0)
    (r : Nat) (svn : BitVec 32) : exec (.firmwareVerify r svn) s = .next (verified s r svn) := by
  change Host.Outcome.next _ = _
  rw [if_pos (by simp [bootDue, h1, h2, h3])]

theorem regStore_sqovsize (s : State) (d : Nat) (v : BitVec 64) :
    regStore s ⟨.sqovsize, d, 0⟩ v.toNat = s.setMreg ⟨.sqovsize, d, 0⟩ (regNew (s.mreg ⟨.sqovsize, d, 0⟩) .sqovsize v.toNat) := by
  simp [regStore, regLocked]

theorem writeSqov_eq {s : State} {d : Nat} (v : BitVec 64) (hf : failBit s (22 + d) = false) :
    writeSqov s d v =
      if (s.die d).sqTested then setReady (regStore s ⟨.sqovsize, d, 0⟩ v.toNat) (22 + d) else regStore s ⟨.sqovsize, d, 0⟩ v.toNat := by
  have hf' : failBit (regStore s ⟨.sqovsize, d, 0⟩ v.toNat) (22 + d) = false := by
    rw [regStore_sqovsize]
    exact (congrArg (flg · (22 + d)) (State.mreg_setMreg_ne s ⟨.sqovsize, d, 0⟩ _ (by simp))).trans hf
  unfold writeSqov
  dsimp only
  rw [hf', Bool.not_false, Bool.and_true, regStore_sqovsize]
  rfl

theorem fld_writeSqov {s : State} {d : Nat} (v : BitVec 64) (hf : failBit s (22 + d) = false) :
    fld ((writeSqov s d v).mreg ⟨.sqovsize, d, 0⟩) 23 0 = fld v 23 0 := by
  have h : (writeSqov s d v).mreg ⟨.sqovsize, d, 0⟩ = regNew (s.mreg ⟨.sqovsize, d, 0⟩) .sqovsize v.toNat := by
    rw [writeSqov_eq v hf]
    split
    · rw [mreg_setReady _ _ rfl (by simp), regStore_sqovsize, State.mreg_setMreg_same]
    · rw [regStore_sqovsize, State.mreg_setMreg_same]
  rw [h, fld_regNew_sqovsize]

theorem readyBit_writeSqov {s : State} {d : Nat} (hd : d < 4) (v : BitVec 64) (hf : failBit s (22 + d) = false) :
    readyBit (writeSqov s d v) (22 + d) = ((s.die d).sqTested || readyBit s (22 + d)) := by
  rw [writeSqov_eq v hf]
  cases ht : (s.die d).sqTested with
  | true => exact readyBit_setReady _ (by omega)
  | false =>
    rw [regStore_sqovsize]
    exact congrArg (flg · (22 + d)) (State.mreg_setMreg_ne s ⟨.sqovsize, d, 0⟩ _ (by simp))

/-! ### A module reset -/

theorem mfind_map {K V U : Type} [DecidableEq K] (f : V → U) (m : List (K × V)) (k : K) :
    mfind (m.map (fun p => (p.1, f p.2))) k = (mfind m k).map f := by
  induction m with
  | nil => rfl
  | cons p m ih =>
    simp only [List.map_cons, mfind]
    split
    · rfl
    · exact ih

theorem mfind_filter {K V : Type} [DecidableEq K] (p : K → Bool) (m : List (K × V)) (k : K) :
    mfind (m.filter (fun q => p q.1)) k = if p k then mfind m k else none := by
  induction m with
  | nil => simp [mfind]
  | cons q m ih => by_cases hk : q.1 = k <;> cases hq : p q.1 <;> simp_all [mfind]

/-- An address that a reset keeps: host memory, or another module's. -/
def keptAddr (s : State) (a : Nat) : Bool := decide (2 ^ 48 ≤ a) || (decide (a / 2 ^ 45 ≠ moduleNo s) && decide (a / 2 ^ 45 ≠ 0))

theorem memRead_keptCells (s : State) (m : Mem) (a : Nat) : memRead (keptCells s m) a = if keptAddr s a then memRead m a else 0#8 := by
  have h : keptCells s m = m.filter (fun q => keptAddr s q.1) := rfl
  rw [h]
  unfold memRead mget
  rw [mfind_filter]
  split <;> rfl

/-- What a module reset works on: the Skim commands are cut off, and every write on its way is applied. -/
def beforeReset (s : State) : State := drainAll ([0, 1].foldl resetSkim s)

/-- A die after a module reset. -/
def keptDie (s : State) (x : Die) : Die := { Die.reset with view := keptCells s x.view }

theorem die_moduleReset (s : State) (d : Nat) : (moduleReset s).die d = keptDie (beforeReset s) ((beforeReset s).die d) := by
  have h : mfind (moduleReset s).dies d = (mfind (beforeReset s).dies d).map (keptDie (beforeReset s)) := mfind_map (keptDie (beforeReset s)) _ d
  unfold State.die mget
  rw [h]
  cases mfind (beforeReset s).dies d <;> rfl

theorem byteAtDie_moduleReset (s : State) (d a : Nat) :
    byteAtDie (moduleReset s) d a = if keptAddr (beforeReset s) a then byteAtDie (beforeReset s) d a else 0#8 := by
  unfold byteAtDie
  rw [die_moduleReset]
  exact memRead_keptCells _ _ _

theorem moduleNo_beforeReset (s : State) : moduleNo (beforeReset s) = moduleNo s := by
  unfold moduleNo beforeReset
  rw [blind_drainAll (blind_mreg (by decide)), foldl_keeps (·.mreg ⟨.modid, 0, 0⟩) (fun t e => mreg_resetSkim t (by decide) e)]

/-- Settles O55: the registers that a function's coming up stores stand until the end of the step (`mreg_retryWaits`), and a module reset filters
each die's view by address (`byteAtDie_moduleReset`). -/
theorem resetAndBringUp : Obligations.ResetAndBringUp := by
  unfold Obligations.ResetAndBringUp
  refine ⟨?_, fun s => ?_, fun s b svn => ⟨fun hb => ⟨?_, ?_, ?_⟩, ?_, fun h1 h2 h3 => ?_, fun d hd v hf => ?_⟩⟩
  · intro s reg
    exact ⟨⟨fun _ h => absurd h List.not_mem_nil, fun _ h => absurd h List.not_mem_nil⟩, fun _ _ => rfl, rfl, rfl, rfl, rfl, rfl,
      fun _ => ⟨rfl, rfl, rfl, rfl⟩, fun _ => ⟨rfl, rfl, rfl, rfl⟩, fun _ => ⟨rfl, rfl, rfl, rfl, rfl, rfl, rfl, rfl, rfl, rfl, rfl, rfl⟩⟩
  · refine ⟨moduleReset s, rfl, rfl, rfl, rfl, rfl, rfl, rfl, rfl, rfl, rfl, fun d a ha hm => ?_, fun d a ha => ?_, fun d => ?_⟩
    · rw [byteAtDie_moduleReset, if_neg]
      rw [keptAddr, moduleNo_beforeReset]
      simp only [Bool.or_eq_true, Bool.and_eq_true, decide_eq_true_eq]
      omega
    · rw [byteAtDie_moduleReset, if_pos (by rw [keptAddr, decide_eq_true ha, Bool.true_or])]
      rfl
    · rw [die_moduleReset]
      exact ⟨rfl, rfl, rfl, rfl⟩
  · exact ⟨_, execSelfTest_untested hb false, failBit_setFail s (untested_lt hb), readyBit_setFail s b b⟩
  · intro hn hs
    refine ⟨_, execSelfTest_untested hb true, ?_⟩
    simp only [finishTest, hn, Bool.not_true, Bool.false_eq_true, if_false]
    rw [if_neg (by omega)]
    exact readyBit_setReady s (untested_lt hb)
  · intro h1 h2
    refine ⟨_, execSelfTest_untested hb true, ?_⟩
    simp only [finishTest, Bool.not_true, Bool.false_eq_true, if_false]
    rw [if_neg (by omega), if_pos ⟨h1, h2⟩]
    exact ⟨(untested_unready hb :), congrArg Die.sqTested (State.die_setDie_same ..)⟩
  · intro hb passed
    change Host.Outcome.next _ = _
    rw [if_neg (by simp [hb])]
  · refine ⟨⟨_, exec_firmwareVerify_due h1 h2 h3 0 svn, readyBit_setReady _ (by decide), ?_, ?_⟩, fun r hr hr' =>
      ⟨_, exec_firmwareVerify_due h1 h2 h3 r svn, ?_, ?_, ?_⟩⟩
    · rw [mreg_verified_fwstat]
      simp [fld, Nat.shiftRight_eq_div_pow]
      omega
    · rw [mreg_verified_fwstat]
      simp [fld]
      omega
    · rw [verified, if_neg (by omega)]
      exact (congrArg (flg · 1) (State.mreg_setMreg_ne s _ _ (by decide))).trans h1
    · rw [mreg_verified_fwstat, if_neg (by omega)]
      simp [fld]
      omega
    · rw [mreg_verified_fwstat, if_neg (by omega)]
      simp [fld, Nat.shiftRight_eq_div_pow]
      omega
  · exact ⟨_, rfl, readyBit_writeSqov hd v hf, fld_writeSqov v hf⟩

end Sys2Proof.Machine
end

section
/-! PROOFS. A trap parks its lanes, and a fault in a handler ends the grid (spec/03 R83; spec/08 R433; spec/20 R374). -/

namespace Sys2Proof.Machine

open Sys2Proof.Claims

/-! ### What a fault's record leaves -/

/-- The state but for records, sequence numbers, registers, and what a die holds beside its memory. -/
structure Recorded (s t : State) : Prop where
  lanes : t.lanes = s.lanes
  warps : t.warps = s.warps
  groups : t.groups = s.groups
  gangs : t.gangs = s.gangs
  grids : t.grids = s.grids
  bytes : ∀ d a, byteAtDie t d a = byteAtDie s d a

section
variable {s t u : State}

theorem Recorded.refl : Recorded s s := ⟨rfl, rfl, rfl, rfl, rfl, fun _ _ => rfl⟩

theorem Recorded.trans (h : Recorded s t) (g : Recorded t u) : Recorded s u :=
  ⟨g.lanes.trans h.lanes, g.warps.trans h.warps, g.groups.trans h.groups, g.gangs.trans h.gangs, g.grids.trans h.grids,
    fun d a => (g.bytes d a).trans (h.bytes d a)⟩

/-- A change of a die that leaves its view changes no byte. -/
theorem byteAtDie_setDie {d : Nat} {x : Die} (hx : x.view = (s.die d).view) (c a : Nat) : byteAtDie (s.setDie d x) c a = byteAtDie s c a := by
  unfold byteAtDie
  by_cases h : c = d
  · subst h
    rw [State.die_setDie_same, hx]
  · rw [State.die_setDie_ne s d x h]

theorem recorded_setDie {d : Nat} {x : Die} (hx : x.view = (s.die d).view) : Recorded s (s.setDie d x) :=
  ⟨rfl, rfl, rfl, rfl, rfl, byteAtDie_setDie hx⟩

theorem recorded_setCore {c : Nat} {x : Core} : Recorded s (s.setCore c x) := ⟨rfl, rfl, rfl, rfl, rfl, fun _ _ => rfl⟩

theorem recorded_traceDrop {d n : Nat} : Recorded s (traceDrop s d n) :=
  Recorded.trans (t := s.setMreg ⟨.trdrop, d, 0⟩ _) ⟨rfl, rfl, rfl, rfl, rfl, fun _ _ => rfl⟩ (recorded_setDie rfl)

theorem recorded_releaseUnits {core units : Nat} : Recorded s (releaseUnits s core units) := recorded_setDie rfl

theorem recorded_dropRoads {core owner : Nat} {matrix : Bool} : Recorded s (dropRoads s core matrix owner) := recorded_setDie rfl

/-- Where the trace ring is off, a record for it counts as dropped. -/
theorem toRing_off {d : Nat} {rs : List Record} (h : s.mreg ⟨.trbase, d, 0⟩ = 0) : toRing s d rs = traceDrop s d rs.length := by
  have hroom : traceRoom s d = 0 := by rw [traceRoom, h]; rfl
  unfold toRing
  rw [hroom]
  rfl

/-- The record of a fault in an unsealed context, where the trace ring is off: it is emitted with the core's next number, and nothing that a program
reads changes. -/
theorem faultRecord_off {v : WarpId} {i n : Nat} {pc : Addr} {mask : Word} {info : TrapInfo} {addrs : List (Nat × Addr)}
    (hr : s.mreg ⟨.trbase, dieOf (laneCore s ⟨v.gang, v.group, v.warp, i⟩), 0⟩ = 0) (hk : ctxKeyId s (gangCtx s v.gang) = 0)
    (e : faultRecord s v pc mask false info addrs = (t, n)) :
    Recorded s t ∧ n = (s.core (laneCore s ⟨v.gang, v.group, v.warp, i⟩)).seqLane ∧
      ∃ r ∈ t.recs, r.kind = 0x12 ∧ r.seq = n ∧ (0x98, 1, info.cause.code) ∈ r.body ∧ (0x90, 8, pc.toNat) ∈ r.body := by
  unfold faultRecord at e
  extract_lets core d ctx idx u seq sealed hidden def_ more flags r s1 conts at e
  have hsealed : sealed = false := by simp [sealed, ctx, hk]
  have hrec : r.kind = 0x12 ∧ r.seq = seq ∧ (0x98, 1, info.cause.code) ∈ r.body ∧ (0x90, 8, pc.toNat) ∈ r.body := by
    simp [r, sealRecord, ctx, hk, mkRecord, seq, u]
  have h1 : Recorded s s1 ∧ s1.mregs = s.mregs ∧ r ∈ [r] := ⟨recorded_setCore, rfl, List.mem_singleton_self _⟩
  split at e
  next s2 rs ef =>
    have h2 : Recorded s s2 ∧ s2.mregs = s.mregs ∧ r ∈ rs := by
      refine (congrArg (fun a : State × List Record => Recorded s a.1 ∧ a.1.mregs = s.mregs ∧ r ∈ a.2) ef).mp ?_
      exact List.foldlRecOn (motive := fun a : State × List Record => Recorded s a.1 ∧ a.1.mregs = s.mregs ∧ r ∈ a.2) _ _ h1
        (fun a ha _ _ => ⟨ha.1.trans recorded_setCore, ha.2.1, List.mem_append_left _ ha.2.2⟩)
    obtain ⟨hs2, hregs, hmem⟩ := h2
    have hoff : ({ s2 with recs := s2.recs ++ rs } : State).mreg ⟨.trbase, d, 0⟩ = 0 := by
      unfold State.mreg at hr ⊢
      dsimp only
      rw [hregs]
      exact hr
    dsimp only at e
    rw [toRing_off hoff, hsealed, if_neg Bool.false_ne_true] at e
    have happ : Recorded s2 { s2 with recs := s2.recs ++ rs } := ⟨rfl, rfl, rfl, rfl, rfl, fun _ _ => rfl⟩
    obtain ⟨rfl, rfl⟩ := Prod.mk.inj e
    refine ⟨(hs2.trans happ).trans recorded_traceDrop, rfl, r, ?_, hrec⟩
    exact List.mem_append_right _ hmem

/-! ### Lanes that run no handler -/

theorem maskOf_singleton (i : Nat) : maskOf [i] = 1#32 <<< i := by simp [maskOf]

/-- A lane's token goes back, with the ways that it reserved. -/
def giveBack (s : State) (k : LaneId) (units : Nat) : State :=
  if units = 0 then s else releaseUnits (dropRoads s (laneCore s k) false (laneOwner k)) (laneCore s k) units

theorem recorded_giveBack {k : LaneId} {units : Nat} : Recorded s (giveBack s k units) := by
  unfold giveBack
  split
  · exact .refl
  · exact recorded_dropRoads.trans recorded_releaseUnits

theorem giveBack_recs {k : LaneId} {units : Nat} : (giveBack s k units).recs = s.recs := by
  unfold giveBack
  split <;> rfl

end

/-- A trap of one lane adds its sub-warp and parks the lane, once its record is written. -/
theorem parkSub_awaits {s t : State} {v : WarpId} {x : Warp} {pc : Addr} {len i n : Nat} {l : Lane} {info : TrapInfo} (hw : s.warp? v = some x)
    (hl : s.lane? ⟨v.gang, v.group, v.warp, i⟩ = some l) (hx : l.hx = none)
    (e : faultRecord s v pc (1#32 <<< i) false info ([(i, info)].filterMap (fun p => p.2.perLane.map (fun a => (p.1, a)))) = (t, n))
    (ht : Recorded s t) :
    let k : LaneId := ⟨v.gang, v.group, v.warp, i⟩
    let sub : SubWarp := { pc := pc, mask := 1#32 <<< i, cause := info.cause, xaddr := info.xaddr, xinfo := info.xinfo, len := len, seq := n,
                           delivered := false }
    let parked : Lane := { l with st := .trapped, pc := pc, token := 0, stepTrap := false, stepDue := false, stepping := false, xout := sub.regs }
    parkSub s v pc len [(i, info)] = (giveBack (t.setWarp v { x with subs := x.subs ++ [sub] }) k l.token).setLane k parked := by
  intro k sub parked
  have hw' : t.warp? v = some x := (congrArg (mfind · v) ht.warps).trans hw
  have hl' : (t.setWarp v { x with subs := x.subs ++ [sub] }).lane? k = some l := (congrArg (mfind · k) ht.lanes).trans hl
  unfold parkSub
  simp only [hw, List.map_cons, List.map_nil, maskOf_singleton, e, List.any_cons, List.any_nil, hl, Lane.inHandler, hx, hw', List.foldl_cons,
    List.foldl_nil, Option.isSome_none, Bool.or_false, Bool.false_eq_true, if_false]
  split
  next m em =>
    cases hl'.symm.trans em
    rfl
  next em => cases hl'.symm.trans em

/-! ### The end of a grid -/

section
variable (s : State)

theorem grids_cancelStream (core : Nat) (f : Cmd → Bool) : (cancelStream s core f).grids = s.grids :=
  foldl_keeps (f := fun s (c : Cmd) => emit (releaseUnits (dropRoads s core false c.owner) core c.units) (.stream core) 0x20 _) State.grids
    (fun _ _ => blind_emit blind_grids _ _ _ _) _ (s.setCore core _)

theorem grids_matrixPass (core : Nat) : (matrixPass s core).grids = s.grids := by
  unfold matrixPass
  dsimp only
  split <;> rfl

theorem grids_matrixLeave (core : Nat) : (matrixLeave s core).grids = s.grids := by
  refine (grids_matrixPass _ core).trans ?_
  change (if _ then _ else s : State).grids = _
  split <;> rfl

theorem grids_matrixKill (core : Nat) (f : WarpId → Bool) : (matrixKill s core f).grids = s.grids := by
  unfold matrixKill
  dsimp only
  split
  · split
    · refine (grids_matrixLeave _ core).trans ?_
      exact foldl_keeps (f := fun s (c : MCmd) => dropRoads s core true c.num) State.grids (fun _ _ => rfl) _ _
    · rfl
  · rfl

theorem grids_matrixOrphan (core : Nat) (w : WarpId) : (matrixOrphan s core w).grids = s.grids := by
  unfold matrixOrphan
  extract_lets x kept s1 y mx m s2
  have h1 : s1.grids = s.grids := foldl_keeps (f := fun s (c : MCmd) => dropRoads s core true c.num) State.grids (fun _ _ => rfl) _ _
  split
  · split
    · exact (grids_matrixLeave _ core).trans ((blind_emit blind_grids s2 (.matrix core) 0x31 [(0x90, 1, m.fl.toNat)]).trans h1)
    · exact h1
  · rfl

theorem grids_leaveWait (k : LaneId) : (leaveWait s k).grids = s.grids := by
  unfold leaveWait
  split
  · rfl
  next l _ =>
    cases l.st with
    | macq _ _ =>
      dsimp only
      split
      · exact grids_matrixLeave _ _
      · rfl
    | _ => rfl

theorem grids_leaveFifo (core : Nat) (w : WarpId) : (leaveFifo s core w).grids = s.grids := rfl

theorem grids_exitLane (k : LaneId) : (exitLane s k false).grids = s.grids := by
  unfold exitLane
  split
  · rfl
  next l _ =>
    split
    · rfl
    · extract_lets late s1 s2 y z s3 core d s4 w s5
      have h1 : s1 = s := if_neg (by simp)
      have h2 : s2.grids = s.grids := by
        dsimp only [s2]
        rw [h1]
        split
        · rfl
        · exact grids_leaveWait s k
      clear_value s2
      have h5 : s5.grids = s.grids := h2
      clear_value s5
      split
      · exact h5
      · dsimp only
        split
        · refine (grids_matrixOrphan _ _ _).trans ((grids_leaveFifo _ _ _).trans ?_)
          exact h5
        · exact h5

theorem grids_clearGang (gang : Nat) : (clearGang s gang).grids = s.grids := by
  unfold clearGang
  split
  · dsimp only
    split <;> rfl
  · rfl

theorem grids_killGang (gang : Nat) : (killGang s gang).grids = s.grids := by
  unfold killGang
  extract_lets s1 s2
  have h1 : s1.grids = s.grids := by
    dsimp only [s1]
    split
    · exact foldl_keeps State.grids (fun t c => (grids_matrixKill _ c _).trans (grids_cancelStream t c _)) _ s
    · rfl
  have h2 : s2.grids = s.grids := (foldl_keeps (f := fun t k => exitLane t k false) State.grids (fun t k => grids_exitLane t k) _ _).trans h1
  exact (grids_clearGang _ gang).trans h2

/-- How a grid has ended, where there is one. -/
def endedOf (gk : Nat) (s : State) : Option (Option (Nat × Cause)) := (s.grid? gk).map Grid.ended

theorem endedOf_setGrid {gk : Nat} {g h : Grid} (e : s.grid? gk = some g) (he : h.ended = g.ended) : endedOf gk (s.setGrid gk h) = endedOf gk s := by
  simp [endedOf, e, he]

theorem endedOf_finishGrid (gk : Nat) : endedOf gk (finishGrid s gk) = endedOf gk s := by
  have hp : Blind (endedOf gk) := ⟨fun _ _ _ _ _ _ _ _ _ _ _ _ _ => rfl, fun _ _ _ => rfl, fun _ _ _ => rfl, fun _ _ _ => rfl⟩
  unfold finishGrid
  split
  next g e =>
    split
    · exact (blind_tryWords hp _ (fun t _ _ => endedOf_setGrid t)).trans (endedOf_setGrid s e rfl)
    · rfl
  · rfl

/-- A grid that is not done ends with the status and the cause, where it has not ended before. -/
theorem endGrid_ended {gk st : Nat} {c : Cause} {g : Grid} (e : s.grid? gk = some g) (hd : g.done = false) :
    ∃ h, (endGrid s gk st c).grid? gk = some h ∧ h.ended = (g.ended <|> some (st, c)) := by
  have key : endedOf gk (endGrid s gk st c) = some (g.ended <|> some (st, c)) := by
    simp only [endGrid, e, hd, Bool.false_eq_true, if_false]
    rw [endedOf_finishGrid]
    unfold endedOf State.grid?
    rw [foldl_keeps State.grids (fun t k => grids_killGang t k)]
    simp
  unfold endedOf at key
  obtain ⟨h, eh, hh⟩ := Option.map_eq_some_iff.1 key
  exact ⟨h, eh, hh⟩

end

/-- A trap of a lane in its handler ends the grid with HANDLER_FAULT. -/
theorem parkSub_handler {s t : State} {v : WarpId} {x : Warp} {pc : Addr} {len i n : Nat} {l : Lane} {info : TrapInfo} {g : Grid}
    (hw : s.warp? v = some x) (hl : s.lane? ⟨v.gang, v.group, v.warp, i⟩ = some l) (hx : l.hx.isSome = true)
    (e : faultRecord s v pc (1#32 <<< i) false info ([(i, info)].filterMap (fun p => p.2.perLane.map (fun a => (p.1, a)))) = (t, n))
    (ht : Recorded s t) (hg : s.grid? (gangGrid s v.gang) = some g) :
    parkSub s v pc len [(i, info)] =
      endGrid (t.setGrid (gangGrid s v.gang) { g with orig := g.orig <|> some info.cause }) (gangGrid s v.gang) 1 .handlerFault := by
  have hk : gangGrid t v.gang = gangGrid s v.gang := by
    unfold gangGrid State.gang?
    rw [ht.gangs]
  have hg' : t.grid? (gangGrid s v.gang) = some g := (congrArg (mfind · _) ht.grids).trans hg
  unfold parkSub
  simp only [hw, List.map_cons, List.map_nil, maskOf_singleton, e, List.any_cons, List.any_nil, hl, Lane.inHandler, hx, Bool.or_false, if_true, hk,
    hg']

/-- What a program reads once a sub-warp stands in its warp and a lane is parked. -/
theorem parked_reads {s t b : State} {v : WarpId} {y : Warp} (ht : Recorded s t) (hb : Recorded (t.setWarp v y) b) (k : LaneId) (m : Lane) :
    (b.setLane k m).lane? k = some m ∧ (b.setLane k m).warp? v = some y ∧ (∀ j, j ≠ k → (b.setLane k m).lane? j = s.lane? j) ∧
      (b.setLane k m).groups = s.groups ∧ (b.setLane k m).gangs = s.gangs ∧ (b.setLane k m).grids = s.grids ∧
      ∀ d a, byteAtDie (b.setLane k m) d a = byteAtDie s d a := by
  refine ⟨State.lane_setLane_same .., ?_, fun j hj => ?_, hb.groups.trans ht.groups, hb.gangs.trans ht.gangs, hb.grids.trans ht.grids,
    fun d a => (hb.bytes d a).trans (ht.bytes d a)⟩
  · exact (congrArg (mfind · v) hb.warps).trans (State.warp_setWarp_same ..)
  · exact (State.lane_setLane_ne _ k m hj).trans (congrArg (mfind · j) (hb.lanes.trans ht.lanes))

/-- Settles O39: the fault's record changes nothing that a program reads (`faultRecord_off`), so a trap is one sub-warp and its parked lane
(`parkSub_awaits`), or the end of the grid (`endGrid_ended`). -/
theorem trapsParkTheirLanes : Obligations.TrapsParkTheirLanes := by
  unfold Obligations.TrapsParkTheirLanes
  intro s v x pc len i l info k core hw hl _ hr hk shown
  rcases hrec : faultRecord s v pc (1#32 <<< i) false info ([(i, info)].filterMap (fun p => p.2.perLane.map (fun a => (p.1, a)))) with ⟨t, n⟩
  obtain ⟨ht, rfl, r, hmem, hkind, hseq, hcause, hpc⟩ := faultRecord_off hr hk hrec
  refine ⟨fun hx => ?_, fun hx g hg hd => ?_⟩
  · obtain ⟨hlane, hwarp, hothers, hgroups, hgangs, hgrids, hbytes⟩ := parked_reads ht (recorded_giveBack (k := k) (units := l.token)) k _
    refine ⟨_, r, parkSub_awaits hw hl hx hrec ht, hlane, hwarp, hothers, hgroups, hgangs, hgrids, hbytes, ?_, hkind, hseq, hcause, hpc⟩
    rw [State.setLane_recs, giveBack_recs]
    exact hmem
  · have horig := State.grid_setGrid_same t (gangGrid s v.gang) { g with orig := g.orig <|> some info.cause }
    obtain ⟨h, eh, hh⟩ := endGrid_ended _ horig hd
    exact ⟨_, h, parkSub_handler hw hl hx hrec ht hg, eh, hh⟩

end Sys2Proof.Machine
end

section
/-! PROOFS. A delivery fills its registers in one step, or fails (spec/01 R13; spec/08 R190; spec/17 R352 to R355; spec/22 R413). -/

namespace Sys2Proof.Machine

open Sys2Proof.Claims

/-! ### Registers that receive values together -/

section Receive

variable (l : Lane)

theorem Lane.receive_cons (r : Nat) (v : Word) (rs : List Nat) (vs : List Word) : l.receive (r :: rs) (v :: vs) = (l.setReg r v).receive rs vs := rfl

/-- A lane with other registers. -/
theorem Lane.receive_regs (rs : List Nat) (vs : List Word) : ∃ regs, l.receive rs vs = { l with regs := regs } := by
  induction rs generalizing l vs with
  | nil => exact ⟨l.regs, rfl⟩
  | cons r rs ih =>
    cases vs with
    | nil => exact ⟨l.regs, rfl⟩
    | cons v vs => exact ih (l.setReg r v) vs

theorem Lane.reg_receive_ne {r : Nat} {rs : List Nat} (h : r ∉ rs) (vs : List Word) : (l.receive rs vs).reg r = l.reg r := by
  induction rs generalizing l vs with
  | nil => rfl
  | cons q rs ih =>
    obtain ⟨hq, hrs⟩ := not_or.mp (mt List.mem_cons.mpr h)
    cases vs with
    | nil => rfl
    | cons v vs => rw [Lane.receive_cons, ih _ hrs, Lane.reg_setReg_ne _ _ hq]

theorem Lane.reg_receive {n r : Nat} {v : Word} {rs : List Nat} {vs : List Word} (hd : rs.Nodup) (hl : ∀ q ∈ rs, q < l.regs.length)
    (hr : rs[n]? = some r) (hv : vs[n]? = some v) : (l.receive rs vs).reg r = ⟨v, true⟩ := by
  induction rs generalizing l vs n with
  | nil => simp at hr
  | cons q rs ih =>
    obtain ⟨hq, hrs⟩ := List.nodup_cons.mp hd
    cases vs with
    | nil => simp at hv
    | cons w vs =>
      rw [Lane.receive_cons]
      cases n with
      | zero =>
        obtain rfl : q = r := by simpa using hr
        obtain rfl : w = v := by simpa using hv
        rw [Lane.reg_receive_ne _ hq, Lane.reg_setReg_same _ _ (hl q List.mem_cons_self)]
      | succ n =>
        refine ih _ hrs (fun p hp => ?_) (by simpa using hr) (by simpa using hv)
        rw [Lane.setReg_length]
        exact hl p (List.mem_cons_of_mem _ hp)

end Receive

/-! ### Failures at the lane -/

/-- The state after a failed delivery of a lane that runs or is parked, its access at `addr` (spec/08 R190, R207). -/
def failAfter (s : State) (k : LaneId) (l : Lane) (i : Nat) (p : Pend) (addr : Addr) (f : FailInfo) : State :=
  let dropped := dropRequest (s.setLane k (l.dropPend i)) p.id
  recheckGang (if p.inTry && l.spec.isSome then abortTries dropped [k] 5 0
    else parkSub dropped (LaneId.wid k) l.pc (lenAt dropped (LaneId.wid k) l.pc)
      [(k.lane, { cause := f.cause, xaddr := addr, xinfo := p.info ||| 0x10000#32, perLane := some addr, level := f.level,
                  malformed := f.malformed, attempts := f.attempts, under := f.cause })]) k.gang

theorem TState.not_exited {t : TState} (h : t.takesFailure = true) : t ≠ .exited := by rintro rfl; simp [TState.takesFailure] at h

section Failures

variable {s : State} {k : LaneId} {l : Lane} {i : Nat} {p : Pend} {x : FarOp} {c : Cause}

theorem failPend_takes (hl : s.lane? k = some l) (hp : l.pend[i]? = some p) (ht : l.st.takesFailure = true) (f : FailInfo) :
    failPend s k i f = failAfter s k l i p p.addr f := by
  simp [failPend, failAfter, hl, hp, ht, TState.not_exited ht]

/-- What the address of an access is replaced by is what its failure reports. -/
theorem failPend_moved (hp : l.pend[i]? = some p) (ht : l.st.takesFailure = true) (a : Addr) (f : FailInfo) :
    failPend (s.setLane k { l with pend := l.pend.set i { p with addr := a } }) k i f = failAfter s k l i p a f := by
  have hi : i < l.pend.length := (List.getElem?_eq_some_iff.mp hp).1
  have hd : Lane.dropPend { l with pend := l.pend.set i { p with addr := a } } i = l.dropPend i := by
    simp [Lane.dropPend, List.eraseIdx_set_eq]
  refine (failPend_takes (l := { l with pend := l.pend.set i { p with addr := a } }) (s.lane_setLane_same k _) (List.getElem?_set_self hi) ht f).trans ?_
  rw [failAfter, hd, State.setLane_setLane, failAfter]

/-- The event of a failure of an access that another module does not answer for a set operation (spec/08 R190). -/
theorem failAway_near (hf : p.far = none) (hl : s.lane? k = some l) (hp : l.pend[i]? = some p) (ht : l.st.takesFailure = true) :
    failAway s k i p c = failAfter s k l i p p.addr (.plain c) := by
  rw [← failPend_takes hl hp ht, failAway, hf]

/-! ### Set operations that another module takes part in (spec/17 R352 to R355) -/

/-- The handles that a cause may stand against where another module takes part in a set operation of a lane. -/
def farHandles (s : State) (k : LaneId) (x : FarOp) (c : Cause) : List Nat :=
  x.against (fun h => !farSet s h && (setOf s (laneCtx s k) h).isSome) (farOperands s x.op x.b x.c) c

/-- The operations that read no array entry of another module's set stand only against handles. -/
theorem farAims_handles (hD : x.op ≠ 0x20D) (hE : x.op ≠ 0x20E) : farAims s (laneCtx s k) x c = (farHandles s k x c, 0) := by
  simp [farAims, farHandles, FarOp.arrayCause, hD, hE]

/-- One of the handles that a cause may stand against is the one that the failure names. -/
theorem failAway_far (hf : p.far = some x) (hl : s.lane? k = some l) (hp : l.pend[i]? = some p) (ht : l.st.takesFailure = true)
    (hD : x.op ≠ 0x20D) (hE : x.op ≠ 0x20E) (hne : farHandles s k x c ≠ [])
    (hw : (c == .permission || c == .sealedViolation || c == .transformFailed) = false) :
    ∃ h ∈ farHandles s k x c, failAway s k i p c =
      failAfter { s with freeCtr := s.freeCtr + 4 } k l i p (BitVec.ofNat 64 (setElem x.op x.b * 2 ^ 32 + h)) (.plain c) := by
  have ha := farAims_handles (s := s) (k := k) (c := c) hD hE
  have hn : (Config.freeValue (s.freeCtr + 0)).toNat % ((farHandles s k x c).length + 0) < (farHandles s k x c).length :=
    Nat.mod_lt _ (List.length_pos_iff.mpr hne)
  obtain ⟨⟨hw1, hw2⟩, hw3⟩ : ((c == .permission) = false ∧ (c == .sealedViolation) = false) ∧ (c == .transformFailed) = false := by
    simpa only [Bool.or_eq_false_iff] using hw
  refine ⟨_, List.getElem_mem hn, ?_⟩
  refine Eq.trans ?_ (failPend_moved (s := { s with freeCtr := s.freeCtr + 4 }) hp ht _ _)
  simp only [failAway, hf, hl, ha, ht, List.getElem?_eq_getElem hn, hw1, hw2, hw3, setAddr, FailInfo.plain,
    Bool.not_true, Bool.and_false, Bool.or_self, Bool.false_and, Bool.false_eq_true, if_false]

/-- The handles that another module answers for, where the set itself lies here. -/
theorem farOperands_eq (s : State) (op b c : Nat) :
    farOperands s op b c = (if op = 0x209 then [b] else if 0x206 ≤ op ∧ op ≤ 0x208 then [b, c] else []).filter (farSet s) := by
  have hle : op ≠ 0x209 → ((0x206 ≤ op ∧ op ≤ 0x209) ↔ 0x206 ≤ op ∧ op ≤ 0x208) := by omega
  unfold farOperands
  by_cases h9 : op = 0x209
  · simp [h9]
  · simp only [h9, if_false, hle h9]
    split
    · rfl
    · rfl

/-- A time-out or an error of the fabric stands against the set itself, where it lies in the other module, and sources that lie elsewhere. -/
theorem farHandles_fabric (hx : x.own = true) (hc : fabricCause c = true) : ∃ f : Nat → Bool, farHandles s k x c =
    x.a :: (if x.op = 0x209 then [x.b] else if 0x206 ≤ x.op ∧ x.op ≤ 0x208 then [x.b, x.c] else []).filter f := by
  obtain ⟨op, own, a, b, c', held⟩ := x
  obtain rfl : own = true := hx
  obtain rfl | rfl : c = .remoteTimeout ∨ c = .fabricError := by simpa [fabricCause] using hc
  all_goals exact ⟨_, rfl⟩

theorem farHandles_reset (hx : x.own = true) : farHandles s k x .engineReset = [x.a] := by
  obtain ⟨op, own, a, b, c', held⟩ := x
  obtain rfl : own = true := hx
  rfl

/-- The operations whose element may lie outside the set's universe. -/
theorem farHandles_universe (hx : x.own = true) (hop : x.op ∈ [0x202, 0x203, 0x204]) : farHandles s k x .setUniverse = [x.a] := by
  obtain ⟨op, own, a, b, c', held⟩ := x
  obtain rfl : own = true := hx
  have hop' : op ∈ [0x202, 0x203, 0x204] := hop
  simp only [List.mem_cons, List.not_mem_nil, or_false] at hop'
  obtain rfl | rfl | rfl := hop' <;> rfl

/-- SFREE and SCLR read no block, need no space for one, and name no element (spec/17 R351, R352). -/
theorem farHandles_none (hx : x.own = true) (hop : x.op = 0x201 ∨ x.op = 0x205) (hc : c ∈ [Cause.uncorrectable, .setUniverse, .setStoreFull]) :
    farHandles s k x c = [] := by
  obtain ⟨op, own, a, b, c', held⟩ := x
  obtain rfl : own = true := hx
  simp only [List.mem_cons, List.not_mem_nil, or_false] at hc
  obtain rfl | rfl : op = 0x201 ∨ op = 0x205 := hop
  all_goals obtain rfl | rfl | rfl := hc <;> rfl

/-- Where only sources lie in the other module, it answers for those. -/
theorem farHandles_sources (hx : x.own = false) : farHandles s k x .fabricError = farOperands s x.op x.b x.c := by
  obtain ⟨op, own, a, b, c', held⟩ := x
  obtain rfl : own = false := hx
  rfl

/-! ### The events -/

theorem replyLate_iff : replyLate s p = true ↔ portsUp s = false ∨ (s.mreg ⟨.ftmo, 0, 0⟩).toNat * 65536 ≤ p.waited := by
  simp [replyLate]

/-- An event after which what was found waiting is looked at again. -/
theorem next_woke {t u : State} (h : t = u) : (Host.Outcome.next (woke t) : Host.Outcome State Fault Refusal) = .next (woke u) := by rw [h]

/-- A failure that the lane knows of already (spec/08 R190). -/
theorem failWith_known {f : FailInfo} (hl : s.lane? k = some l) (hp : l.pend[i]? = some p) (hf : p.fail = some f) :
    failWith s k i f.cause = failPend s k i f := by
  simp [failWith, hl, hp, hf]

/-- A failure that the access meets where it goes. -/
theorem failWith_meets (hl : s.lane? k = some l) (hp : l.pend[i]? = some p) (hf : p.fail = none) (hm : mayFail s k p c = true)
    (hh : handlesStand s p.id = true) (hc : (p.far.isSome && fabricCause c) = false) (hr : replayable c = false) :
    failWith s k i c = failAway s k i p c := by
  simp [failWith, hl, hp, hf, hm, hh, hc, hr]

/-- A failure that it cannot meet. -/
theorem failWith_never (hl : s.lane? k = some l) (hp : l.pend[i]? = some p) (hf : p.fail = none) (hm : mayFail s k p c = false) :
    failWith s k i c = s := by
  simp [failWith, hl, hp, hf, hm]

/-- The failures of the fabric (spec/22 R413). -/
theorem failRemote_due (hl : s.lane? k = some l) (hp : l.pend[i]? = some p) (hf : p.fail = none) (hr : p.remote = true)
    (hh : handlesStand s p.id = true) (hc : c = .remoteTimeout → replyLate s p = true) : failRemote s k i c = failAway s k i p c := by
  have hd : (c != .remoteTimeout || replyLate s p) = true := by
    by_cases h : c = .remoteTimeout
    · simp [hc h]
    · simp [h]
  simp [failRemote, hl, hp, hf, hr, hh, hd]

/-- A failure of a set operation at the other module names one of the handles that its cause may stand against (spec/17 R336, R354). -/
theorem failWith_far (hf : p.far = some x) (hl : s.lane? k = some l) (hp : l.pend[i]? = some p) (hn : p.fail = none)
    (ht : l.st.takesFailure = true) (hh : handlesStand s p.id = true) (hD : x.op ≠ 0x20D) (hE : x.op ≠ 0x20E) (hne : farHandles s k x c ≠ [])
    (hc : fabricCause c = false) (hr : replayable c = false) (hw : (c == .permission || c == .sealedViolation || c == .transformFailed) = false) :
    ∃ h ∈ farHandles s k x c, failWith s k i c =
      failAfter { s with freeCtr := s.freeCtr + 4 } k l i p (BitVec.ofNat 64 (setElem x.op x.b * 2 ^ 32 + h)) (.plain c) := by
  have hm : mayFail s k p c = true := by simp [mayFail, hf, farAims_handles hD hE, hne]
  rw [failWith_meets hl hp hn hm hh (by simp [hc]) hr]
  exact failAway_far hf hl hp ht hD hE hne hw

theorem failWith_far_never (hf : p.far = some x) (hl : s.lane? k = some l) (hp : l.pend[i]? = some p) (hn : p.fail = none)
    (hD : x.op ≠ 0x20D) (hE : x.op ≠ 0x20E) (he : farHandles s k x c = []) : failWith s k i c = s :=
  failWith_never hl hp hn (by simp [mayFail, hf, farAims_handles hD hE, he])

theorem failRemote_far (hf : p.far = some x) (hl : s.lane? k = some l) (hp : l.pend[i]? = some p) (hn : p.fail = none) (hr : p.remote = true)
    (ht : l.st.takesFailure = true) (hh : handlesStand s p.id = true) (hD : x.op ≠ 0x20D) (hE : x.op ≠ 0x20E) (hne : farHandles s k x c ≠ [])
    (hw : (c == .permission || c == .sealedViolation || c == .transformFailed) = false) (hc : c = .remoteTimeout → replyLate s p = true) :
    ∃ h ∈ farHandles s k x c, failRemote s k i c =
      failAfter { s with freeCtr := s.freeCtr + 4 } k l i p (BitVec.ofNat 64 (setElem x.op x.b * 2 ^ 32 + h)) (.plain c) := by
  rw [failRemote_due hl hp hn hr hh hc]
  exact failAway_far hf hl hp ht hD hE hne hw

theorem failRemote_early (hl : s.lane? k = some l) (hp : l.pend[i]? = some p) (hn : replyLate s p = false) :
    failRemote s k i .remoteTimeout = s := by
  simp [failRemote, hl, hp, hn]

/-- No delivery is made once the reply is overdue (spec/22 R413). -/
theorem deliver_overdue (hl : s.lane? k = some l) (hp : l.pend[i]? = some p) (hr : p.remote = true) (ho : replyLate s p = true) :
    deliver s k i = s := by
  simp [deliver, hl, hp, hr, ho]

/-- A delivery whose values are known (spec/01 R13; spec/12 R241). -/
theorem deliver_values {m : Lane} {vs : List Word} (hl : s.lane? k = some l) (hp : l.pend[i]? = some p) (hf : p.fail = none)
    (hr : (p.remote && replyLate s p) = false) (hx : l.st ≠ .exited) (hk : p.kind ≠ .tstat)
    (hv : (if p.kind = .chwp then some (partsOf 2 (chanOf s (LaneId.grp k) p.info.toNat).wp) else p.vals) = some vs)
    (hm : (if Vec.le p.needs (s.die (laneDie s k)).vec then s else drainTo s (laneDie s k)).lane? k = some m) :
    deliver s k i = answersAway p ((if Vec.le p.needs (s.die (laneDie s k)).vec then s else drainTo s (laneDie s k)).setLane k
      ((m.dropPend i).receive p.dst vs)) k := by
  simp only [deliver, hl, hp, hf, hr, hx, hk, hv, Option.isSome_none, Bool.or_self, Bool.false_eq_true, if_false, hm]

/-- TSTAT takes its value when it is delivered, the conflicts until then applied (spec/08 R206, R211). -/
theorem deliver_tstat {m : Lane} {r : Nat} (hl : s.lane? k = some l) (hp : l.pend[i]? = some p) (hf : p.fail = none) (hr : p.remote = false)
    (hx : l.st ≠ .exited) (hk : p.kind = .tstat) (hd : p.dst = [r]) (hm : (drainTo s (laneDie s k)).lane? k = some m) (hc : m.inConflict = false)
    (hq : m.pend.find? (fun q => q.id == p.id) = some p) :
    deliver s k i = (drainTo s (laneDie s k)).setLane k (({ m with pend := m.pend.filter (fun q => q.id != p.id) } : Lane).setReg r m.tstat) := by
  simp only [deliver, hl, hp, hf, hr, hx, hk, Option.isSome_none, Bool.false_and, Bool.or_self, Bool.false_eq_true, if_false, if_true, deliverTstat,
    hm, hc, hq, hd]
  rfl

end Failures

/-- Settles O44, by an equation for each event and, for set operations of another module, by the handle that the free value picks. -/
theorem deliveriesArrive : Obligations.DeliveriesArrive := by
  intro s u k l m i p hl hp late overdue after
  have hlate : replyLate s p = true ↔ overdue := replyLate_iff
  refine ⟨fun _ hr ho => ?_, fun hf hr hx hu hm vs hk hv hlen hd hb => ?_, fun r hf hr hx hk hd hm hc hq => ?_,
    fun ht => ⟨fun f hf => ?_, fun hf hh => ?_⟩⟩
  · exact next_woke (deliver_overdue hl hp hr (hlate.mpr ho))
  · have hn : (p.remote && replyLate s p) = false := by
      rcases hr with hr | ho
      · simp [hr]
      · simp [mt hlate.mp ho]
    obtain ⟨regs, hregs⟩ := (m.dropPend i).receive_regs p.dst vs
    refine ⟨(m.dropPend i).receive p.dst vs, ?_, by rw [hregs]; rfl, by rw [hregs]; rfl, by rw [hregs]; rfl,
      fun n r v hn hv => Lane.reg_receive _ hd hb hn hv, fun r hr => Lane.reg_receive_ne _ hr vs⟩
    subst hu
    exact next_woke (deliver_values hl hp hf hn hx hk hv hm)
  · have hcon : m.inConflict = false := by
      unfold Lane.inConflict
      cases hs : m.spec with
      | none => rfl
      | some t => exact hc t hs
    exact next_woke (deliver_tstat hl hp hf hr hx hk hd hm hcon hq)
  · exact next_woke ((failWith_known hl hp hf).trans (failPend_takes hl hp ht f))
  · refine ⟨fun c hnear hk hc => ?_, fun hr => ⟨fun ho => ?_, fun hnear => ⟨fun ho => ?_, ?_⟩, fun x hfar hD hE => ?_⟩⟩
    · have hm : mayFail s k p c = true := by
        rcases hk with hk | hk | hk <;> rcases hc with rfl | rfl | rfl <;> simp [mayFail, hnear, Pend.toMemory, hk, memCause]
      have hrep : replayable c = false := by rcases hc with rfl | rfl | rfl <;> rfl
      exact next_woke ((failWith_meets hl hp hf hm hh (by simp [hnear]) hrep).trans (failAway_near hnear hl hp ht))
    · exact next_woke (failRemote_early hl hp (by simpa using mt hlate.mp ho))
    · exact next_woke
        ((failRemote_due hl hp hf hr hh (fun _ => hlate.mpr ho)).trans (failAway_near hnear hl hp ht))
    · exact next_woke ((failRemote_due (c := .fabricError) hl hp hf hr hh nofun).trans (failAway_near hnear hl hp ht))
    · refine ⟨fun hown => ⟨fun ho => ?_, ?_, ?_, fun hop => ?_, fun hop c hc => ?_⟩, fun hown ⟨h, hh', hset⟩ => ?_⟩
      · obtain ⟨f, hc⟩ := farHandles_fabric (s := s) (k := k) hown (c := .remoteTimeout) rfl
        obtain ⟨h, hm, hq⟩ := failRemote_far (c := .remoteTimeout) hfar hl hp hf hr ht hh hD hE (by simp [hc]) rfl (fun _ => hlate.mpr ho)
        exact ⟨h, ((List.filter_sublist).cons_cons x.a).subset (hc ▸ hm), next_woke hq⟩
      · obtain ⟨f, hc⟩ := farHandles_fabric (s := s) (k := k) hown (c := .fabricError) rfl
        obtain ⟨h, hm, hq⟩ := failRemote_far (c := .fabricError) hfar hl hp hf hr ht hh hD hE (by simp [hc]) rfl nofun
        exact ⟨h, ((List.filter_sublist).cons_cons x.a).subset (hc ▸ hm), next_woke hq⟩
      · have hc := farHandles_reset (s := s) (k := k) hown
        obtain ⟨h, hm, hq⟩ := failWith_far (c := .engineReset) hfar hl hp hf ht hh hD hE (by simp [hc]) rfl rfl rfl
        exact ⟨h, hc ▸ hm, next_woke hq⟩
      · have hc := farHandles_universe (s := s) (k := k) hown hop
        obtain ⟨h, hm, hq⟩ := failWith_far (c := .setUniverse) hfar hl hp hf ht hh hD hE (by simp [hc]) rfl rfl rfl
        exact ⟨h, hc ▸ hm, next_woke hq⟩
      · exact next_woke (failWith_far_never hfar hl hp hf hD hE (farHandles_none hown hop hc))
      · have hc := (farHandles_sources (s := s) (k := k) hown).trans (farOperands_eq s x.op x.b x.c)
        have hne := List.ne_nil_of_mem (List.mem_filter.mpr ⟨hh', hset⟩)
        obtain ⟨h, hm, hq⟩ := failRemote_far (c := .fabricError) hfar hl hp hf hr ht hh hD hE (hc ▸ hne) rfl nofun
        exact ⟨h, hc ▸ hm, next_woke hq⟩

end Sys2Proof.Machine
end

section
/-! PROOFS. How waits end: MWAIT, admission, replays, command records and the watchdog (spec/01 R28, R29; spec/03 R87; spec/13 R261; spec/16 R325,
R326; spec/20 R377). -/

namespace Sys2Proof.Machine

open Sys2Proof.Claims

/-! ### Folds that work on one lane at each step -/

/-- A step works on the lane that its argument names, which becomes what `upd` says, and on no other. -/
structure LaneWise {α : Type} (key : α → LaneId) (upd : α → Option Lane → Option Lane) (f : State → α → State) : Prop where
  same : ∀ s a, (f s a).lane? (key a) = upd a (s.lane? (key a))
  others : ∀ s a j, j ≠ key a → (f s a).lane? j = s.lane? j

section Folds

variable {α : Type} {key : α → LaneId} {upd : α → Option Lane → Option Lane} {f : State → α → State}

theorem LaneWise.foldl_ne (h : LaneWise key upd f) {xs : List α} {j : LaneId} (hj : ∀ a ∈ xs, j ≠ key a) (s : State) :
    (xs.foldl f s).lane? j = s.lane? j := by
  induction xs generalizing s with
  | nil => rfl
  | cons a xs ih =>
    obtain ⟨ha, hxs⟩ := List.forall_mem_cons.mp hj
    exact (ih hxs (f s a)).trans (h.others s a j ha)

theorem LaneWise.foldl_mem (h : LaneWise key upd f) {xs : List α} (hd : xs.Pairwise (fun a b => key a ≠ key b)) {a : α} (ha : a ∈ xs) (s : State) :
    (xs.foldl f s).lane? (key a) = upd a (s.lane? (key a)) := by
  induction xs generalizing s with
  | nil => exact absurd ha List.not_mem_nil
  | cons b xs ih =>
    obtain ⟨hb, hxs⟩ := List.pairwise_cons.mp hd
    obtain rfl | ha := List.mem_cons.mp ha
    · exact (h.foldl_ne hb (f s a)).trans (h.same s a)
    · exact (ih hxs ha (f s b)).trans (congrArg (upd a) (h.others s b _ (hb a ha).symm))

/-- A step that only maps the lane it names. -/
theorem laneWise_map {g : α → Lane → Lane} : LaneWise key (fun a o => o.map (g a))
    (fun s a => match s.lane? (key a) with | some l => s.setLane (key a) (g a l) | none => s) where
  same s a := by
    cases h : s.lane? (key a) with
    | none => simp [h]
    | some l => simp
  others s a j hj := by
    cases s.lane? (key a) with
    | none => rfl
    | some l => exact State.lane_setLane_ne _ _ _ hj

end Folds

/-! ### The threads of a warp -/

section Threads

variable {s : State} {w : WarpId}

theorem warpThreads_apart : (warpThreads s w).Pairwise (fun p q => p.1 ≠ q.1) := by
  refine List.pairwise_map.mpr (List.pairwise_filterMap.mpr (List.nodup_range.imp ?_))
  intro i j hij p hp q hq hpq
  obtain ⟨l, _, rfl⟩ := Option.map_eq_some_iff.mp hp
  obtain ⟨m, _, rfl⟩ := Option.map_eq_some_iff.mp hq
  exact hij (congrArg LaneId.lane hpq)

theorem mem_warpThreads {i : Nat} {l : Lane} (hi : i < 32) (hl : s.lane? ⟨w.gang, w.group, w.warp, i⟩ = some l) :
    (⟨w.gang, w.group, w.warp, i⟩, l) ∈ warpThreads s w :=
  List.mem_map.mpr ⟨(i, l), List.mem_filterMap.mpr ⟨i, List.mem_range.mpr hi, by rw [hl]; rfl⟩, rfl⟩

end Threads

/-! ### MWAIT (spec/16 R325, R326) -/

/-- The registers that an MWAIT delivers to. -/
def mwaitRegs (dst : Operand) : List Nat := match dst with | .g n => [n] | _ => []

/-- The delivery by which an MWAIT ends. -/
def wakePend (l : Lane) (rs : List Nat) (v : Word) : Pend :=
  { id := 0, kind := .square, dst := rs, vals := some (rs.map (fun _ => v)), needs := Vec.zero, pc := l.pc, addr := 0, info := 0, remote := false
    fail := none, inTry := l.spec.isSome, waited := 0, acq := Vec.zero != Vec.zero }

theorem Lane.wake_mwait {l : Lane} {dst : Operand} {left : Option Nat} {next : Addr} (h : l.st = .mwait dst left next) (v : Word) :
    l.wake v Vec.zero =
      ({ l.emptyRegs (mwaitRegs dst) with st := .run, mon := none, pend := l.pend ++ [wakePend l (mwaitRegs dst) v] } : Lane).goto next := by
  simp only [Lane.wake, h]
  rfl

section Wakes

variable {s : State} {k : LaneId} {l : Lane} {dst : Operand} {left : Option Nat} {next : Addr}

theorem mwaitTimeout_due (hl : s.lane? k = some l) (hst : l.st = .mwait dst (some 0) next) :
    mwaitTimeout s k = s.setLane k (l.wake 1 Vec.zero) := by
  simp only [mwaitTimeout, hl, hst]

theorem mwaitTimeout_early (hl : s.lane? k = some l) (hst : l.st = .mwait dst left next) (hn : left ≠ some 0) :
    mwaitTimeout s k = s := by
  match left, hn with
  | none, _ => simp only [mwaitTimeout, hl, hst]
  | some 0, hn => exact absurd rfl hn
  | some (n + 1), _ => simp only [mwaitTimeout, hl, hst]

/-- The monitor ends with the MWAIT, whatever it has seen. -/
theorem Lane.wake_mon (hst : l.st = .mwait dst left next) (o : Option Monitor) (v : Word) :
    ({ l with mon := o } : Lane).wake v Vec.zero = l.wake v Vec.zero := by
  rw [Lane.wake_mwait hst, Lane.wake_mwait (l := { l with mon := o }) hst]
  cases dst <;> rfl

theorem spuriousTrigger_wakes {m : Monitor} (hl : s.lane? k = some l) (hst : l.st = .mwait dst left next) (hm : l.mon = some m)
    (hd : m.dormant = false) : spuriousTrigger s k = s.setLane k (l.wake 0 Vec.zero) := by
  simp only [spuriousTrigger, hl, hm, hd, Bool.false_eq_true, if_false, Lane.wake_mon hst]

theorem spuriousTrigger_dormant {m : Monitor} (hl : s.lane? k = some l) (hm : l.mon = some m) (hd : m.dormant = true) :
    spuriousTrigger s k = s.setLane k { l with mon := some { m with triggered := true } } := by
  simp only [spuriousTrigger, hl, hm, hd, if_true]

end Wakes

/-! ### Gangs none of whose lanes is parked or owes its trigger -/

/-- No lane of a gang is parked or owes its trigger. -/
def Still (s : State) (gang : Nat) : Prop := ∀ p ∈ s.lanes, p.1.gang = gang → p.2.st.parked = false ∧ p.2.trigDue = false

section Grants

variable {s : State} {gang : Nat}

theorem mem_of_mem_mset {K V : Type} [DecidableEq K] {m : List (K × V)} {k : K} {v : V} {p : K × V} (h : p ∈ mset m k v) : p = (k, v) ∨ p ∈ m := by
  induction m with
  | nil => exact .inl (List.mem_singleton.mp h)
  | cons q r ih =>
    by_cases hk : q.1 = k
    · rw [mset, if_pos hk] at h
      exact (List.mem_cons.mp h).imp_right (List.mem_cons_of_mem q)
    · rw [mset, if_neg hk] at h
      obtain rfl | h := List.mem_cons.mp h
      · exact .inr List.mem_cons_self
      · exact (ih h).imp_right (List.mem_cons_of_mem q)

theorem still_lane (h : Still s gang) {k : LaneId} {l : Lane} (hl : s.lane? k = some l) (hg : k.gang = gang) :
    l.st.parked = false ∧ l.trigDue = false := h (k, l) (mfind_mem hl) hg

theorem lateTrigger_still (h : Still s gang) {k : LaneId} (hg : k.gang = gang) : lateTrigger s k = s := by
  cases hl : s.lane? k with
  | none => simp [lateTrigger, hl]
  | some l => simp [lateTrigger, hl, (still_lane h hl hg).2]

/-- Nothing that waits for operations of such a gang's lanes changes. -/
theorem recheckGang_still (h : Still s gang) : recheckGang s gang = s := by
  have hw : ((s.warps.map Prod.fst).filter (fun w => w.gang == gang)).foldl recheckWaits s = s :=
    foldl_fixed _ (fun w hw => recheckWaits_idle (fun p hp =>
      (still_lane h (mem_warpLanes hp) (beq_iff_eq.mp (List.mem_filter.mp hw).2)).1))
  have hb : recheckBars s gang = s := recheckBars_idle (fun p hp => by
    obtain ⟨hp, hg⟩ := List.mem_filter.mp hp
    exact (h p hp (beq_iff_eq.mp (Bool.and_eq_true_iff.mp hg).1)).1)
  simp only [recheckGang, hw, hb]
  exact foldl_fixed _ (fun k hk => lateTrigger_still h (beq_iff_eq.mp (List.mem_filter.mp hk).2))

/-! ### The tokens of a restored gang (spec/01 R30) -/

theorem laneWise_regrant : LaneWise Prod.fst (fun p o => o.map (fun l => if l.st = .run then { l with token := p.2 } else l)) regrant where
  same s p := by
    cases hl : s.lane? p.1 with
    | none => simp [regrant, hl]
    | some l =>
      by_cases hr : l.st = .run
      · simp [regrant_run hl hr, hr]
      · simp only [regrant, hl, hr, if_false, Option.map_some]
        exact hl
  others s p j hj := by
    unfold regrant
    split
    · split
      · exact State.lane_setLane_ne _ _ _ hj
      · rfl
    · rfl

theorem still_regrant (h : Still s gang) (p : LaneId × Nat) : Still (regrant s p) gang := by
  unfold regrant
  split
  next l hl =>
    split
    next hr =>
      intro q hq hg
      obtain rfl | hq := mem_of_mem_mset hq
      · exact still_lane (k := p.1) (l := l) h hl hg
      · exact h q hq hg
    next => exact h
  next => exact h

theorem still_regrants (xs : List (LaneId × Nat)) : ∀ {s : State}, Still s gang → Still (xs.foldl regrant s) gang := by
  induction xs with
  | nil => exact id
  | cons p xs ih => exact fun h => ih (still_regrant h p)

theorem regrant_gang (s : State) (p : LaneId × Nat) (j : Nat) : (regrant s p).gang? j = s.gang? j := by
  unfold regrant
  split
  · split <;> rfl
  · rfl

/-- Lanes that still wait to issue take tokens that no die loses. -/
theorem regrants_dies {xs : List (LaneId × Nat)} (hd : (xs.map Prod.fst).Nodup) :
    ∀ {s : State}, (∀ p ∈ xs, ∃ m, s.lane? p.1 = some m ∧ m.st = .run) → (xs.foldl regrant s).dies = s.dies := by
  induction xs with
  | nil => exact fun _ => rfl
  | cons p xs ih =>
    intro s h
    obtain ⟨hp, hxs⟩ := List.nodup_cons.mp hd
    obtain ⟨⟨m, hm, hr⟩, hrest⟩ := List.forall_mem_cons.mp h
    refine (ih hxs (s := regrant s p) (fun q hq => ?_)).trans (by rw [regrant_run hm hr]; rfl)
    rw [laneWise_regrant.others s p q.1 (fun e => hp (e ▸ List.mem_map_of_mem hq))]
    exact hrest q hq

end Grants

/-! ### Admission (spec/01 R29; spec/22 R416) -/

/-- The die's tokens once the head of its queue has its own. -/
def headGranted (s : State) (d : Nat) (r : AdmReq) (rest : List AdmReq) : State :=
  s.setDie d { s.die d with admq := rest, held := (s.die d).held + r.units }

section Admission

variable {s : State} {d : Nat} {r : AdmReq} {rest : List AdmReq}

theorem grantDue_iff (hq : (s.die d).admq = r :: rest) :
    grantDue s d = true ↔ (s.die d).hot = false ∧
      ((s.die d).held + r.units ≤ (s.mreg ⟨.admbudget, d, 0⟩).toNat - (s.mreg ⟨.admres, d, 0⟩).toNat ∨ (s.die d).held = 0) := by
  simp [grantDue, hq]

theorem admissionGrant_due (h : grantDue s d = true) : exec (.admissionGrant d) s = .next (woke (grant s d)) :=
  congrArg Host.Outcome.next (if_pos h)

theorem admissionGrant_waits (h : grantDue s d = false) : exec (.admissionGrant d) s = .next s :=
  congrArg Host.Outcome.next (if_neg (by rw [h]; exact Bool.false_ne_true))

theorem grant_lane {l : Lane} (hq : (s.die d).admq = r :: rest) (hw : r.who = .lane) (hl : s.lane? r.lane = some l) :
    grant s d = (headGranted s d r rest).setLane r.lane { l with st := .run, token := r.units } := by
  simp only [grant, hq, hw, State.lane_setDie, hl, headGranted]

theorem grant_gang (hq : (s.die d).admq = r :: rest) (hw : r.who = .gang) : grant s d = grantGang (headGranted s d r rest) r.lane.gang := by
  simp only [grant, hq, hw, headGranted]

/-- The lanes of a restored gang that wait to issue hold the tokens they held at the save (spec/01 R30). -/
theorem grantGang_restores {gang : Nat} {x : Gang} (hx : s.gang? gang = some x) (hs : Still s gang) (hd : (x.tokSaved.map Prod.fst).Nodup)
    (hr : ∀ p ∈ x.tokSaved, ∃ m, s.lane? p.1 = some m ∧ m.st = .run) :
    (grantGang s gang).gang? gang = some { x with waitTok := false, tokSaved := [] } ∧ (grantGang s gang).dies = s.dies ∧
      (∀ p ∈ x.tokSaved, ∀ m, s.lane? p.1 = some m → (grantGang s gang).lane? p.1 = some { m with token := p.2 }) ∧
      ∀ k, k ∉ x.tokSaved.map Prod.fst → (grantGang s gang).lane? k = s.lane? k := by
  obtain ⟨c, hl, hdies, hg⟩ : ∃ c : State, c.lanes = s.lanes ∧ c.dies = s.dies ∧
      grantGang s gang = x.tokSaved.foldl regrant (c.setGang gang { x with waitTok := false, tokSaved := [] }) := by
    refine ⟨{ s with cores := s.cores.map (fun (p : Nat × Core) =>
      (p.1, p.2.granted gang ((s.die (dieOf p.1)).admq.any (fun r => r.who == .engine && r.core == p.1)))) }, rfl, rfl, ?_⟩
    have hx' : ∀ cs, State.gang? { s with cores := cs } gang = some x := fun _ => hx
    simp only [grantGang, hx']
    split
    · exact recheckGang_still (still_regrants _ hs)
    · rfl
  have hfind : ∀ k, (c.setGang gang { x with waitTok := false, tokSaved := [] }).lane? k = s.lane? k := fun k => congrArg (mfind · k) hl
  rw [hg]
  refine ⟨?_, ?_, fun p hp m hm => ?_, fun k hk => ?_⟩
  · rw [foldl_keeps (fun t : State => t.gang? gang) (fun t p => regrant_gang t p gang), State.gang_setGang_same]
  · exact (regrants_dies hd (fun p hp => by rw [hfind]; exact hr p hp)).trans hdies
  · obtain ⟨m', hm', hrun⟩ := hr p hp
    obtain rfl : m = m' := Option.some.inj (hm.symm.trans hm')
    rw [laneWise_regrant.foldl_mem (List.pairwise_map.mp hd) hp, hfind, hm]
    simp [hrun]
  · rw [laneWise_regrant.foldl_ne (fun p hp e => hk (List.mem_map.mpr ⟨p, hp, e.symm⟩)), hfind]

/-- The state that frees the lanes of a warp in MACQ: its engine holds its token. -/
def engineGranted (s : State) (d : Nat) (r : AdmReq) (rest : List AdmReq) : State :=
  let s := headGranted s d r rest
  s.setCore r.core { s.core r.core with mx := { (s.core r.core).mx with token := true } }

/-- The lanes of a warp that wait at MACQ, and where they go on. -/
def macqWaiters (s : State) (w : WarpId) : List (LaneId × Addr) :=
  (warpThreads s w).filterMap (fun p => match p.2.st with | .macq next _ => some (p.1, next) | _ => none)

theorem grant_engine (hq : (s.die d).admq = r :: rest) (hw : r.who = .engine) :
    grant s d = release (engineGranted s d r rest) (macqWaiters s (LaneId.wid r.lane)) := by
  simp only [grant, hq, hw]
  rfl

theorem engineGranted_token : ((engineGranted s d r rest).core r.core).mx.token = true :=
  congrArg (fun c => c.mx.token) (State.core_setCore_same _ _ _)

theorem mem_macqWaiters {w : WarpId} {i : Nat} {m : Lane} {next : Addr} {on : Bool} (hi : i < 32)
    (hm : s.lane? ⟨w.gang, w.group, w.warp, i⟩ = some m) (hst : m.st = .macq next on) :
    (⟨w.gang, w.group, w.warp, i⟩, next) ∈ macqWaiters s w :=
  List.mem_filterMap.mpr ⟨_, mem_warpThreads hi hm, by simp only [hst]⟩

theorem macqWaiters_apart {w : WarpId} : (macqWaiters s w).Pairwise (fun p q => p.1 ≠ q.1) := by
  have name : ∀ (p : LaneId × Lane) (b : LaneId × Addr),
      (match p.2.st with | .macq next _ => some (p.1, next) | _ => none) = some b → b.1 = p.1 := by
    intro p b h
    cases hst : p.2.st <;> simp only [hst, reduceCtorEq, Option.some.injEq] at h
    exact h ▸ rfl
  refine List.pairwise_filterMap.mpr (warpThreads_apart.imp ?_)
  intro p q hpq b hb c hc
  rw [name p b hb, name q c hc]
  exact hpq

theorem laneWise_release : LaneWise Prod.fst (fun p o => o.map (fun l => ({ l with st := .run } : Lane).goto p.2)) (fun (s : State) (p : LaneId × Addr) =>
    match s.lane? p.1 with
    | some l => s.setLane p.1 (({ l with st := .run } : Lane).goto p.2)
    | none => s) := laneWise_map

theorem release_lane {ls : List (LaneId × Addr)} (hd : ls.Pairwise (fun p q => p.1 ≠ q.1)) {p : LaneId × Addr} (hp : p ∈ ls) (s : State) :
    (release s ls).lane? p.1 = (s.lane? p.1).map (fun l => ({ l with st := .run } : Lane).goto p.2) := laneWise_release.foldl_mem hd hp s

/-- Lanes that go on change nothing but themselves. -/
theorem release_keeps {β : Type} (f : State → β) (hf : ∀ t k l, f (t.setLane k l) = f t) (s : State) (ls : List (LaneId × Addr)) :
    f (release s ls) = f s :=
  foldl_keeps f (fun t p => by split <;> simp [hf]) ls s

/-! ### An admission wait that ends in time (spec/01 R29) -/

theorem leaveWait_admq {k : LaneId} {l : Lane} (hl : s.lane? k = some l) (hst : l.st = .adm) (hk : laneDie s k = d) :
    ((leaveWait s k).die d).admq = (s.die d).admq.filter (fun q => !(q.who == .lane && q.lane == k)) := by
  subst hk
  simp only [leaveWait, hl, hst, laneDie, State.die_setDie_same, dropRoads]

theorem admissionTimeout_lane {l : Lane} (hq : (s.die d).admq = r :: rest) (hw : r.who = .lane) (hl : s.lane? r.lane = some l)
    (h0 : (s.mreg ⟨.admwd, laneCtx s r.lane, 0⟩).toNat ≠ 0) (hlate : (s.mreg ⟨.admwd, laneCtx s r.lane, 0⟩).toNat * 65536 ≤ r.waited) :
    exec (.admissionTimeout d 0) s = .next (woke (parkSub (leaveWait s r.lane) (LaneId.wid r.lane) l.pc (lenAt s (LaneId.wid r.lane) l.pc)
      [(r.lane.lane, TrapInfo.plain .admissionTimeout 0)])) := by
  have ha : admLate s r = true := by simp [admLate, hw, h0, hlate]
  refine next_woke ?_
  simp [admTimeout, hq, ha, hw, hl]

end Admission

/-! ### Replays (spec/03 R87) -/

/-- A lane whose registers are full again with the values they held. -/
def Lane.refill (l : Lane) (dst : List Nat) : Lane := dst.foldl (fun l r => l.setReg r (l.reg r).val) l

section Replays

variable {l : Lane}

theorem Lane.reissue_replay {rel : Bool} {dst : List Nat} (h : l.st = .replay rel dst) : l.reissue = { l.refill dst with st := .run } := by
  simp only [Lane.reissue, h, Lane.refill]

theorem Lane.refill_cons (r : Nat) (dst : List Nat) : l.refill (r :: dst) = (l.setReg r (l.reg r).val).refill dst := rfl

theorem Lane.refill_pc (dst : List Nat) : (l.refill dst).pc = l.pc := foldl_keeps Lane.pc (f := fun l r => l.setReg r (l.reg r).val) (fun _ _ => rfl) dst l

/-- A register that is full again has its value. -/
theorem Lane.val_setReg_val (r n : Nat) : ((l.setReg r (l.reg r).val).reg n).val = (l.reg n).val := by
  by_cases hn : n = r
  · subst hn
    by_cases hr : n < l.regs.length
    · rw [Lane.reg_setReg_same _ _ hr]
    · have hset : l.setReg n (l.reg n).val = l := by simp [Lane.setReg, List.set_eq_of_length_le (Nat.not_lt.mp hr)]
      rw [hset]
  · rw [Lane.reg_setReg_ne _ _ hn]

theorem Lane.refill_ne {n : Nat} {dst : List Nat} (h : n ∉ dst) (l : Lane) : (l.refill dst).reg n = l.reg n := by
  induction dst generalizing l with
  | nil => rfl
  | cons r dst ih =>
    obtain ⟨hr, hd⟩ := not_or.mp (mt List.mem_cons.mpr h)
    rw [Lane.refill_cons, ih hd, Lane.reg_setReg_ne _ _ hr]

theorem Lane.refill_mem {n : Nat} {dst : List Nat} (h : n ∈ dst) (l : Lane) (hn : n < l.regs.length) : (l.refill dst).reg n = ⟨(l.reg n).val, true⟩ := by
  induction dst generalizing l with
  | nil => exact absurd h List.not_mem_nil
  | cons r dst ih =>
    rw [Lane.refill_cons]
    by_cases hd : n ∈ dst
    · rw [ih hd _ (by rwa [Lane.setReg_length]), Lane.val_setReg_val]
    · obtain rfl : n = r := (List.mem_cons.mp h).resolve_right hd
      rw [Lane.refill_ne hd, Lane.reg_setReg_same _ _ hn]

end Replays

theorem laneWise_reissue : LaneWise Prod.fst (fun q _ => some q.2.reissue) (fun (s : State) (q : LaneId × Lane) => s.setLane q.1 q.2.reissue) where
  same s q := s.lane_setLane_same q.1 q.2.reissue
  others s q _ hj := State.lane_setLane_ne s q.1 q.2.reissue hj

theorem replayWarp_lane {s : State} {w : WarpId} {q : LaneId × Lane} (hq : q ∈ replayLanes s w) : (replayWarp s w).lane? q.1 = some q.2.reissue :=
  laneWise_reissue.foldl_mem (warpThreads_apart.filter _) hq s

theorem replayLanes_st {s : State} {w : WarpId} {q : LaneId × Lane} (hq : q ∈ replayLanes s w) : ∃ dst, q.2.st = .replay true dst := by
  obtain ⟨_, hst⟩ := Bool.and_eq_true_iff.mp (List.mem_filter.mp hq).2
  split at hst
  next dst h => exact ⟨dst, h⟩
  next => exact absurd hst Bool.false_ne_true

/-! ### Command records (spec/13 R261) -/

section Records

variable {s : State} {k : LaneId} {l : Lane}

theorem cqRecord_bad (hl : s.lane? k = some l) (hc : l.cq.length = 12) (hq : l.quiet = true) (hp : cqParse l.cq = none) :
    cqRecord s k = parkSub (s.setLane k { l with cq := [] }) (LaneId.wid k) l.pc (lenAt s (LaneId.wid k) l.pc)
      [(k.lane, TrapInfo.plain .streamBadCmd 0)] := by
  simp only [cqRecord, hl, hc, hq, hp, Nat.lt_irrefl, decide_false, Bool.not_true, Bool.or_self, Bool.false_eq_true, if_false]

theorem cqRecord_issues {a : CmdArgs} {u : State} {v : Nat} {m : Lane} (hl : s.lane? k = some l) (hc : l.cq.length = 12) (hq : l.quiet = true)
    (hp : cqParse l.cq = some a) (hi : cmdIssue s k a = .issued u v) (hm : u.lane? k = some m) :
    cqRecord s k = u.setLane k { m with cq := [] } := by
  simp only [cqRecord, hl, hc, hq, hp, hi, hm, Nat.lt_irrefl, decide_false, Bool.not_true, Bool.or_self, Bool.false_eq_true, if_false]

end Records

/-! ### The watchdog (spec/20 R377) -/

/-- The handler's registers of a lane that a sub-warp's trap reaches with WATCHDOG (spec/03 R85; spec/20 R377). -/
def watchHandler (u : SubWarp) (l : Lane) : Handler :=
  { u.regs with cause := BitVec.ofNat 6 Cause.watchdog.code, info := BitVec.ofNat 32 u.cause.code, pc := l.pc, len := if l.pc = u.pc then u.len else 0
                cmp := if u.cause == .breakpoint && flg u.xinfo 8 then l.cmpSkip ++ [fld u.xinfo 11 9] else [] }

section Watchdog

variable {s : State} {g : GroupId} {v : WarpId} {u : SubWarp} {y : Group}

theorem wdogDue_iff (hg : gangRuns s g.gang = true) (hy : s.group? g = some y) :
    wdogDue s g = true ↔ (s.mreg ⟨.wdog, gangCtx s g.gang, 0⟩).toNat ≠ 0 ∧ (s.mreg ⟨.wdog, gangCtx s g.gang, 0⟩).toNat * 65536 ≤ y.wdog := by
  simp [wdogDue, hg, hy]

theorem deliverTrap_groups (watch : Bool) : (deliverTrap s v u watch).groups = s.groups := by
  unfold deliverTrap
  refine (foldl_keeps State.groups (fun t i => ?_) _ _).trans ?_
  · dsimp only
    cases t.lane? ⟨v.gang, v.group, v.warp, i⟩ <;> rfl
  · split <;> rfl

theorem deliverTrap_watch_lane {i : Nat} {l : Lane} (hi : i < 32) (hm : flg u.mask i = true)
    (hl : s.lane? ⟨v.gang, v.group, v.warp, i⟩ = some l) :
    (deliverTrap s v u true).lane? ⟨v.gang, v.group, v.warp, i⟩ =
      some { l with st := .run, pc := s.mreg ⟨.vector, gangCtx s v.gang, 0⟩, hx := some (watchHandler u l), cmpSkip := [] } := by
  have hset : i ∈ setBits 32 u.mask := List.mem_filter.mpr ⟨List.mem_range.mpr hi, hm⟩
  have hapart : (setBits 32 u.mask).Pairwise (fun i j => (⟨v.gang, v.group, v.warp, i⟩ : LaneId) ≠ ⟨v.gang, v.group, v.warp, j⟩) :=
    (List.nodup_range.filter _).imp (fun hne e => hne (congrArg LaneId.lane e))
  have hfold := (laneWise_map (key := fun i => ⟨v.gang, v.group, v.warp, i⟩)
    (g := fun _ l => { l with st := .run, pc := s.mreg ⟨.vector, gangCtx s v.gang, 0⟩, hx := some (watchHandler u l), cmpSkip := [] })).foldl_mem
      hapart hset
  refine (hfold _).trans ?_
  split
  · rw [State.lane_setWarp, hl, Option.map_some]
  · rw [hl, Option.map_some]

/-- The first awaiting sub-warp of a group none of whose sub-warps has been delivered meets the watchdog. -/
theorem watchdogFires_first (hf : firstSub (groupSubs s g) = some (v, u)) (hn : ∀ p ∈ groupSubs s g, p.2.delivered = false)
    (hc : u.cause ≠ .watchdog) : watchdogFires s g = clearWdog (deliverTrap s v u true) g := by
  have hall : (groupSubs s g).filter (fun p => !p.2.delivered) = groupSubs s g := List.filter_eq_self.mpr (fun p hp => by simp [hn p hp])
  have hnone : (groupSubs s g).any (fun p => p.2.delivered) = false := List.any_eq_false.mpr (fun p hp => by simp [hn p hp])
  simp only [watchdogFires, hall, hf, hnone, Bool.false_eq_true, if_false, deliverSub, bne_iff_ne.mpr hc, Bool.and_self, Bool.true_or, if_true]

theorem clearWdog_group (hy : s.group? g = some y) : (clearWdog s g).group? g = some { y with wdog := 0 } := by
  simp only [clearWdog, hy, State.group_setGroup_same]

theorem clearWdog_lane (k : LaneId) : (clearWdog s g).lane? k = s.lane? k := by
  unfold clearWdog
  split <;> rfl

end Watchdog

/-- Settles O45, by an equation for each event: grants, replays and traps are folds over lanes of different names. -/
theorem waitsEnd : Obligations.WaitsEnd := by
  refine ⟨?_, ?_, ?_, ?_, ?_⟩
  · intro s k l dst next left hl hst rs goes
    refine ⟨fun h0 => ⟨wakePend l rs 1, rfl, rfl, ?_⟩, fun hn => next_woke (mwaitTimeout_early hl hst hn),
      fun m hm => ⟨fun hd => ⟨wakePend l rs 0, rfl, rfl, ?_⟩, fun hd => next_woke (spuriousTrigger_dormant hl hm hd)⟩⟩
    · exact next_woke ((mwaitTimeout_due hl (h0 ▸ hst)).trans (congrArg (s.setLane k) (Lane.wake_mwait hst 1)))
    · exact next_woke ((spuriousTrigger_wakes hl hst hm hd).trans (congrArg (s.setLane k) (Lane.wake_mwait hst 0)))
  · intro s d r rest l hq hl budget limit granted
    refine ⟨fun hhot hfits => ?_, fun hno => ?_, fun hw h0 hlate hst hd => ⟨?_, admissionTimeout_lane hq hw hl h0 hlate⟩⟩
    · have hgo := admissionGrant_due ((grantDue_iff hq).mpr ⟨hhot, hfits⟩)
      refine ⟨fun hw => hgo.trans (next_woke (grant_lane hq hw hl)), fun hw hpark htrig x hx hnd hrun => ?_, fun hw => ?_⟩
      · exact ⟨_, hgo.trans (next_woke (grant_gang hq hw)),
          grantGang_restores (s := headGranted s d r rest) hx (fun p hp hg => ⟨hpark p hp hg, htrig p hp hg⟩) hnd hrun⟩
      · refine ⟨_, hgo.trans (next_woke (grant_engine hq hw)), ?_, release_keeps State.dies (fun _ _ _ => rfl) _ _, fun i hi m next on hm hst => ?_⟩
        · exact (release_keeps (fun t => (t.core r.core).mx.token) (fun _ _ _ => rfl) _ _).trans engineGranted_token
        · have hrel := release_lane macqWaiters_apart (mem_macqWaiters (w := LaneId.wid r.lane) hi hm hst) (engineGranted s d r rest)
          exact hrel.trans (congrArg (Option.map (fun l => ({ l with st := .run } : Lane).goto next)) hm)
    · refine admissionGrant_waits (Bool.eq_false_iff.mpr (fun h => ?_))
      obtain ⟨hhot, hfits⟩ := (grantDue_iff hq).mp h
      rcases hno with hh | ⟨hover, hheld⟩
      · exact Bool.false_ne_true (hhot.symm.trans hh)
      · exact hfits.elim (fun hle => absurd hle (Nat.not_le.mpr hover)) hheld
    · rw [leaveWait_admq hl hst hd, hq]
      simp [hw]
  · intro s w hg
    refine ⟨_, congrArg Host.Outcome.next (if_pos hg), fun q hq => ?_⟩
    obtain ⟨dst, hst⟩ := replayLanes_st hq
    have hq' := Lane.reissue_replay hst
    refine ⟨_, replayWarp_lane hq, by rw [hq'], by rw [hq']; exact Lane.refill_pc dst, fun rel' dst' n hst' hn hlen => ?_⟩
    cases hst.symm.trans hst'
    rw [hq']
    exact Lane.refill_mem hn q.2 hlen
  · intro s u k l m hl hc hq s0
    exact ⟨fun hp => next_woke (cqRecord_bad hl hc hq hp), fun a v hp hi hm => next_woke (cqRecord_issues hl hc hq hp hi hm)⟩
  · intro s g v u x y hg hy hx limit
    refine ⟨fun hno => congrArg Host.Outcome.next (if_neg (fun h => ?_)), fun h0 hle hf hn hc => ?_⟩
    · obtain ⟨h0, hle⟩ := (wdogDue_iff hg hy).mp h
      exact hno.elim h0 (fun hlt => absurd hle (Nat.not_le.mpr hlt))
    · refine ⟨_, (congrArg Host.Outcome.next (if_pos ((wdogDue_iff hg hy).mpr ⟨h0, hle⟩))).trans (next_woke (watchdogFires_first hf hn hc)),
        clearWdog_group ((congrArg (mfind · g) (deliverTrap_groups true)).trans hy), fun i hi l hm hl => ⟨watchHandler u l, ?_, rfl, rfl, rfl, rfl⟩⟩
      exact (clearWdog_lane _).trans (deliverTrap_watch_lane hi hm hl)

end Sys2Proof.Machine
end

section
/-! PROOFS. The fill unit and the encoder agree: the length that a header byte gives (spec/02 R36), the places of the stored bytes (R34), the fields
that they expand to (R35, R43, R45, R50), and the row that an OP names (R58). -/

namespace Sys2Proof

open Laws

/-! ### What a fill gives -/

/-- A fill whose bytes are all there has the length that the header byte gives, and is no fetch fault (R36, R38). -/
theorem fill_whole {h : Byte} {rest : List Byte} (hlen : lengthOf h ≤ (h :: rest).length) :
    (∃ i, fill (h :: rest) = .word i (lengthOf h)) ∨ ∃ c o, c ≠ .fetchFault ∧ fill (h :: rest) = .fault c o (lengthOf h) := by
  have illegal (c : Cause) (o : Nat) (hc : c ≠ .fetchFault) :
      (∃ i, Filled.fault c o (lengthOf h) = .word i (lengthOf h)) ∨
        ∃ d p, d ≠ .fetchFault ∧ Filled.fault c o (lengthOf h) = .fault d p (lengthOf h) := .inr ⟨c, o, hc, rfl⟩
  simp only [fill, if_neg (Nat.not_lt.2 hlen)]
  split
  · exact illegal _ _ (by decide)
  · split
    · exact illegal _ _ (by decide)
    · split
      · exact illegal _ _ (by decide)
      · split
        · exact .inl ⟨_, rfl⟩
        · exact illegal _ _ (by decide)

/-- Legal bytes of an assigned OP are a word (R38). -/
theorem fill_word {h : Byte} {bs rest : List Byte} {i : Instr} (hbs : bs = h :: rest) (hlen : lengthOf h ≤ bs.length) (hx : ¬ (flg h 6 ∧ flg h 5))
    (hc : flg h 4 → flg h 3) (hz : mbzOffset bs = none) (hop : ofOp (opOf bs) (expand bs) = some i) : fill bs = .word i (lengthOf h) := by
  subst hbs
  have hcb : ¬ (flg h 4 ∧ ¬ flg h 3) := fun ⟨h4, h3⟩ => h3 (hc h4)
  simp only [fill, if_neg (Nat.not_lt.2 hlen), if_neg hx, if_neg hcb, hz, hop]

/-- What decodes with no byte left over is a word of the length that its header byte gives (R36). -/
theorem fill_of_decode {h : Byte} {rest : List Byte} {i : Instr} (hlen : lengthOf h ≤ (h :: rest).length)
    (hd : decode (h :: rest) = some (i, [])) : fill (h :: rest) = .word i (lengthOf h) := by
  obtain ⟨j, hj⟩ | ⟨c, o, -, hf⟩ := fill_whole hlen
  · obtain ⟨rfl, -⟩ : j = i ∧ _ := by simpa [decode, hj] using hd
    exact hj
  · simp [decode, hf] at hd

/-- Bytes that are all there and do not decode are a fault word (R38, R39). -/
theorem fill_of_decode_none {h : Byte} {rest : List Byte} (hlen : lengthOf h ≤ (h :: rest).length) (hd : decode (h :: rest) = none) :
    ∃ c o, fill (h :: rest) = .fault c o (lengthOf h) := by
  obtain ⟨j, hj⟩ | ⟨c, o, -, hf⟩ := fill_whole hlen
  · simp [decode, hj] at hd
  · exact ⟨c, o, hf⟩

/-! ### Bits and fields of a byte -/

theorem b2n_le_one (b : Bool) : b2n b ≤ 1 := by cases b <;> decide

theorem toNat_byte {n : Nat} (h : n < 256) : (BitVec.ofNat 8 n).toNat = n := Nat.mod_eq_of_lt h

theorem flg_byte {n i : Nat} {b : Bool} (hi : i < 8) (h : n / 2 ^ i % 2 = b2n b) : flg (BitVec.ofNat 8 n) i = b := by
  have hb : decide (b2n b = 1) = b := by cases b <;> rfl
  simp only [flg, BitVec.getLsbD_ofNat, hi, decide_true, Bool.true_and, Nat.testBit_eq_decide_div_mod_eq, h, hb]

theorem fld_byte {n : Nat} (h : n < 256) (hi lo : Nat) : fld (BitVec.ofNat 8 n) hi lo = n / 2 ^ lo % 2 ^ (hi + 1 - lo) := by
  rw [fld, toNat_byte h, Nat.shiftRight_eq_div_pow]

/-! ### Codes -/

theorem Operand.code_lt {o : Operand} (h : o.wf = true) : o.code < 256 := by
  cases o <;>
    simp only [Operand.wf, Operand.code, illegalCode, decide_eq_true_eq, Bool.and_eq_true, Bool.or_eq_true, beq_iff_eq, bne_iff_ne] at h ⊢ <;>
    omega

/-- The code of an operand names it (R45, R46). -/
theorem Operand.ofCode_code {o : Operand} (h : o.wf = true) : Operand.ofCode o.code = o := by
  cases o with
  | g n =>
    have hn : n < 128 := by simpa [Operand.wf] using h
    exact if_pos hn
  | q n =>
    have hn : n < 16 := by simpa [Operand.wf] using h
    rw [Operand.code, Operand.ofCode, if_neg, if_pos, Nat.add_sub_cancel_left] <;> omega
  | m n =>
    have hn : n < 12 := by simpa [Operand.wf] using h
    rw [Operand.code, Operand.ofCode, if_neg, if_neg, if_pos, Nat.add_sub_cancel_left] <;> omega
  | lc n =>
    have hn : n < 3 := by simpa [Operand.wf] using h
    rw [Operand.code, Operand.ofCode, if_neg, if_neg, if_neg, if_pos, Nat.add_sub_cancel_left] <;> omega
  | sr n =>
    obtain ⟨hn, h15⟩ : n < 21 ∧ n ≠ 15 := by simpa [Operand.wf] using h
    rw [Operand.code, Operand.ofCode, if_neg, if_neg, if_neg, if_neg, if_neg, if_neg, if_pos, Nat.add_sub_cancel_left] <;> omega
  | ill c =>
    have hc : ((c = 0x9F ∨ c = 0xAF) ∨ 0xB5 ≤ c ∧ c ≤ 0xEF) ∨ 0xF2 ≤ c ∧ c ≤ 0xFD := by simpa [Operand.wf, illegalCode] using h
    obtain ((rfl | rfl) | ⟨hlo, hhi⟩) | ⟨hlo, hhi⟩ := hc
    · rfl
    · rfl
    · rw [Operand.code, Operand.ofCode, if_neg, if_neg, if_neg, if_neg, if_neg, if_neg, if_neg, if_pos] <;> omega
    · rw [Operand.code, Operand.ofCode, if_neg, if_neg, if_neg, if_neg, if_neg, if_neg, if_neg, if_neg, if_neg, if_neg, if_neg, if_neg] <;> omega
  | z | absent | imm | none => rfl

theorem Operand.ofCode_byte {o : Operand} (h : o.wf = true) : Operand.ofCode (BitVec.ofNat 8 o.code).toNat = o := by
  rw [toNat_byte (Operand.code_lt h), Operand.ofCode_code h]

theorem Ty.code_lt {t : Ty} (h : t.wf = true) : t.code < 32 := by
  cases t
  case ill k =>
    have hk : k < 7 := by simpa [Ty.wf] using h
    exact Nat.add_lt_add_left hk 25
  all_goals decide

/-- The code of a type names it (R50). -/
theorem Ty.ofCode_code (t : Ty) : Ty.ofCode t.code = t := by
  cases t
  case ill k => simp [Ty.ofCode, Ty.code, Ty.table]
  all_goals rfl

theorem Ty.ofCode_byte {t : Ty} (h : t.wf = true) : Ty.ofCode (fld (BitVec.ofNat 8 t.code) 4 0) = t := by
  have hcode := Ty.code_lt h
  have hfld : fld (BitVec.ofNat 8 t.code) 4 0 = t.code := (fld_byte (by omega) 4 0).trans (by omega)
  rw [hfld, Ty.ofCode_code]

/-! ### Bytes in order -/

theorem ofBytesLE_bytesLE (n v : Nat) : ofBytesLE (bytesLE n v) = v % 256 ^ n := by
  induction n generalizing v with
  | zero => exact (Nat.mod_one v).symm
  | succ n ih =>
    have hlow : (BitVec.ofNat 8 v).toNat = v % 256 := rfl
    rw [bytesLE, ofBytesLE, ih, hlow, Nat.pow_succ', Nat.mod_mul]

theorem bytesLE_length (n v : Nat) : (bytesLE n v).length = n := by
  induction n generalizing v with
  | zero => rfl
  | succ n ih => rw [bytesLE, List.length_cons, ih]

theorem byteAt_append {l r : List Byte} {n : Nat} (h : l.length = n) (i : Nat) : byteAt (l ++ r) (n + i) = byteAt r i := by
  subst h
  simp [byteAt, List.getElem?_append_right]

/-! ### The stored form of an OP and its fields (R33, R34) -/

/-- Which optional bytes the encoder stores. -/
def storesC (w : IWord) : Bool := !(w.c == .none)
def storesB (w : IWord) : Bool := storesC w || !(w.b == .none)
def storesW (w : IWord) : Bool := w.wa || w.wb || w.wc
def storesX2 (w : IWord) : Bool := !(w.x == 0#32) && fitsX2 w.x
def storesX4 (w : IWord) : Bool := !(w.x == 0#32) && !fitsX2 w.x

/-- The header byte. -/
def headerOf (op : Nat) (w : IWord) : Byte :=
  BitVec.ofNat 8 (128 * b2n w.ge + 64 * b2n (storesX4 w) + 32 * b2n (storesX2 w) + 16 * b2n (storesC w) + 8 * b2n (storesB w) +
    4 * b2n (storesW w) + op / 256)

/-- The bytes before W, then W, the guard bytes, and X. -/
def frontBytes (op : Nat) (w : IWord) : List Byte :=
  [headerOf op w, BitVec.ofNat 8 (op % 256), BitVec.ofNat 8 w.d.code, BitVec.ofNat 8 w.a.code] ++
    ((if storesB w then [BitVec.ofNat 8 w.b.code] else []) ++ (if storesC w then [BitVec.ofNat 8 w.c.code] else []))
def wBytes (w : IWord) : List Byte := if storesW w then [BitVec.ofNat 8 (4 * b2n w.wc + 2 * b2n w.wb + b2n w.wa)] else []
def guardBytes (w : IWord) : List Byte := if w.ge then [BitVec.ofNat 8 (128 * b2n w.gn + w.gr), BitVec.ofNat 8 w.gb] else []
def xBytes (w : IWord) : List Byte := if storesX4 w then bytesLE 4 w.x.toNat else if storesX2 w then bytesLE 2 w.x.toNat else []

theorem encodeWord_eq (op : Nat) (w : IWord) :
    encodeWord op w = frontBytes op w ++ (wBytes w ++ (guardBytes w ++ (BitVec.ofNat 8 w.t.code :: xBytes w))) := by
  simp only [frontBytes, List.append_assoc]
  simp only [encodeWord, List.append_assoc]
  rfl

/-- What the header says (R33); `v` is its bit for W. -/
structure HeaderBits (op : Nat) (w : IWord) : Prop where
  ge : flg (headerOf op w) 7 = w.ge
  x4 : flg (headerOf op w) 6 = storesX4 w
  x2 : flg (headerOf op w) 5 = storesX2 w
  c : flg (headerOf op w) 4 = storesC w
  b : flg (headerOf op w) 3 = storesB w
  v : flg (headerOf op w) 2 = storesW w
  op : fld (headerOf op w) 1 0 = op / 256

theorem byteAt_header (op : Nat) (w : IWord) : byteAt (encodeWord op w) 0 = headerOf op w := by rw [encodeWord_eq]; rfl

section
variable {op : Nat} (w : IWord) (hop : op < 1024)
include hop

/-- The header is a number of seven digits, the last of them to base 4. -/
theorem headerOf_bits : HeaderBits op w := by
  have h7 := b2n_le_one w.ge
  have h6 := b2n_le_one (storesX4 w)
  have h5 := b2n_le_one (storesX2 w)
  have h4 := b2n_le_one (storesC w)
  have h3 := b2n_le_one (storesB w)
  have h2 := b2n_le_one (storesW w)
  constructor
  case op => exact (fld_byte (by omega) 1 0).trans (by omega)
  all_goals exact flg_byte (by decide) (by omega)

/-! The parts are as long as the header says (R34). -/

theorem frontBytes_length : (frontBytes op w).length = posW (headerOf op w) := by
  simp only [posW, bit1, (headerOf_bits w hop).b, (headerOf_bits w hop).c, frontBytes]
  cases storesB w <;> cases storesC w <;> rfl

theorem wBytes_length : (wBytes w).length = bit1 (headerOf op w) 2 := by
  simp only [bit1, (headerOf_bits w hop).v, wBytes]
  cases storesW w <;> rfl

theorem guardBytes_length : (guardBytes w).length = 2 * bit1 (headerOf op w) 7 := by
  simp only [bit1, (headerOf_bits w hop).ge, guardBytes]
  cases w.ge <;> rfl

/-! The bytes at the places that the header gives (R34). -/

theorem byteAt_posW (i : Nat) : byteAt (encodeWord op w) (posW (headerOf op w) + i) =
    byteAt (wBytes w ++ (guardBytes w ++ (BitVec.ofNat 8 w.t.code :: xBytes w))) i := by
  rw [encodeWord_eq, byteAt_append (frontBytes_length w hop)]

theorem byteAt_posG (i : Nat) : byteAt (encodeWord op w) (posG (headerOf op w) + i) =
    byteAt (guardBytes w ++ (BitVec.ofNat 8 w.t.code :: xBytes w)) i := by
  rw [posG, Nat.add_assoc, byteAt_posW w hop, byteAt_append (wBytes_length w hop)]

theorem byteAt_posT : byteAt (encodeWord op w) (posT (headerOf op w)) = BitVec.ofNat 8 w.t.code := by
  rw [posT, byteAt_posG w hop, ← Nat.add_zero (2 * bit1 (headerOf op w) 7), byteAt_append (guardBytes_length w hop)]
  rfl

theorem drop_posX : (encodeWord op w).drop (posX (headerOf op w)) = xBytes w := by
  have hpos : posX (headerOf op w) = (frontBytes op w ++ wBytes w ++ guardBytes w ++ [BitVec.ofNat 8 w.t.code]).length := by
    simp [frontBytes_length w hop, wBytes_length w hop, guardBytes_length w hop, posX, posT, posG, Nat.add_assoc]
  rw [encodeWord_eq, hpos]
  simp only [← List.append_assoc, ← List.singleton_append (l := xBytes w), List.drop_left]

/-! ### The fields that the stored bytes expand to (R35, R43) -/

theorem opOf_encodeWord : opOf (encodeWord op w) = op := by
  have h1 : (byteAt (encodeWord op w) 1).toNat = op % 256 := by
    rw [encodeWord_eq]
    exact toNat_byte (Nat.mod_lt op (by decide))
  rw [opOf, byteAt_header, h1, (headerOf_bits w hop).op, Nat.mul_comm, Nat.div_add_mod]

/-- X comes back from four bytes, from two of which it is the sign extension, and from none where it is 0. -/
theorem xOf_encodeWord : xOf (encodeWord op w) = w.x := by
  simp only [xOf, byteAt_header, drop_posX w hop, (headerOf_bits w hop).x4, (headerOf_bits w hop).x2, xBytes]
  cases h4 : storesX4 w
  case true =>
    rw [if_pos rfl, if_pos rfl, List.take_of_length_le (bytesLE_length 4 _).le, ofBytesLE_bytesLE,
      Nat.mod_eq_of_lt (show w.x.toNat < 256 ^ 4 from w.x.isLt), BitVec.ofNat_toNat, BitVec.setWidth_eq]
  case false =>
    cases h2 : storesX2 w
    case true =>
      have hfit : (w.x.setWidth 16).signExtend 32 = w.x := by
        have h := (Bool.and_eq_true_iff.1 h2).2
        simpa [fitsX2] using h
      have hlow : BitVec.ofNat 16 (w.x.toNat % 256 ^ 2) = w.x.setWidth 16 := BitVec.eq_of_toNat_eq (by simp)
      simp only [Bool.false_eq_true, if_false, if_true]
      rw [List.take_of_length_le (bytesLE_length 2 _).le, ofBytesLE_bytesLE, hlow, hfit]
    case false =>
      have h : w.x = 0#32 := by
        cases hx : w.x == 0#32 <;> cases hf : fitsX2 w.x <;> simp_all [storesX2, storesX4]
      simp [h]

/-- W is stored where one of its bits is set (R35). -/
theorem wByte_encodeWord : (if flg (headerOf op w) 2 then byteAt (encodeWord op w) (posW (headerOf op w)) else 0#8) =
    BitVec.ofNat 8 (4 * b2n w.wc + 2 * b2n w.wb + b2n w.wa) := by
  rw [(headerOf_bits w hop).v, ← Nat.add_zero (posW _), byteAt_posW w hop, wBytes]
  cases hw : storesW w
  case true => rfl
  case false =>
    obtain ⟨⟨ha, hb⟩, hc⟩ : (w.wa = false ∧ w.wb = false) ∧ w.wc = false := by simpa [storesW] using hw
    rw [ha, hb, hc]
    rfl

/-- The first guard byte is stored where the word is guarded, and its fields are else 0 (R35). -/
theorem guardByte0_encodeWord (hg : w.ge = false → w.gn = false ∧ w.gr = 0 ∧ w.gb = 0) :
    (if flg (headerOf op w) 7 then byteAt (encodeWord op w) (posG (headerOf op w)) else 0#8) = BitVec.ofNat 8 (128 * b2n w.gn + w.gr) := by
  rw [(headerOf_bits w hop).ge, ← Nat.add_zero (posG _), byteAt_posG w hop, guardBytes]
  cases hge : w.ge
  case true => rfl
  case false =>
    obtain ⟨hn, hr, -⟩ := hg hge
    rw [hn, hr]
    rfl

theorem guardByte1_encodeWord (hg : w.ge = false → w.gn = false ∧ w.gr = 0 ∧ w.gb = 0) :
    (if flg (headerOf op w) 7 then byteAt (encodeWord op w) (posG (headerOf op w) + 1) else 0#8) = BitVec.ofNat 8 w.gb := by
  rw [(headerOf_bits w hop).ge, byteAt_posG w hop, guardBytes]
  cases hge : w.ge
  case true => rfl
  case false =>
    obtain ⟨-, -, hb⟩ := hg hge
    rw [hb]
    rfl

/-- B is stored where it names an operand or C does, and else names none (R35). -/
theorem b_encodeWord (hb : w.b.wf = true) :
    Operand.ofCode (if flg (headerOf op w) 3 then (byteAt (encodeWord op w) 4).toNat else 0xFF) = w.b := by
  rw [(headerOf_bits w hop).b, encodeWord_eq, frontBytes]
  cases hs : storesB w
  case true =>
    simp only [if_true]
    exact Operand.ofCode_byte hb
  case false =>
    obtain ⟨-, hn⟩ : storesC w = false ∧ w.b = .none := by simpa [storesB] using hs
    rw [hn]
    rfl

/-- C is stored, behind B, where it names an operand (R35). -/
theorem c_encodeWord (hc : w.c.wf = true) :
    Operand.ofCode (if flg (headerOf op w) 4 then (byteAt (encodeWord op w) 5).toNat else 0xFF) = w.c := by
  rw [(headerOf_bits w hop).c, encodeWord_eq, frontBytes]
  cases hs : storesC w
  case true =>
    have hb : storesB w = true := by simp [storesB, hs]
    simp only [hb, if_true]
    exact Operand.ofCode_byte hc
  case false =>
    obtain hn : w.c = .none := by simpa [storesC] using hs
    rw [hn]
    rfl

end

theorem IWord.wf_iff (w : IWord) : w.wf = true ↔ w.gr < 128 ∧ w.gb < 32 ∧ (w.ge = false → w.gn = false ∧ w.gr = 0 ∧ w.gb = 0) ∧
    w.d.wf = true ∧ w.a.wf = true ∧ w.b.wf = true ∧ w.c.wf = true ∧ w.t.wf = true := by
  cases hge : w.ge <;> simp [IWord.wf, hge, and_assoc]

/-- The stored form of well-formed fields expands to them (R35, R43). -/
theorem expand_encodeWord {op : Nat} {w : IWord} (hop : op < 1024) (hw : w.wf = true) : expand (encodeWord op w) = w := by
  obtain ⟨hgr, hgb, hg, hd, ha, hb, hc, ht⟩ := (IWord.wf_iff w).1 hw
  have hgn := b2n_le_one w.gn
  have hwa := b2n_le_one w.wa
  have hwb := b2n_le_one w.wb
  have hwc := b2n_le_one w.wc
  have ed : Operand.ofCode (byteAt (encodeWord op w) 2).toNat = w.d := by rw [encodeWord_eq]; exact Operand.ofCode_byte hd
  have ea : Operand.ofCode (byteAt (encodeWord op w) 3).toNat = w.a := by rw [encodeWord_eq]; exact Operand.ofCode_byte ha
  have egn : flg (BitVec.ofNat 8 (128 * b2n w.gn + w.gr)) 7 = w.gn := flg_byte (by decide) (by omega)
  have egr : fld (BitVec.ofNat 8 (128 * b2n w.gn + w.gr)) 6 0 = w.gr := (fld_byte (by omega) 6 0).trans (by omega)
  have egb : fld (BitVec.ofNat 8 w.gb) 4 0 = w.gb := (fld_byte (by omega) 4 0).trans (by omega)
  have ewc : flg (BitVec.ofNat 8 (4 * b2n w.wc + 2 * b2n w.wb + b2n w.wa)) 2 = w.wc := flg_byte (by decide) (by omega)
  have ewb : flg (BitVec.ofNat 8 (4 * b2n w.wc + 2 * b2n w.wb + b2n w.wa)) 1 = w.wb := flg_byte (by decide) (by omega)
  have ewa : flg (BitVec.ofNat 8 (4 * b2n w.wc + 2 * b2n w.wb + b2n w.wa)) 0 = w.wa := flg_byte (by decide) (by omega)
  simp only [expand, byteAt_header, wByte_encodeWord w hop, guardByte0_encodeWord w hop hg, guardByte1_encodeWord w hop hg, ed, ea,
    b_encodeWord w hop hb, c_encodeWord w hop hc, byteAt_posT w hop, Ty.ofCode_byte ht, egn, egr, egb, ewc, ewb, ewa, xOf_encodeWord w hop]
  rw [(headerOf_bits w hop).ge]

/-- The encoder leaves the bits that must be zero at 0 (R34). -/
theorem mbzOffset_encodeWord {op : Nat} {w : IWord} (hop : op < 1024) (hw : w.wf = true) : mbzOffset (encodeWord op w) = none := by
  obtain ⟨-, hgb, hg, -, -, -, -, ht⟩ := (IWord.wf_iff w).1 hw
  have hwa := b2n_le_one w.wa
  have hwb := b2n_le_one w.wb
  have hwc := b2n_le_one w.wc
  have htc := Ty.code_lt ht
  have noW : ¬ (flg (headerOf op w) 2 ∧ fld (byteAt (encodeWord op w) (posW (headerOf op w))) 7 3 ≠ 0) := by
    rintro ⟨hf, hn⟩
    have hbyte := wByte_encodeWord w hop
    rw [if_pos hf] at hbyte
    exact hn (by rw [hbyte, fld_byte (by omega)]; omega)
  have noG : ¬ (flg (headerOf op w) 7 ∧ fld (byteAt (encodeWord op w) (posG (headerOf op w) + 1)) 7 5 ≠ 0) := by
    rintro ⟨hf, hn⟩
    have hbyte := guardByte1_encodeWord w hop hg
    rw [if_pos hf] at hbyte
    exact hn (by rw [hbyte, fld_byte (by omega)]; omega)
  have noT : ¬ fld (byteAt (encodeWord op w) (posT (headerOf op w))) 7 5 ≠ 0 := by
    rw [byteAt_posT w hop, fld_byte (by omega)]
    omega
  simp only [mbzOffset, byteAt_header, if_neg noW, if_neg noG, if_neg noT]

/-- The stored form of well-formed fields and an assigned OP decodes to its row, with no byte left over (R33 to R36). -/
theorem decode_encodeWord {op : Nat} {w : IWord} {i : Instr} (hop : op < 1024) (hw : w.wf = true) (hrow : ofOp op w = some i) :
    decode (encodeWord op w) = some (i, []) := by
  have hbits := headerOf_bits w hop
  obtain ⟨rest, hhead⟩ : ∃ rest, encodeWord op w = headerOf op w :: rest := ⟨_, encodeWord_eq op w⟩
  have hlen : (encodeWord op w).length = lengthOf (headerOf op w) := by
    obtain ⟨b, r, hbr, hl⟩ := encodeWord_header op w hop
    obtain ⟨rfl, -⟩ := List.cons.inj (hbr.symm.trans hhead)
    exact hl
  have hone : ¬ (flg (headerOf op w) 6 ∧ flg (headerOf op w) 5) := by
    rw [hbits.x4, hbits.x2, storesX4, storesX2]
    cases fitsX2 w.x <;> simp
  have hcb : flg (headerOf op w) 4 → flg (headerOf op w) 3 := by
    rw [hbits.c, hbits.b, storesB]
    exact fun hc => by rw [hc, Bool.true_or]
  have hfill := fill_word hhead hlen.ge hone hcb (mbzOffset_encodeWord hop hw)
    (by rw [opOf_encodeWord w hop, expand_encodeWord hop hw]; exact hrow)
  simp only [decode, hfill, ← hlen, List.drop_length]

/-! ### The row that an OP names (R58); where rows share one, their own fields tell them apart (R161, R255, R378) -/

/-- The OP and the fields of a well-formed instruction name its own row. -/
theorem ofOp_op {i : Instr} {op : Nat} {w : IWord} (hwf : i.wf = true) (ho : i.op = some op) (hv : i.word = some w) :
    op < 1024 ∧ w.wf = true ∧ ofOp op w = some i := by
  cases i
  case absent v | cpyw v | swait v =>
    cases ho; cases hv
    obtain ⟨hw, hx⟩ := Bool.and_eq_true_iff.1 hwf
    exact ⟨by decide, hw, congrArg some (if_neg (by simpa using hx))⟩
  case absentMk v | cpywClr v | swaitAll v =>
    cases ho; cases hv
    obtain ⟨hw, hx⟩ := Bool.and_eq_true_iff.1 hwf
    exact ⟨by decide, hw, congrArg some (if_pos (by simpa using hx))⟩
  case tret v | tretSkip v | tretEndg v | tretEndr v =>
    cases ho; cases hv
    obtain ⟨hw, hx⟩ := Bool.and_eq_true_iff.1 hwf
    have hform : ofOp 0x301 w = some (tretForm w) := rfl
    exact ⟨by decide, hw, by simp only [hform, tretForm, eq_of_beq hx]⟩
  all_goals cases hv
  all_goals cases ho; exact ⟨by decide, hwf, rfl⟩

theorem op_of_word {i : Instr} {w : IWord} (hv : i.word = some w) : ∃ op, i.op = some op := by
  cases i
  all_goals cases hv
  all_goals exact ⟨_, rfl⟩

/-- Settles O1: the bytes at the places that the header gives expand to the fields (`expand_encodeWord`), none of them breaks a rule of the fill unit,
and the OP names the row (`ofOp_op`). -/
theorem decodeEncode : Obligations.DecodeEncode := by
  unfold Obligations.DecodeEncode
  intro i hwf hword
  obtain ⟨w, hv⟩ := Option.isSome_iff_exists.1 hword
  obtain ⟨op, ho⟩ := op_of_word hv
  obtain ⟨hop, hw, hrow⟩ := ofOp_op hwf ho hv
  have henc : encode i = encodeWord op w := by simp only [encode, ho, hv]
  rw [henc]
  exact decode_encodeWord hop hw hrow

/-! ### Lengths and words of the spec (R36, R43, R44, R50) -/

theorem lengthOf_bits (h : Byte) : lengthOf h =
    let bit := fun (i : Nat) => if h.getLsbD i then 1 else 0
    5 + bit 3 + bit 4 + bit 2 + 2 * bit 7 + 4 * bit 6 + 2 * bit 5 := rfl

/-- Settles O53: whatever a fill gives, it has the header's length (`fill_whole`); the five words are closed facts of the decoder. -/
theorem knownWordsDecode : Obligations.KnownWordsDecode := by
  unfold Obligations.KnownWordsDecode
  refine ⟨fun h rest => ?_, by decide, by decide, by decide, by decide, by decide⟩
  dsimp only
  rw [← lengthOf_bits h]
  exact fun hlen => fill_whole hlen

end Sys2Proof
end

section
/-! PROOFS. The checks of R57 come in their order, before whatever an instruction does in its lane (spec/02 R57; spec/03 R83; spec/05 R118;
spec/08 R206). -/

namespace Sys2Proof.Machine

open Sys2Proof.Claims

/-! ### What the gate says of a lane -/

/-- The word has no guard, or its guard is true in the lane (spec/02 R44). -/
def guardTrue (w : IWord) (k : LaneId) (l : Lane) (s : State) : Prop :=
  w.ge = false ∨ (w.gr < laneRegs s k ∧ (l.reg w.gr).full = true ∧ flg (l.reg w.gr).val w.gb ≠ w.gn)

section Gate

variable {e : Entry} {w : IWord} {k : LaneId} {l : Lane} {s : State}

/-- A conflict aborts the try before every check (spec/08 R206). -/
theorem gate_conflict {t : Try} (ht : l.spec = some t) (hc : t.conflict = true) : gate e w k l s = .abort 4 := by
  simp [gate, Lane.inConflict, ht, hc]

theorem inConflict_false (h : ∀ t, l.spec = some t → t.conflict = false) : l.inConflict = false := by
  unfold Lane.inConflict
  split
  next t ht => exact h t ht
  next => rfl

/-- A guard register out of range. -/
theorem gate_guard_range (hcf : l.inConflict = false) (hge : w.ge = true) (hr : laneRegs s k ≤ w.gr) :
    gate e w k l s = .trap (TrapInfo.plain .illOperand 0) := by
  simp [gate, hcf, hge, hr]

/-- An empty guard register. -/
theorem gate_guard_empty (hcf : l.inConflict = false) (hge : w.ge = true) (hr : w.gr < laneRegs s k) (hf : (l.reg w.gr).full = false) :
    gate e w k l s = .wait := by
  simp [gate, hcf, hge, Nat.not_le.2 hr, guardOf, hf]

/-- A false guard. -/
theorem gate_guarded_off (hcf : l.inConflict = false) (hge : w.ge = true) (hr : w.gr < laneRegs s k) (hf : (l.reg w.gr).full = true)
    (hv : flg (l.reg w.gr).val w.gb = w.gn) : gate e w k l s = .skip := by
  simp [gate, hcf, hge, Nat.not_le.2 hr, guardOf, hf, hv]

theorem guard_passes (hon : guardTrue w k l s) :
    (w.ge && decide (laneRegs s k ≤ w.gr)) = false ∧ guardOf w l = some true := by
  obtain hge | ⟨hr, hf, hv⟩ := hon
  · simp [guardOf, hge]
  · simp [guardOf, hr, hf, hv]

/-- Behind a true guard the word's own checks trap. -/
theorem gate_word_trap (hcf : l.inConflict = false) (hon : guardTrue w k l s) {c : Cause}
    (hw : wordTrap e (laneRegs s k) l.inHandler w = some c) : gate e w k l s = .trap (TrapInfo.plain c 0) := by
  obtain ⟨hrange, hguard⟩ := guard_passes hon
  simp [gate, hcf, hrange, hguard, hw]

/-- Behind a true guard and the word's checks the instruction goes on, unless it cannot stand in the lane's try (spec/08 R207). -/
theorem gate_word_good (hcf : l.inConflict = false) (hon : guardTrue w k l s)
    (hw : wordTrap e (laneRegs s k) l.inHandler w = none) :
    gate e w k l s = if l.spec.isSome = true ∧ syncs e w = true then .abort 7 else .go := by
  obtain ⟨hrange, hguard⟩ := guard_passes hon
  simp [gate, hcf, hrange, hguard, hw]

end Gate

/-! ### The checks of the word, in their order -/

/-- Every field holds an operand of its classes (spec/02 R47). -/
def operandsFit (e : Entry) (n : Nat) (w : IWord) : Prop :=
  (∃ c ∈ e.d, c.has w.t n w.d = true) ∧ (∃ c ∈ e.a, c.has w.t n w.a = true) ∧ (∃ c ∈ e.b, c.has w.t n w.b = true) ∧
    (∃ c ∈ e.c, c.has w.t n w.c = true) ∧ e.more n w = true

/-- The instruction or an operand of it is privileged (spec/02 R46, R56). -/
def asksPrivilege (e : Entry) (w : IWord) : Prop :=
  e.priv = true ∨ srPriv w.d = true ∨ srPriv w.a = true ∨ srPriv w.b = true ∨ srPriv w.c = true

section Word

variable {e : Entry} {n : Nat} {w : IWord} {handler : Bool}

theorem operandsFit_iff : (e.d.any (fun c => c.has w.t n w.d) && e.a.any (fun c => c.has w.t n w.a) && e.b.any (fun c => c.has w.t n w.b) &&
    e.c.any (fun c => c.has w.t n w.c) && e.more n w) = true ↔ operandsFit e n w := by
  simp [operandsFit, and_assoc]

theorem asksPrivilege_iff : (e.priv || srPriv w.d || srPriv w.a || srPriv w.b || srPriv w.c) = true ↔ asksPrivilege e w := by
  simp [asksPrivilege, or_assoc]

theorem wordTrap_type (ht : e.tOk w = false) : wordTrap e n handler w = some .illType := by simp [wordTrap, ht]

theorem wordTrap_operand (ht : e.tOk w = true) (ho : ¬ operandsFit e n w) : wordTrap e n handler w = some .illOperand := by
  simp only [wordTrap, ht, Bool.eq_false_iff.2 (mt operandsFit_iff.1 ho)]
  rfl

theorem wordTrap_modifier (ht : e.tOk w = true) (ho : operandsFit e n w) (hx : e.xOk w = false) :
    wordTrap e n handler w = some .illModifier := by
  simp only [wordTrap, ht, operandsFit_iff.2 ho, hx]
  rfl

theorem wordTrap_privilege (ht : e.tOk w = true) (ho : operandsFit e n w) (hx : e.xOk w = true) (hp : asksPrivilege e w) :
    wordTrap e n false w = some .privileged := by
  simp only [wordTrap, ht, operandsFit_iff.2 ho, hx, asksPrivilege_iff.2 hp]
  rfl

theorem wordTrap_none (ht : e.tOk w = true) (ho : operandsFit e n w) (hx : e.xOk w = true) (hp : ¬ asksPrivilege e w ∨ handler = true) :
    wordTrap e n handler w = none := by
  have hpriv : ((e.priv || srPriv w.d || srPriv w.a || srPriv w.b || srPriv w.c) && !handler) = false := by
    obtain h | h := hp
    · rw [Bool.eq_false_iff.2 (mt asksPrivilege_iff.1 h), Bool.false_and]
    · rw [h, Bool.not_true, Bool.and_false]
  simp only [wordTrap, ht, operandsFit_iff.2 ho, hx, hpriv]
  rfl

end Word

/-! ### Instructions that go through the checks lane by lane -/

/-- In a lane alone the instruction's turn is gated by the checks of `e`. -/
def gatedAlone (i : Instr) (w : IWord) (e : Entry) : Prop :=
  ∀ (s : State) (k : LaneId) (l : Lane), s.lane? k = some l →
    ∃ f g, exec i s = .next (runLanes f s) ∧ f k l s = gated e w g k l s

theorem gatedAlone_perLane {i : Instr} {w : IWord} {e : Entry} (f : IWord → LaneId → Lane → State → LaneOut)
    (h : ∀ s, exec i s = .next (perLane e f w s)) : gatedAlone i w e :=
  fun s _ _ _ => ⟨gated e w (f w), f w, h s, rfl⟩

/-- No lane of a bundle has left before its own turn came: TRET.endg gates a lane alone as the others do. -/
theorem gatedAlone_tretEndg (w : IWord) : gatedAlone (.tretEndg w) w (entryTret 2) := by
  intro s k l hl
  refine ⟨_, laneTretEndg w, rfl, ?_⟩
  simp [hl]

/-- Every instruction of the list, and of the tables that it names, goes through the checks of its entry. -/
theorem gatedAlone_checked {i : Instr} {w : IWord} {e : Entry} (h : checked i = some (w, e)) : gatedAlone i w e := by
  cases i
  case tretEndg v => cases h; exact gatedAlone_tretEndg _
  all_goals cases h
  all_goals exact gatedAlone_perLane _ (fun _ => rfl)

/-! ### What a lane alone does at each answer of the gate -/

section Alone

variable {i : Instr} {w : IWord} {e : Entry} {s : State} {k : LaneId} {l : Lane} (hi : gatedAlone i w e) (ha : alone s k l)
include hi ha

theorem exec_skip (hg : gate e w k l s = .skip) : exec i s = .next (s.setLane k (l.advance s)) := by
  obtain ⟨hc, hl⟩ := ha
  obtain ⟨f, g, hexec, hf⟩ := hi s k l hl
  rw [hexec, runLanes_ok hc hl (hf.trans (gated_skip hg))]

theorem exec_wait (hg : gate e w k l s = .wait) : exec i s = .next { s with blocked := k :: s.blocked } := by
  obtain ⟨hc, hl⟩ := ha
  obtain ⟨f, g, hexec, hf⟩ := hi s k l hl
  rw [hexec, runLanes_wait hc hl (hf.trans (gated_wait hg))]

theorem exec_trap {t : TrapInfo} (hg : gate e w k l s = .trap t) : exec i s = .next (raised s k t) := by
  obtain ⟨hc, hl⟩ := ha
  obtain ⟨f, g, hexec, hf⟩ := hi s k l hl
  rw [hexec, runLanes_trap hc hl (hf.trans (gated_trap hg)), raised]

theorem exec_abort {c : Nat} (hg : gate e w k l s = .abort c) :
    exec i s = .next (if c = 4 then notIssued (abortTries s [k] c 0) [k] else abortTries s [k] c 0) := by
  obtain ⟨hc, hl⟩ := ha
  obtain ⟨f, g, hexec, hf⟩ := hi s k l hl
  rw [hexec, runLanes_abort_any hc hl (hf.trans (gated_abort hg))]

end Alone

/-- Settles O38: an instruction's turn is gated by its entry (`gatedAlone_checked`), the gate asks for the conflict, the guard's register, its value and
then for the word (`gate_word_trap`), and of the word for the type, the operands, the modifiers and the privilege (`wordTrap_type` and on). -/
theorem checksComeInOrder : Obligations.ChecksComeInOrder := by
  unfold Obligations.ChecksComeInOrder
  refine ⟨fun i w e s k l hc ha => ?_, fun w e s k l t => gate_conflict, fun w e s k l hcf => ?_⟩
  · have hi := gatedAlone_checked hc
    exact ⟨exec_skip hi ha, exec_wait hi ha, fun t => exec_trap hi ha, fun c => exec_abort hi ha⟩
  · have hcf := inConflict_false hcf
    refine ⟨gate_guard_range hcf, gate_guard_empty hcf, gate_guarded_off hcf, fun hon ht => ?_, fun hon ht ho => ?_, fun hon ht ho hx => ?_,
      fun hon ht ho hx hp hh => ?_, fun hon ht ho hx hp => ?_⟩
    · exact gate_word_trap hcf hon (wordTrap_type ht)
    · exact gate_word_trap hcf hon (wordTrap_operand ht ho)
    · exact gate_word_trap hcf hon (wordTrap_modifier ht ho hx)
    · have hout : l.inHandler = false := by simp [Lane.inHandler, hh]
      exact gate_word_trap hcf hon (hout ▸ wordTrap_privilege ht ho hx hp)
    · exact gate_word_good hcf hon (wordTrap_none ht ho hx hp)

end Sys2Proof.Machine
end

section
/-! PROOFS. A step runs the instruction decoded at the bundle's PC (spec/02 R36, R38, R41; spec/03 R65, R66, R72, R77, R79). -/

namespace Sys2Proof.Machine

/-! ### The fill of the instruction cache (spec/02 R38, R41, R42) -/

theorem fillCache_cached {s : State} {core ctx : Nat} {va : Addr} {f : Filled} (h : mfind (s.core core).icache (ctx, va) = some f) :
    fillCache s core ctx va = (s, some f) := by simp only [fillCache, h]

section Fetched

variable {s v u : State} {core ctx : Nat} {va : Addr} {h x : Byte} {bs : List Byte} (hmiss : mfind (s.core core).icache (ctx, va) = none)
  (hhead : fetchByte s (dieOf core) ctx va = (v, .ok h)) (hbytes : fetchBytes v (dieOf core) ctx va (lengthOf h) = (u, bs, .ok x))
include hmiss hhead hbytes

/-- Bytes that could all be fetched are expanded, and the core's cache keeps what they come to. -/
theorem fillCache_fetched : ∃ t, fillCache s core ctx va = (t, some (fill bs)) ∧ mfind (t.core core).icache (ctx, va) = some (fill bs) := by
  have hfill : fillAt s core ctx va = (u, some (fill bs, none)) := by simp only [fillAt, hhead, hbytes]
  simp only [fillCache, hmiss, hfill]
  exact ⟨_, rfl, by simp⟩

theorem execInstructionFill_fetched :
    ∃ t, exec (.instructionFill core ctx va) s = .next t ∧ mfind (t.core core).icache (ctx, va) = (fillCache s core ctx va).2 := by
  obtain ⟨t, ht, hkept⟩ := fillCache_fetched hmiss hhead hbytes
  refine ⟨woke t, by simp only [exec, execInstructionFill, ht], ?_⟩
  rw [ht]
  exact hkept

end Fetched

/-- As many bytes are fetched as were asked for. -/
theorem fetchBytes_length {s u : State} {d ctx n : Nat} {va : Addr} {bs : List Byte} {x : Byte}
    (h : fetchBytes s d ctx va n = (u, bs, .ok x)) : bs.length = n := by
  induction n generalizing s u va bs with
  | zero =>
    cases h
    rfl
  | succ n ih =>
    unfold fetchBytes at h
    split at h
    next v b hb =>
      obtain ⟨-, hbs⟩ := Prod.mk.inj h
      obtain ⟨rfl, hr⟩ := Prod.mk.inj hbs
      exact congrArg Nat.succ (ih (Prod.ext rfl (Prod.ext rfl hr)))
    next v r hno hr =>
      cases h
      exact (hno _ rfl).elim

/-! ### A bundle's issue (spec/03 R66) -/

/-- Where no comparator matches the PC, the bundle stands as it is (spec/21 R384). -/
theorem comparators_none {s : State} {b : Bundle} (i : Instr) (h : comparator s (gangCtx s b.gang) b.pc [] = none) :
    comparators s b i = (s, b) := by simp only [comparators, h, Option.isNone_none, if_true]

theorem issueBundle_runs {s u t : State} {b : Bundle} {f : Filled} (hfill : fillCache s b.core (gangCtx s b.gang) b.pc = (u, some f))
    (hcmp : comparator u (gangCtx u b.gang) b.pc [] = none) (hl : b.lanes ≠ [])
    (hexec : exec (filledInstr f).1 { u with cur := { b with len := (filledInstr f).2 } } = .next t) :
    issueBundle b s = .next (endIssue { u with cur := { b with len := (filledInstr f).2 } } (filledInstr f).1 t) := by
  have hc := comparators_none (b := { b with len := (filledInstr f).2 }) (filledInstr f).1 hcmp
  simp only [issueBundle, hfill, hc, List.isEmpty_iff, hl, if_false, beginIssue, hexec, onNext]

theorem issueForced_gone {s : State} {b : Bundle} (h : (stillThere s b).lanes = []) : issueForced b s = .next s :=
  if_pos (List.isEmpty_iff.2 h)

theorem issueForced_issues {s t : State} {b : Bundle} (h : (stillThere s b).lanes ≠ [])
    (hi : issueBundle (stillThere s b) (tick s b.core) = .next t) : issueForced b s = .next (endCycle b.core t) := by
  have hne : ¬ (stillThere s b).lanes.isEmpty = true := mt List.isEmpty_iff.1 h
  rw [issueForced, if_neg hne, hi, onNext]

/-- A cycle of the agenda, and the cycles of its entry that are left (log entry 4). -/
theorem choose_cycles {s t : State} {core n : Nat} (hcore : core < 192) (hc : coreCycle core s = .next t) :
    choose (.cycles core (n + 1)) s = .next (if n = 0 then t else { t with agenda := .cycles core n :: t.agenda }) := by
  simp only [choose, if_neg (Nat.not_le.2 hcore), hc, onNext]

/-- The cycle of a core whose partitions issue (spec/03 R66 to R74). -/
theorem coreCycle_issues {s t : State} {core : Nat}
    (h : issueParts core (List.range 4)
      (tickEngines (tick ((List.range 4).foldl (fun u p => repathPart u core p) (punctual (settleSteps s core) core)) core) core) = .next t) :
    coreCycle core s = .next (endCycle core t) := by
  simp only [coreCycle, h, onNext]

theorem issuePart_of_bundle {s : State} {core part : Nat} {b : Bundle} (h : (dueColl s core part <|> pickBundle s core part) = some b) :
    issuePart core part s = issueBundle b s := by
  simp only [issuePart, h]

theorem issuePart_idle {s : State} {core part : Nat} (hd : dueColl s core part = none) (hp : pickBundle s core part = none) :
    issuePart core part s = .next s := by
  simp only [issuePart, hd, hp]
  rfl

/-- Settles O52, clause by clause: a bundle's issue (`issueBundle_runs`), a placed program's first bundle, a cycle of a core, a partition's issue, and
the fill of a cached word (`fillCache_cached`) and of fetched bytes (`fillCache_fetched`), whose length is the header's. -/
theorem stepRunsTheDecodedInstruction : Obligations.StepRunsTheDecodedInstruction := by
  unfold Obligations.StepRunsTheDecodedInstruction
  refine ⟨fun s u t b f => issueBundle_runs, fun s b r hf => ?_, fun s core n rest hf ha hcore t ht => ?_, fun s core part => ?_,
    fun s v u core ctx va h bs x => ⟨fun f hf => ?_, fun hmiss hhead hbytes hh => ?_⟩⟩
  · rw [step_of_forced hf]
    exact ⟨issueForced_gone, fun t => issueForced_issues⟩
  · rw [step_of_agenda hf ha]
    exact choose_cycles hcore (coreCycle_issues ht)
  · exact ⟨fun b => issuePart_of_bundle, issuePart_idle⟩
  · have hc := fillCache_cached hf
    exact ⟨hc, by simp only [exec, execInstructionFill, hc]⟩
  · obtain ⟨t, ht, -⟩ := fillCache_fetched hmiss hhead hbytes
    obtain ⟨rest, rfl⟩ : ∃ rest, bs = h :: rest := List.head?_eq_some_iff.1 hh
    have hlen := (fetchBytes_length hbytes).ge
    rw [ht]
    refine ⟨fun i hd => congrArg some (fill_of_decode hlen hd), fun hd => ?_, ht ▸ execInstructionFill_fetched hmiss hhead hbytes⟩
    obtain ⟨c, o, hf⟩ := fill_of_decode_none hlen hd
    exact ⟨c, o, congrArg some hf⟩

end Sys2Proof.Machine
end

section
/-! PROOFS. A trap's handler begins and returns (spec/03 R85, R86; spec/20 R374, R375, R379, R380). -/

namespace Sys2Proof.Machine

open Sys2Proof.Claims

/-! ### A trap is delivered (spec/03 R85) -/

/-- The handler's registers of a lane that a sub-warp's own trap reaches (spec/20 R374, R375): one whose try was rolled back while it was parked has
no instruction to pass over. -/
def trapHandler (u : SubWarp) (l : Lane) : Handler :=
  { u.regs with info := setFld u.xinfo 31 31 0, pc := l.pc, len := if l.pc = u.pc then u.len else 0
                cmp := if u.cause == .breakpoint && flg u.xinfo 8 then l.cmpSkip ++ [fld u.xinfo 11 9] else [] }

/-- A lane that begins its handler. -/
def Lane.beginHandler (l : Lane) (u : SubWarp) (vector : Addr) : Lane :=
  { l with st := .run, pc := vector, hx := some (trapHandler u l), cmpSkip := [] }

/-- The warp whose sub-warp `u` has been delivered. -/
def Warp.deliver (x : Warp) (u : SubWarp) : Warp := { x with subs := x.subs.map (fun y => if y.seq = u.seq then { y with delivered := true } else y) }

section Delivery

variable {s : State} {g : GroupId} {v : WarpId} {u : SubWarp} {x : Warp}

theorem deliverTrap_eq (hw : s.warp? v = some x) : deliverTrap s v u false = (setBits 32 u.mask).foldl (fun (t : State) i =>
    match t.lane? ⟨v.gang, v.group, v.warp, i⟩ with
    | some l => t.setLane ⟨v.gang, v.group, v.warp, i⟩ (l.beginHandler u (s.mreg ⟨.vector, gangCtx s v.gang, 0⟩))
    | none => t) (s.setWarp v (x.deliver u)) := by
  unfold deliverTrap
  simp only [hw]
  rfl

theorem deliverTrap_warp (hw : s.warp? v = some x) : (deliverTrap s v u false).warp? v = some (x.deliver u) := by
  rw [deliverTrap_eq hw]
  refine (foldl_keeps (State.warp? · v) (fun t i => ?_) _ _).trans (State.warp_setWarp_same ..)
  cases t.lane? ⟨v.gang, v.group, v.warp, i⟩ <;> rfl

theorem deliverTrap_member {i : Nat} {l : Lane} (hw : s.warp? v = some x) (hi : i < 32) (hm : flg u.mask i = true)
    (hl : s.lane? ⟨v.gang, v.group, v.warp, i⟩ = some l) :
    (deliverTrap s v u false).lane? ⟨v.gang, v.group, v.warp, i⟩ = some (l.beginHandler u (s.mreg ⟨.vector, gangCtx s v.gang, 0⟩)) := by
  have hset : i ∈ setBits 32 u.mask := List.mem_filter.mpr ⟨List.mem_range.mpr hi, hm⟩
  have hapart : (setBits 32 u.mask).Pairwise (fun i j => (⟨v.gang, v.group, v.warp, i⟩ : LaneId) ≠ ⟨v.gang, v.group, v.warp, j⟩) :=
    (List.nodup_range.filter _).imp (fun hne e => hne (congrArg LaneId.lane e))
  rw [deliverTrap_eq hw]
  refine (laneWise_map.foldl_mem hapart hset _).trans ?_
  rw [State.lane_setWarp, hl, Option.map_some]

theorem deliverTrap_other {i : Nat} (hw : s.warp? v = some x) (hm : flg u.mask i = false) :
    (deliverTrap s v u false).lane? ⟨v.gang, v.group, v.warp, i⟩ = s.lane? ⟨v.gang, v.group, v.warp, i⟩ := by
  rw [deliverTrap_eq hw]
  refine laneWise_map.foldl_ne (fun j hj e => ?_) _
  have hij : i = j := congrArg LaneId.lane e
  have hon : flg u.mask j = true := (List.mem_filter.mp hj).2
  exact Bool.false_ne_true (hm.symm.trans (hij ▸ hon))

theorem execTrapDelivery_due (hn : nextTrap s g = some (v, u)) (hc : u.cause ≠ .watchdog) :
    exec (.trapDelivery g) s = .next (woke (deliverTrap s v u false)) := by
  have hf : (u.cause == Cause.watchdog) = false := beq_eq_false_iff_ne.mpr hc
  simp only [exec, execTrapDelivery, hn, deliverSub, hf, Bool.false_and, Bool.or_self, Bool.false_eq_true, if_false]

end Delivery

/-! ### A handler returns (spec/03 R86; spec/20 R379) -/

section Return

variable {s : State} {k : LaneId} {l : Lane} {h : Handler}

theorem clearSubs_lane (w : WarpId) (j : LaneId) : (clearSubs s w).lane? j = s.lane? j := by
  unfold clearSubs
  split <;> rfl

/-- Where no loop is active the lane goes on at the PC that its return names. -/
theorem leaveHandler_plain (hx : l.hx = some h) (hloops : ∀ r ∈ l.loops, r.act = false) (pc : Addr) (step : Bool) (cmp : List Nat) :
    l.leaveHandler pc step cmp = { l with hx := none, xout := h, pc := pc, stepTrap := step, cmpSkip := cmp } := by
  have hout : l.outOfHandler = { l with hx := none, xout := h } := by simp [Lane.outOfHandler, Lane.handler, hx]
  have hgo := Lane.goto_plain { l with hx := none, xout := h } pc (fun r hr hact => by simp [hloops r hr] at hact)
  rw [Lane.leaveHandler, hout, hgo]

theorem laneTret_ok (hx : l.hx = some h) (hloops : ∀ r ∈ l.loops, r.act = false) (skip : Bool) (w : IWord) :
    laneTret skip w k l s = .ok (clearSubs (s.setLane k
      { l with hx := none, xout := h, pc := tretPc h skip, stepTrap := flg h.info 31, cmpSkip := if skip then [] else h.cmp }) (LaneId.wid k)) := by
  simp only [laneTret, hx, leaveHandler_plain hx hloops]

theorem tretPc_skip (h : Handler) : tretPc h true = h.pc +
    if h.orig = .illOpcode ∨ h.orig = .illEncoding ∨ h.orig = .fetchFault then BitVec.ofNat 64 (fld h.info 8 4) else BitVec.ofNat 64 h.len := by
  simp only [tretPc, fromFaultWord, Bool.or_eq_true, beq_iff_eq, or_assoc, Bool.not_true, Bool.false_eq_true, if_false]
  split <;> rfl

/-- What the other lanes and this one read after a return. -/
theorem returned_lanes (m : Lane) : (clearSubs (s.setLane k m) (LaneId.wid k)).lane? k = some m ∧
    ∀ j, j ≠ k → (clearSubs (s.setLane k m) (LaneId.wid k)).lane? j = s.lane? j :=
  ⟨(clearSubs_lane _ k).trans (State.lane_setLane_same ..), fun j hj => (clearSubs_lane _ j).trans (State.lane_setLane_ne _ k m hj)⟩

end Return

/-- Settles O40: a delivery is a fold over the lanes that the sub-warp names (`deliverTrap_member`, `deliverTrap_other`), and a return sets one lane's
PC where no loop is active (`laneTret_ok`). -/
theorem handlersBeginAndReturn : Obligations.HandlersBeginAndReturn := by
  unfold Obligations.HandlersBeginAndReturn
  refine ⟨fun s g v u x hn hw hc => ⟨_, execTrapDelivery_due hn hc, deliverTrap_warp hw, fun i hi l hl => ⟨fun hm => ?_, fun hm => ?_⟩⟩,
    fun s k l h w ha hx hloops => ?_⟩
  · exact ⟨trapHandler u l, deliverTrap_member hw hi hm hl, rfl, rfl, rfl, rfl, rfl, rfl⟩
  · exact (deliverTrap_other hw hm).trans hl
  · intro skip back
    obtain ⟨hcur, hl⟩ := ha
    refine ⟨fun hg => ⟨_, congrArg Host.Outcome.next (perLane_ok hcur hl hg (laneTret_ok hx hloops false w)), returned_lanes _⟩,
      fun hg => ⟨_, congrArg Host.Outcome.next (perLane_ok hcur hl hg (laneTret_ok hx hloops true w)), ?_⟩⟩
    rw [tretPc_skip]
    exact returned_lanes _

end Sys2Proof.Machine
end

section
/-! PROOFS. Warps take turns: overdue warps, the path timer and the places of the active set (spec/03 R68 to R75). -/

namespace Sys2Proof.Machine

open Sys2Proof.Claims

/-! ### Folds that keep one of two -/

section Picks

variable {α : Type} {f : α → α → α}

theorem foldl_pick_mem (hf : ∀ b c, f b c = b ∨ f b c = c) (r : List α) (p : α) : r.foldl f p ∈ p :: r := by
  induction r generalizing p with
  | nil => exact List.mem_singleton_self p
  | cons a r ih =>
    have hmem := List.mem_cons.mp (ih (f p a))
    rcases hf p a with h | h
    all_goals
      rw [h] at hmem
      simp only [List.foldl_cons, h, List.mem_cons]
      tauto

theorem foldl_pick_max (key : α → Nat) (hf : ∀ b c, key b ≤ key (f b c) ∧ key c ≤ key (f b c)) (r : List α) (p : α) :
    ∀ q ∈ p :: r, key q ≤ key (r.foldl f p) := by
  induction r generalizing p with
  | nil => exact fun q hq => (List.mem_singleton.mp hq) ▸ Nat.le_refl _
  | cons a r ih =>
    intro q hq
    have hfirst := ih (f p a) _ List.mem_cons_self
    rcases List.mem_cons.mp hq with rfl | hq
    · exact (hf q a).1.trans hfirst
    · rcases List.mem_cons.mp hq with rfl | hq
      · exact (hf p q).2.trans hfirst
      · exact ih (f p a) q (List.mem_cons_of_mem _ hq)

end Picks

section

variable {s : State} {w v : WarpId} {x y : Warp}

theorem runWarp_some (hg : gangRuns s w.gang = true) (hw : s.warp? w = some x) : runWarp s w = some x := by rw [runWarp, if_pos hg, hw]

/-! ### Overdue warps (R68) -/

theorem overdue_due (hg : gangRuns s w.gang = true) (hw : s.warp? w = some x) (h : overdueDue x = true) :
    exec (.overdue w) s = .next (woke (s.setWarp w { x with overdue := true })) := by
  simp only [exec, execOverdue, runWarp_some hg hw, h, if_true]

theorem overdue_early (hg : gangRuns s w.gang = true) (hw : s.warp? w = some x) (h : overdueDue x = false) : exec (.overdue w) s = .next s := by
  simp only [exec, execOverdue, runWarp_some hg hw, h, Bool.false_eq_true, if_false]

/-! ### The path timer (R69, R70) -/

/-- The ready threads of a warp that stand off its current path. -/
def awayThreads (s : State) (w : WarpId) (x : Warp) : List (LaneId × Lane) :=
  (warpThreads s w).filter (fun p => ready s p.1 p.2 && some p.2.pc != x.path)

theorem pathTimer_due (hg : gangRuns s w.gang = true) (hw : s.warp? w = some x) (h : timerDue s w x = true) :
    exec (.pathTimerExpiry w) s = .next (woke (timerPath s w)) := by
  simp only [exec, execPathTimerExpiry, runWarp_some hg hw, h, if_true]

theorem pathTimer_early (hg : gangRuns s w.gang = true) (hw : s.warp? w = some x) (h : timerDue s w x = false) :
    exec (.pathTimerExpiry w) s = .next s := by
  simp only [exec, execPathTimerExpiry, runWarp_some hg hw, h, Bool.false_eq_true, if_false]

theorem timerPath_stays (hw : s.warp? w = some x) (h : awayThreads s w x = []) : timerPath s w = s := by
  unfold awayThreads at h
  simp only [timerPath, hw, h]

/-- Of two threads the one that has been ready longer; of two that have been so equally long, the one of the lower PC. -/
def longerReady (b c : LaneId × Lane) : LaneId × Lane :=
  if b.2.since < c.2.since || (b.2.since == c.2.since && c.2.pc.toNat < b.2.pc.toNat) then c else b

theorem longerReady_pick (b c : LaneId × Lane) : longerReady b c = b ∨ longerReady b c = c := by
  unfold longerReady
  split
  · exact .inr rfl
  · exact .inl rfl

theorem longerReady_max (b c : LaneId × Lane) : b.2.since ≤ (longerReady b c).2.since ∧ c.2.since ≤ (longerReady b c).2.since := by
  unfold longerReady
  split
  all_goals
    next h =>
      simp only [Bool.or_eq_true, Bool.and_eq_true, decide_eq_true_eq, beq_iff_eq] at h
      omega

/-- The path moves to the thread off it that has been ready longest, and the timer begins again. -/
theorem timerPath_moves (hw : s.warp? w = some x) (h : awayThreads s w x ≠ []) : ∃ p ∈ awayThreads s w x,
    (∀ q ∈ awayThreads s w x, q.2.since ≤ p.2.since) ∧ timerPath s w = s.setWarp w { x with path := some p.2.pc, timer := 0 } := by
  obtain ⟨a, r, e⟩ := List.exists_cons_of_ne_nil h
  have hmem : r.foldl longerReady a ∈ awayThreads s w x := e ▸ foldl_pick_mem longerReady_pick r a
  have hoff : x.path ≠ some (r.foldl longerReady a).2.pc := by
    have := (List.mem_filter.mp hmem).2
    simp only [Bool.and_eq_true, bne_iff_ne] at this
    exact this.2.symm
  have hset : setPath s w (some (r.foldl longerReady a).2.pc) = s.setWarp w { x with path := some (r.foldl longerReady a).2.pc, timer := 0 } := by
    simp only [setPath, hw, if_neg hoff]
  have hmax : ∀ q ∈ awayThreads s w x, q.2.since ≤ (r.foldl longerReady a).2.since :=
    e ▸ foldl_pick_max (fun p => p.2.since) longerReady_max r a
  unfold awayThreads at e
  refine ⟨_, hmem, hmax, ?_⟩
  simp only [timerPath, hw, e]
  exact hset

/-! ### Swaps of the active set (R73 to R75) -/

/-- A warp as a swap takes it out of the active set, and as one brings it in. -/
def Warp.swappedOut (x : Warp) : Warp := { x with active := false, aging := 0, starved := 0 }
def Warp.swappedIn (x : Warp) : Warp := { x with active := true, aging := 0, starved := 0 }

/-- A swap changes the two warps that it names. -/
theorem swapWarps_warps (hw : s.warp? w = some x) (hv : s.warp? v = some y) : (swapWarps s w v).warps =
    ((s.setWarp w x.swappedOut).setWarp v y.swappedIn).warps ∧ (swapWarps s w v).lanes = s.lanes := by
  simp only [swapWarps, hw, hv]
  exact ⟨rfl, rfl⟩

theorem swapWarps_warp (hw : s.warp? w = some x) (hv : s.warp? v = some y) (u : WarpId) :
    (swapWarps s w v).warp? u = ((s.setWarp w x.swappedOut).setWarp v y.swappedIn).warp? u :=
  congrArg (mfind · u) (swapWarps_warps hw hv).1

theorem swapWarps_in (hw : s.warp? w = some x) (hv : s.warp? v = some y) : (swapWarps s w v).warp? v = some y.swappedIn :=
  (swapWarps_warp hw hv v).trans (State.warp_setWarp_same ..)

theorem swapWarps_out (hw : s.warp? w = some x) (hv : s.warp? v = some y) (hne : w ≠ v) : (swapWarps s w v).warp? w = some x.swappedOut :=
  (swapWarps_warp hw hv w).trans ((State.warp_setWarp_ne _ _ _ hne).trans (State.warp_setWarp_same ..))

theorem swapWarps_other {u : WarpId} (hw : s.warp? w = some x) (hv : s.warp? v = some y) (huw : u ≠ w) (huv : u ≠ v) :
    (swapWarps s w v).warp? u = s.warp? u :=
  (swapWarps_warp hw hv u).trans ((State.warp_setWarp_ne _ _ _ huv).trans (State.warp_setWarp_ne _ _ _ huw))

theorem swapOut_due (hg : gangRuns s w.gang = true) (hw : s.warp? w = some x) (hx : x.active = true) (hi : warpIdle s w = true)
    (hn : nextPending s (warpCore s w) (x.slot % 4) = some v) : exec (.warpSwapOut w) s = .next (woke (swapWarps s w v)) := by
  simp only [exec, execWarpSwapOut, runWarp_some hg hw, hn, hx, hi, Bool.and_self, if_true]

theorem setAging_due (hg : gangRuns s w.gang = true) (hw : s.warp? w = some x) (hx : x.active = false) (ha : 256 ≤ x.aging)
    (ho : oldestActive s (warpCore s w) (x.slot % 4) = some v) : exec (.activeSetAging w) s = .next (woke (swapWarps s v w)) := by
  simp only [exec, execActiveSetAging, runWarp_some hg hw, ho, hx, decide_eq_true ha, Bool.not_false, Bool.and_self, if_true]

/-! ### The places of several aged warps (R74) -/

theorem oldestOf_mem {ps : List (WarpId × Warp)} {o : WarpId} (h : oldestOf ps = some o) : ∃ p ∈ ps, p.1 = o := by
  cases ps with
  | nil => cases h
  | cons p r =>
    refine ⟨_, foldl_pick_mem (fun b c => ?_) r p, Option.some.inj h⟩
    split
    · exact .inr rfl
    · exact .inl rfl

theorem oldestOf_ne_nil {ps : List (WarpId × Warp)} (h : ps ≠ []) : ∃ o, oldestOf ps = some o := by
  obtain ⟨p, r, rfl⟩ := List.exists_cons_of_ne_nil h
  exact ⟨_, rfl⟩

/-- Of warps of different names, one name takes out one. -/
theorem length_filter_name {ps : List (WarpId × Warp)} {p : WarpId × Warp} (hd : (ps.map Prod.fst).Nodup) (hp : p ∈ ps) :
    (ps.filter (fun q => q.1 != p.1)).length + 1 = ps.length := by
  have hcount : (ps.map Prod.fst).count p.1 = 1 := List.count_eq_one_of_mem hd (List.mem_map_of_mem hp)
  have hone : ps.countP (fun q => decide ¬(q.1 != p.1) = true) = 1 := by
    rw [← hcount, List.count, List.countP_map]
    exact List.countP_congr (fun q _ => by simp)
  have hsum := List.length_eq_countP_add_countP (l := ps) (fun q => q.1 != p.1)
  rw [← List.countP_eq_length_filter]
  omega

/-- Warps `ws` that wait for places and warps `olds` that hold them: each is there, and none is both. -/
structure Places (s : State) (ws : List WarpId) (olds : List (WarpId × Warp)) : Prop where
  wait : ws.Nodup
  hold : (olds.map Prod.fst).Nodup
  there : ∀ u, u ∈ ws ∨ u ∈ olds.map Prod.fst → ∃ z, s.warp? u = some z
  apart : ∀ u ∈ ws, u ∉ olds.map Prod.fst

/-- After one swap the others still wait and hold. -/
theorem Places.swap {ws : List WarpId} {olds : List (WarpId × Warp)} {o : WarpId} (h : Places s (w :: ws) olds) (ho : o ∈ olds.map Prod.fst)
    (hso : s.warp? o = some x) (hsw : s.warp? w = some y) : Places (swapWarps s o w) ws (olds.filter (fun p => p.1 != o)) := by
  obtain ⟨hnot, hwait⟩ := List.nodup_cons.mp h.wait
  have hsub : ∀ u ∈ (olds.filter (fun p => p.1 != o)).map Prod.fst, u ∈ olds.map Prod.fst ∧ u ≠ o := fun u hu => by
    obtain ⟨p, hp, rfl⟩ := List.mem_map.mp hu
    obtain ⟨hmem, hne⟩ := List.mem_filter.mp hp
    exact ⟨List.mem_map_of_mem hmem, by simpa using hne⟩
  have hwo : w ∉ olds.map Prod.fst := h.apart w List.mem_cons_self
  refine ⟨hwait, h.hold.sublist (List.filter_sublist.map _), fun u hu => ?_, fun u hu hu' => h.apart u (List.mem_cons_of_mem _ hu) (hsub u hu').1⟩
  have huo : u ≠ o ∧ u ≠ w := by
    rcases hu with hu | hu
    · exact ⟨fun e => h.apart u (List.mem_cons_of_mem _ hu) (e ▸ ho), fun e => hnot (e ▸ hu)⟩
    · exact ⟨(hsub u hu).2, fun e => hwo (e ▸ (hsub u hu).1)⟩
  rw [swapWarps_other hso hsw huo.1 huo.2]
  exact h.there u (hu.imp (List.mem_cons_of_mem _) (fun hu => (hsub u hu).1))

/-- A warp that neither waits nor holds a place stays as it is. -/
theorem displaceAll_other {ws : List WarpId} {olds : List (WarpId × Warp)} {u : WarpId} (h : Places s ws olds) (hu : u ∉ ws)
    (hu' : u ∉ olds.map Prod.fst) : (displaceAll ws olds s).warp? u = s.warp? u := by
  induction ws generalizing s olds with
  | nil => rfl
  | cons w ws ih =>
    cases ho : oldestOf olds with
    | none => simp only [displaceAll, ho]
    | some o =>
      obtain ⟨p, hp, rfl⟩ := oldestOf_mem ho
      have hpo : p.1 ∈ olds.map Prod.fst := List.mem_map_of_mem hp
      obtain ⟨y, hy⟩ := h.there w (.inl List.mem_cons_self)
      obtain ⟨x, hx⟩ := h.there p.1 (.inr hpo)
      rw [displaceAll_cons s ho]
      refine (ih (h.swap hpo hx hy) (fun hm => hu (List.mem_cons_of_mem _ hm))
        (fun hm => hu' ((List.filter_sublist.map _).subset hm))).trans ?_
      exact swapWarps_other hx hy (fun e => hu' (e ▸ hpo)) (fun e => hu (e ▸ List.mem_cons_self))

/-- Where as many hold places as wait for one, each that waits has its place. -/
theorem displaceAll_active {ws : List WarpId} {olds : List (WarpId × Warp)} (h : Places s ws olds) (hlen : ws.length ≤ olds.length) :
    ∀ u ∈ ws, ∃ z : Warp, (displaceAll ws olds s).warp? u = some z.swappedIn := by
  induction ws generalizing s olds with
  | nil => exact fun u hu => absurd hu List.not_mem_nil
  | cons w ws ih =>
    obtain ⟨o, ho⟩ := oldestOf_ne_nil (ps := olds) (fun e => by simp [e] at hlen)
    obtain ⟨p, hp, rfl⟩ := oldestOf_mem ho
    have hpo : p.1 ∈ olds.map Prod.fst := List.mem_map_of_mem hp
    obtain ⟨y, hy⟩ := h.there w (.inl List.mem_cons_self)
    obtain ⟨x, hx⟩ := h.there p.1 (.inr hpo)
    have hnext := h.swap hpo hx hy
    have hleft := length_filter_name h.hold hp
    rw [List.length_cons] at hlen
    rw [displaceAll_cons s ho]
    intro u hu
    rcases List.mem_cons.mp hu with rfl | hu
    · refine ⟨y, (displaceAll_other hnext (List.nodup_cons.mp h.wait).1 (fun hm => ?_)).trans (swapWarps_in hx hy)⟩
      exact h.apart u List.mem_cons_self ((List.filter_sublist.map _).subset hm)
    · exact ih hnext (by omega) u hu

theorem mfind_of_mem_keys {K V : Type} [DecidableEq K] {m : List (K × V)} {k : K} (h : k ∈ m.map Prod.fst) : ∃ v, mfind m k = some v := by
  induction m with
  | nil => exact absurd h List.not_mem_nil
  | cons p r ih =>
    by_cases hp : p.1 = k
    · exact ⟨p.2, by simp [mfind, hp]⟩
    · obtain ⟨z, hz⟩ := ih ((List.mem_cons.mp h).resolve_left (fun e => hp e.symm))
      exact ⟨z, by simp [mfind, hp, hz]⟩

/-- The aged warps of a partition wait for the places of its active ones. -/
theorem places_aged (hd : (s.warps.map Prod.fst).Nodup) (core part : Nat) : Places s (agedWarps s core part) (activeWarps s core part) := by
  have hparts : ((partWarps s core part).map Prod.fst).Sublist (s.warps.map Prod.fst) := List.filter_sublist.map _
  have haged : (agedWarps s core part).Sublist ((partWarps s core part).map Prod.fst) := List.filter_sublist.map _
  have hold : ((activeWarps s core part).map Prod.fst).Sublist ((partWarps s core part).map Prod.fst) := List.filter_sublist.map _
  refine ⟨hd.sublist (haged.trans hparts), hd.sublist (hold.trans hparts), fun u hu => ?_, fun u hu hu' => ?_⟩
  · exact mfind_of_mem_keys (hu.elim (fun h => (haged.trans hparts).subset h) (fun h => (hold.trans hparts).subset h))
  · obtain ⟨p, hp, rfl⟩ := List.mem_map.mp hu
    obtain ⟨q, hq, hqp⟩ := List.mem_map.mp hu'
    obtain ⟨hp, hpa⟩ := List.mem_filter.mp hp
    obtain ⟨hq, hqa⟩ := List.mem_filter.mp hq
    have hpq : p = q := List.inj_on_of_nodup_map (hd.sublist hparts) hp hq hqp.symm
    rw [hpq, hqa] at hpa
    exact Bool.false_ne_true hpa

end

/-- Settles O54: each event by what it does when it is due, and the aged warps by induction over those that still wait (`displaceAll_active`). -/
theorem warpsTakeTurns : Obligations.WarpsTakeTurns := by
  unfold Obligations.WarpsTakeTurns
  intro s w v x y hg hw hv ctl swapped
  have htimer : timerDue s w x = (x.active && flg ctl 0 && decide (fld ctl 31 16 ≤ x.timer)) := rfl
  refine ⟨fun ha hs => overdue_due hg hw (by simp [overdueDue, ha, hs]), fun h => overdue_early hg hw ?_, fun h => pathTimer_early hg hw ?_,
    fun ha hc ht => ?_, fun ha hb hi hn => ?_, fun ha hb hage ho => ?_, ?_⟩
  · rcases h with h | h <;> simp [overdueDue, h]
  · rw [htimer]
    rcases h with h | h | h <;> simp [h]
  · have hdue : timerDue s w x = true := by simp [htimer, ha, hc, ht]
    intro away
    refine ⟨fun he => ?_, fun hne => ?_⟩
    · rw [pathTimer_due hg hw hdue, timerPath_stays hw he]
    · obtain ⟨p, hp, hmax, hpath⟩ := timerPath_moves hw hne
      exact ⟨_, _, p, pathTimer_due hg hw hdue, (congrArg (State.warp? · w) hpath).trans (State.warp_setWarp_same ..), rfl, hp, rfl, hmax⟩
  · have hne : w ≠ v := fun e => by simp [e, hv] at hw; simp [hw, ha] at hb
    exact ⟨_, swapOut_due hg hw ha hi hn, swapWarps_out hw hv hne, swapWarps_in hw hv, (swapWarps_warps hw hv).2⟩
  · have hne : v ≠ w := fun e => by simp [← e, hv] at hw; simp [← hw, hb] at ha
    exact ⟨_, setAging_due hg hw ha hage ho, swapWarps_out hv hw hne, swapWarps_in hv hw, (swapWarps_warps hv hw).2⟩
  · intro core part aged olds hd hlen p hp
    obtain ⟨z, hz⟩ := displaceAll_active (places_aged hd core part) hlen p hp
    exact ⟨_, hz, rfl, rfl⟩

end Sys2Proof.Machine
end

section
/-! PROOFS. Writes of management registers: what a register stores of a value, and which writes it ignores (spec/03 R71; spec/10 R223; spec/20 R357;
spec/22 R407, R408, R411, R412, R415). -/

namespace Sys2Proof.Machine

open Sys2Proof.Claims

/-! ### Which registers change (R407, R411) -/

section

variable {s : State} {r : MReg} {v : BitVec 64}

/-- A register whose write goes through no rule but those of its own entry. -/
def plainName (n : MName) : Prop := n ≠ .engrst ∧ n ≠ .ctxop ∧ n ≠ .fbbase ∧ n ≠ .fbsize ∧ n ≠ .fbtail ∧ n ≠ .nsbctl

/-- The store of a register other than NSBCTL. -/
theorem regStore_plain (hn : r.name ≠ .nsbctl) (v : Nat) :
    regStore s r v = if regLocked s r then s else s.setMreg r (regNew (s.mreg r) r.name v) := by
  simp [regStore, hn]

/-- What a write that starts no action leaves of the state but the register file, and of that. -/
theorem writeReg_plain (hn : plainName r.name) (ha : startsAction r v = false) : (writeReg s r v).mregs = (regStore s r v.toNat).mregs ∧
    (writeReg s r v).lanes = (regStore s r v.toNat).lanes ∧ (writeReg s r v).dies = (regStore s r v.toNat).dies := by
  obtain ⟨h1, h2, h3, h4, h5, h6⟩ := hn
  unfold writeReg
  split
  next e => exact absurd e h1
  next e => exact absurd e h2
  next e => exact absurd e h3
  next e => exact absurd e h4
  next e => exact absurd e h5
  · exact ⟨rfl, rfl, rfl⟩
  · exact ⟨rfl, rfl, rfl⟩
  · rw [ha]
    exact ⟨rfl, rfl, rfl⟩

theorem regStore_mreg_same (hn : r.name ≠ .nsbctl) (v : Nat) :
    (regStore s r v).mreg r = if regLocked s r then s.mreg r else regNew (s.mreg r) r.name v := by
  rw [regStore_plain hn]
  split
  · rfl
  · exact State.mreg_setMreg_same ..

theorem regStore_mreg_ne {q : MReg} (hn : r.name ≠ .nsbctl) (v : Nat) (hq : q ≠ r) : (regStore s r v).mreg q = s.mreg q := by
  rw [regStore_plain hn]
  split
  · rfl
  · exact State.mreg_setMreg_ne _ _ _ hq

theorem regStore_frame (hn : r.name ≠ .nsbctl) (v : Nat) : (regStore s r v).lanes = s.lanes ∧ (regStore s r v).dies = s.dies := by
  rw [regStore_plain hn]
  split <;> exact ⟨rfl, rfl⟩

/-- A reset of a unit that is not there is refused. -/
theorem writeReg_noUnit (i j : Nat) (hgo : flg v 63 = true) (hu : resetUnit s v = none) : writeReg s ⟨.engrst, i, j⟩ v = engrstDone s v 1 := by
  simp only [writeReg, hgo, hu, if_true, Option.isNone_none]

theorem engrstDone_reads (st : Nat) (h : st < 8) :
    fld ((engrstDone s v st).mreg ⟨.engrst, 0, 0⟩) 62 60 = st ∧ flg ((engrstDone s v st).mreg ⟨.engrst, 0, 0⟩) 63 = false := by
  unfold engrstDone
  rw [State.mreg_setMreg_same]
  have hst : (st * 2 ^ 60 + v.toNat % 2 ^ 13) % 2 ^ 64 = st * 2 ^ 60 + v.toNat % 2 ^ 13 := Nat.mod_eq_of_lt (by omega)
  constructor
  · simp only [fld, BitVec.toNat_ofNat, hst, Nat.shiftRight_eq_div_pow]
    omega
  · simp only [flg, BitVec.getLsbD, BitVec.toNat_ofNat, hst, Nat.testBit_eq_decide_div_mod_eq, decide_eq_false_iff_not]
    omega

end

/-! ### What a register stores of a value (R407, R408) -/

section

variable {n : MName} {hi lo : Nat}

theorem fld_or {w : Nat} (a b : BitVec w) (hi lo : Nat) : fld (a ||| b) hi lo = fld a hi lo ||| fld b hi lo := by
  simp only [fld, BitVec.toNat_or, Nat.shiftRight_or_distrib, Nat.or_mod_two_pow]

theorem fld_and {w : Nat} (a b : BitVec w) (hi lo : Nat) : fld (a &&& b) hi lo = fld a hi lo &&& fld b hi lo := by
  simp only [fld, BitVec.toNat_and, Nat.shiftRight_and_distrib, Nat.and_mod_two_pow]

/-- The bits of a register that a write leaves. -/
def keptBits (n : MName) : BitVec 64 := BitVec.ofNat 64 (bitsMask 63 0 - rwBits n)

theorem regNew_eq (hn : n ≠ .hwlock) (old : BitVec 64) (v : Nat) :
    regNew old n v = (old &&& keptBits n) ||| BitVec.ofNat 64 (clampReg n (v &&& rwBits n)) := by
  cases n
  case hwlock => exact absurd rfl hn
  all_goals rfl

/-- A field all of whose bits are writable holds what the register's entry makes of the value. -/
theorem fld_regNew (hn : n ≠ .hwlock) (hk : fld (keptBits n) hi lo = 0) (old : BitVec 64) (v : Nat) :
    fld (regNew old n v) hi lo = fld (BitVec.ofNat 64 (clampReg n (v &&& rwBits n))) hi lo := by
  rw [regNew_eq hn, fld_or, fld_and, hk, Nat.and_zero, Nat.zero_or]

theorem fld_low (v : BitVec 64) (hi : Nat) : fld v hi 0 = v.toNat % 2 ^ (hi + 1) := rfl

/-- A register whose writable bits are its low ones holds in them what its entry makes of those of the value. -/
theorem fld_regNew_low (hn : n ≠ .hwlock) (hk : fld (keptBits n) hi 0 = 0) (hrw : rwBits n = 2 ^ (hi + 1) - 1) (old v : BitVec 64)
    (hc : clampReg n (fld v hi 0) < 2 ^ (hi + 1)) (hw : hi < 64) : fld (regNew old n v.toNat) hi 0 = clampReg n (fld v hi 0) := by
  have hle : 2 ^ (hi + 1) ≤ 2 ^ 64 := Nat.pow_le_pow_right (by decide) hw
  rw [fld_regNew hn hk, hrw, Nat.and_two_pow_sub_one_eq_mod, ← fld_low, fld_low, BitVec.toNat_ofNat, Nat.mod_eq_of_lt (hc.trans_le hle),
    Nat.mod_eq_of_lt hc]

/-- A register all of whose bits are writable, and none replaced, holds the value. -/
theorem regNew_whole (hn : n ≠ .hwlock) (hrw : rwBits n = 2 ^ 64 - 1) (hc : ∀ v, clampReg n v = v) (old v : BitVec 64) :
    regNew old n v.toNat = v := by
  have hk : keptBits n = 0 := by rw [keptBits, hrw]; rfl
  have hv : v.toNat &&& (2 ^ 64 - 1) = v.toNat := by rw [Nat.and_two_pow_sub_one_eq_mod, Nat.mod_eq_of_lt v.isLt]
  rw [regNew_eq hn, hk, hc, hrw, hv, BitVec.ofNat_toNat, BitVec.setWidth_eq]
  simp

/-- A register none of whose bits are writable stands. -/
theorem regNew_readOnly (hn : n ≠ .hwlock) (hrw : rwBits n = 0) (hc : clampReg n 0 = 0) (old v : BitVec 64) : regNew old n v.toNat = old := by
  have hk : keptBits n = BitVec.allOnes 64 := by rw [keptBits, hrw]; rfl
  rw [regNew_eq hn, hk, hrw, Nat.and_zero, hc, BitVec.and_allOnes, BitVec.or_zero]

end

theorem inOr_lt {lo hi other v b : Nat} (h1 : hi < b) (h2 : other < b) : inOr lo hi other v < b := by
  unfold inOr
  split <;> omega

theorem flg_eq_fld {w : Nat} (v : BitVec w) (i : Nat) : flg v i = decide (fld v i i = 1) := by
  simp only [flg, fld, BitVec.getLsbD, Nat.testBit_eq_decide_div_mod_eq, Nat.shiftRight_eq_div_pow, Nat.add_sub_cancel_left, pow_one]

/-- The writable bits of CTXCTL are its upper half and bit 0. -/
theorem land_ctxctl (v : Nat) : (v &&& rwBits .ctxctl) / 65536 = v / 65536 % 65536 ∧ (v &&& rwBits .ctxctl) % 65536 = v % 2 := by
  have hrw : rwBits .ctxctl = 0xFFFF0001 := by decide
  rw [hrw]
  constructor
  · have := Nat.shiftRight_and_distrib (a := v) (b := 0xFFFF0001) (i := 16)
    simp only [Nat.shiftRight_eq_div_pow] at this
    exact this.trans (Nat.and_two_pow_sub_one_eq_mod _ 16)
  · have := Nat.and_mod_two_pow (a := v) (b := 0xFFFF0001) (n := 16)
    refine this.trans ((Nat.and_one_is_mod _).trans ?_)
    omega

/-- CTXCTL holds PATHTMR in its upper half, at least 64, and the path timer's enable in bit 0 (spec/03 R71). -/
theorem regNew_ctxctl (old v : BitVec 64) : fld (regNew old .ctxctl v.toNat) 31 16 = max (fld v 31 16) 64 ∧ flg (regNew old .ctxctl v.toNat) 0 = flg v 0 := by
  obtain ⟨hdiv, hmod⟩ := land_ctxctl v.toNat
  have hclamp : clampReg .ctxctl (v.toNat &&& rwBits .ctxctl) = v.toNat % 2 + max (v.toNat / 65536 % 65536) 64 * 65536 := by
    rw [clampReg, hdiv, hmod]
  rw [flg_eq_fld, flg_eq_fld, fld_regNew (by decide) (by decide), fld_regNew (by decide) (by decide), hclamp]
  simp only [fld, BitVec.toNat_ofNat, Nat.shiftRight_eq_div_pow, decide_eq_decide]
  omega

/-- HWLOCK holds LOCK as it was written last, and whether it was ever written 1 (R412). -/
theorem regNew_hwlock (old v : BitVec 64) : flg (regNew old .hwlock v.toNat) 0 = flg v 0 ∧
    flg (regNew old .hwlock v.toNat) 63 = (flg old 63 || flg v 0) := by
  have hold := old.isLt
  simp only [flg_eq_fld, regNew, setFld, fld, BitVec.toNat_ofNat, Nat.shiftRight_eq_div_pow, ← Bool.decide_or, decide_eq_decide]
  omega

/-! ### Locks (R357, R412) -/

theorem regLocked_host {s : State} (h : flg (s.mreg ⟨.hwlock, 0, 0⟩) 63 = true) :
    ∀ n ∈ [MName.hwindev, .hwinhost, .hwinsize, .hostkey], ∀ i j, regLocked s ⟨n, i, j⟩ = true := by
  simp [regLocked, h]

theorem ctxBusy_of_placed {s : State} {c : Nat} (h : ∃ p ∈ s.gangs, gangCtx s p.1 = c ∧ p.2.st = .placed) : ctxBusy s c = true := by
  obtain ⟨p, hp, hc, hst⟩ := h
  exact List.any_eq_true.mpr ⟨p, hp, by simp [hc, hst]⟩

theorem regLocked_busy {s : State} {c : Nat} (h : ctxBusy s c = true) :
    ∀ n ∈ [MName.privroot, .privsz, .privcnt, .savebase, .savesize, .saveslot], ∀ j, regLocked s ⟨n, c, j⟩ = true := by
  simp [regLocked, h]

/-- Settles O56: the store of one register, its fields by `fld_regNew_low`, and the locks that stand in the way. -/
theorem registerWritesKeepTheirRules : Obligations.RegisterWritesKeepTheirRules := by
  unfold Obligations.RegisterWritesKeepTheirRules
  refine ⟨fun s r v => ⟨fun hn ha => ?_, fun hgo hu i j => ?_⟩, ?_, fun s c => ⟨regLocked_host, fun h => regLocked_busy (ctxBusy_of_placed h)⟩⟩
  · obtain ⟨hregs, hlanes, hdies⟩ := writeReg_plain (s := s) hn ha
    obtain ⟨-, -, -, -, -, hb⟩ := hn
    have hread : ∀ q, (writeReg s r v).mreg q = (regStore s r v.toNat).mreg q := fun q => congrArg (mget · q _) hregs
    exact ⟨_, rfl, (hread r).trans (regStore_mreg_same hb _), fun q hq => (hread q).trans (regStore_mreg_ne hb _ hq),
      hlanes.trans (regStore_frame hb _).1, hdies.trans (regStore_frame hb _).2⟩
  · refine ⟨_, rfl, ?_⟩
    rw [writeReg_noUnit i j hgo hu]
    exact engrstDone_reads 1 (by decide)
  · intro old v n new
    refine ⟨?_, ?_, ?_, ?_, (regNew_ctxctl old v).1, (regNew_ctxctl old v).2, ?_, (regNew_hwlock old v).1, (regNew_hwlock old v).2,
      regNew_whole (by decide) (by decide) (fun _ => rfl) old v, regNew_whole (by decide) (by decide) (fun _ => rfl) old v, fun hn => ?_⟩
    · exact fld_regNew_low (by decide) (by decide) (by decide) old v (by simp [clampReg]) (by decide)
    · exact fld_regNew_low (by decide) (by decide) (by decide) old v (by simp [clampReg]) (by decide)
    · exact fld_regNew_low (by decide) (by decide) (by decide) old v (by simp [clampReg]) (by decide)
    · exact fld_regNew_low (by decide) (by decide) (by decide) old v (max_lt (Nat.mod_lt _ (by decide)) (by decide)) (by decide)
    · exact fld_regNew_low (by decide) (by decide) (by decide) old v (inOr_lt (by decide) (by decide)) (by decide)
    · rcases hn with rfl | rfl | rfl | rfl | rfl | rfl | rfl
      all_goals exact regNew_readOnly (by decide) rfl rfl old v

end Sys2Proof.Machine
end

section
/-! PROOFS. The module is managed: temperature and power, the ends of grids, invalidations and replays, routing tables, attestation and keys
(spec/03 R87; spec/10 R222, R225; spec/22 R408, R413, R415, R417, R420, R421). -/

namespace Sys2Proof.Machine

open Sys2Proof.Claims

/-! ### What an applied write leaves of the lanes and of the Squares' requests -/

/-- What no write takes from a lane: a lane in no try stays in none, and one that waits for XREPLAY waits on as it stands. -/
structure Unwoken (l m : Lane) : Prop where
  untried : l.spec = none → m.spec = none
  replay : ∀ go dst, l.st = .replay go dst → m.st = l.st ∧ m.regs = l.regs ∧ m.pc = l.pc

theorem Unwoken.refl (l : Lane) : Unwoken l l := ⟨id, fun _ _ _ => ⟨rfl, rfl, rfl⟩⟩

theorem Unwoken.trans {l m n : Lane} (h : Unwoken l m) (g : Unwoken m n) : Unwoken l n where
  untried hl := g.untried (h.untried hl)
  replay go dst hl := by
    obtain ⟨hst, hregs, hpc⟩ := h.replay go dst hl
    obtain ⟨gst, gregs, gpc⟩ := g.replay go dst (hst.trans hl)
    exact ⟨gst.trans hst, gregs.trans hregs, gpc.trans hpc⟩

/-- A lane that does not change in its try, its registers and its place is as good as unwoken. -/
theorem Unwoken.of_eq {l m : Lane} (hspec : l.spec = none → m.spec = none) (hst : m.st = l.st) (hregs : m.regs = l.regs) (hpc : m.pc = l.pc) :
    Unwoken l m :=
  ⟨hspec, fun _ _ _ => ⟨hst, hregs, hpc⟩⟩

theorem wake_unwoken (l : Lane) (v : Word) (needs : Vec) : Unwoken l (l.wake v needs) := by
  unfold Lane.wake
  split
  next dst left next e =>
    refine ⟨fun h => ?_, fun go rs h => by simp [e] at h⟩
    simpa using h
  · exact .refl l

theorem onWrite_unwoken (l : Lane) (self onDie : Bool) (d : Nat) (w : FlatWrite) : Unwoken l (l.onWrite self onDie d w) := by
  unfold Lane.onWrite
  extract_lets conflicted
  have hc : Unwoken l conflicted := by
    dsimp only [conflicted]
    split
    next e =>
      split
      · exact .of_eq (fun h => by simp [e] at h) rfl rfl rfl
      · exact .refl l
    · exact .refl l
  clear_value conflicted
  split
  next m _ =>
    split
    · extract_lets noted
      have hn : Unwoken l noted := hc.trans (.of_eq id rfl rfl rfl)
      split
      · exact hn
      · exact hn.trans (wake_unwoken noted 0 w.vec)
    · exact hc
  · exact hc

/-- What writes and records make of a state leaves the requests at its Squares, and of each lane what no write takes from it. -/
def Weathered (s t : State) : Prop :=
  (∀ d, (t.die d).sqq = (s.die d).sqq) ∧ List.Forall₂ (fun p q => q.1 = p.1 ∧ Unwoken p.2 q.2) s.lanes t.lanes

section
variable {s₀ s : State} {d n ctx : Nat} {va : Addr} {tag : WTag}

theorem Weathered.refl (s : State) : Weathered s s :=
  ⟨fun _ => rfl, List.forall₂_same.2 (fun p _ => ⟨rfl, .refl p.2⟩)⟩

theorem setDie_weathered {x : Die} (hx : x.sqq = (s.die d).sqq) (h : Weathered s₀ s) : Weathered s₀ (s.setDie d x) := by
  refine ⟨fun e => ?_, h.2⟩
  by_cases he : e = d
  · rw [he, State.die_setDie_same, hx]
    exact h.1 d
  · rw [State.die_setDie_ne s d x he]
    exact h.1 e

theorem bumpSeq_weathered {u : Source} (h : Weathered s₀ s) : Weathered s₀ (bumpSeq s u) := by
  cases u with
  | lane c | stream c | matrix c | io c => exact h
  | square d | adm d | launch d | trace d => exact setDie_weathered rfl h

theorem applyRaw_weathered {w : FlatWrite} (h : Weathered s₀ s) : Weathered s₀ (applyRaw s d w) := by
  refine ⟨(setDie_weathered (d := d) ?_ h).1, ?_⟩
  · rfl
  · exact List.forall₂_map_right_iff.2 (h.2.imp (fun _ _ hpq => ⟨hpq.1, hpq.2.trans (onWrite_unwoken _ _ _ d w)⟩))

theorem devWrite_weathered {pa : Nat} {bs : List Byte} (h : Weathered s₀ s) : Weathered s₀ (devWrite s d pa bs) := by
  unfold devWrite
  split
  · exact h
  · exact applyRaw_weathered h
  · exact h

theorem traceDrop_weathered (h : Weathered s₀ s) : Weathered s₀ (traceDrop s d n) := setDie_weathered rfl h

theorem traceWrites_weathered {rs : List Record} (h : Weathered s₀ s) : Weathered s₀ (traceWrites d rs s) := by
  induction rs generalizing s with
  | nil => exact setDie_weathered rfl h
  | cons r rs ih =>
    unfold traceWrites
    split
    · exact ih (devWrite_weathered h)
    · exact setDie_weathered rfl h
    · exact ih (traceDrop_weathered h)

theorem foldl_weathered {α : Type} {f : State → α → State} {xs : List α} (h : Weathered s₀ s)
    (hf : ∀ t x, Weathered s₀ t → Weathered s₀ (f t x)) : Weathered s₀ (xs.foldl f s) :=
  List.foldlRecOn (motive := Weathered s₀) xs f h (fun t ht x _ => hf t x ht)

theorem toRing_weathered {rs : List Record} (h : Weathered s₀ s) : Weathered s₀ (toRing s d rs) := by
  have hall : ∀ t, Weathered s₀ t → Weathered s₀ (rs.foldl (fun s r => tracePut s d r) t) :=
    fun t ht => foldl_weathered ht (fun _ _ hu => traceWrites_weathered hu)
  unfold toRing
  extract_lets room rec s1 s2 y s3
  have h3 : Weathered s₀ s3 := setDie_weathered rfl (traceWrites_weathered (bumpSeq_weathered (u := .trace d) h))
  clear_value s3
  split
  · exact traceDrop_weathered h
  · split
    · split
      · exact hall s3 h3
      · exact traceDrop_weathered h3
    · split
      · exact hall s h
      · exact traceDrop_weathered h

theorem sealCount_weathered {text : List Byte} {force : Bool} (h : Weathered s₀ s) : Weathered s₀ (sealCount s d ctx text n force) := by
  unfold sealCount
  extract_lets x old acc hd sig r0 s1 parts
  have h1 : Weathered s₀ s1 := bumpSeq_weathered h
  clear_value s1 r0 parts
  split
  · exact setDie_weathered rfl h
  · split
    next t rs e =>
      have ht : Weathered s₀ t :=
        (congrArg (fun a => Weathered s₀ a.1) e).mp
          (List.foldlRecOn (motive := fun a : State × List Record => Weathered s₀ a.1) parts _ h1 (fun _ ha _ _ => bumpSeq_weathered ha))
      exact foldl_weathered (s := { t.setDie d _ with recs := _ }) (setDie_weathered rfl ht) (fun _ _ hu => toRing_weathered hu)

theorem stippleRecord_weathered {region addr old new bytes : Nat} {dropped spad : Bool} (h : Weathered s₀ s) :
    Weathered s₀ (stippleRecord s d tag region addr old new bytes dropped spad) := by
  unfold stippleRecord emitRing
  extract_lets ids ex flags rec s1 s2
  have h2 : Weathered s₀ s2 := toRing_weathered (bumpSeq_weathered (u := .trace d) h)
  split
  · exact h2
  · exact sealCount_weathered h2

theorem applyWrite_weathered {w : FlatWrite} (h : Weathered s₀ s) : Weathered s₀ (applyWrite s d w) := by
  unfold applyWrite
  split
  · exact applyRaw_weathered h
  · exact foldl_weathered (applyRaw_weathered h) (fun _ _ ht => stippleRecord_weathered ht)

theorem flatWrite_weathered {cells : List (Nat × Byte)} (h : Weathered s₀ s) : Weathered s₀ (flatWrite s d cells tag) := by
  unfold flatWrite
  split
  · exact h
  · exact applyWrite_weathered h

theorem drainTo_weathered (h : Weathered s₀ s) : Weathered s₀ (drainTo s d) := foldl_weathered h (fun _ _ ht => applyWrite_weathered ht)

theorem drainAll_weathered (h : Weathered s₀ s) : Weathered s₀ (drainAll s) := foldl_weathered h (fun _ _ ht => applyWrite_weathered ht)

theorem walkSeen_weathered (h : Weathered s₀ s) : Weathered s₀ (walkSeen s d ctx va) := by
  unfold walkSeen
  dsimp only
  split
  · exact drainTo_weathered h
  · exact h

theorem translate_weathered {k : Access} (h : Weathered s₀ s) : Weathered s₀ (translate s d ctx va k).1 := by
  unfold translate
  dsimp only
  split
  · split <;> exact h
  · split
    · split <;> exact setDie_weathered rfl (walkSeen_weathered h)
    all_goals exact walkSeen_weathered h

theorem vplaceAs_weathered {k e : Access} (h : Weathered s₀ s) : Weathered s₀ (vplaceAs s d ctx va k e).1 := by
  have ht := translate_weathered (d := d) (ctx := ctx) (va := va) (k := k) h
  unfold vplaceAs
  split
  next eq =>
    rw [eq] at ht
    dsimp only
    split
    · exact ht
    · exact ht
    · split <;> exact ht
    · exact ht
  all_goals next eq => rw [eq] at ht; exact ht

theorem postFault_weathered {u : Source} {f : FbInfo} (h : Weathered s₀ s) : Weathered s₀ (postFault s d u f) := by
  unfold postFault
  extract_lets hidden rec s1 s2 y s3
  have h2 : Weathered s₀ s2 := bumpSeq_weathered (u := u) h
  have h3 : Weathered s₀ s3 := by
    dsimp only [s3]
    split
    · exact devWrite_weathered h2
    · exact setDie_weathered rfl h2
  split
  · exact h3
  · exact sealCount_weathered h3

theorem wordDone_weathered {gk status : Nat} {g : Grid} {lost : Bool} (h : Weathered s₀ s) : Weathered s₀ (wordDone s gk g status lost) := by
  unfold wordDone
  dsimp only
  split
  · exact bumpSeq_weathered (s := s.setGrid gk _) (u := .launch (g.q / 16)) h
  · exact h

theorem tryWord_weathered {gk : Nat} (h : Weathered s₀ s) : Weathered s₀ (tryWord s gk) := by
  unfold tryWord
  split
  · exact h
  next g _ =>
    split
    · exact h
    · extract_lets d s1 seq
      have hv := vplaceAs_weathered (d := d) (ctx := g.ctx) (va := BitVec.ofNat 64 g.cpl) (k := .store) (e := .store)
        (drainTo_weathered (d := d) h)
      change Weathered s₀ (vplace s1 d g.ctx (BitVec.ofNat 64 g.cpl) .store).1 at hv
      split
      · exact wordDone_weathered h
      · split
        · exact wordDone_weathered h
        · split
          next e => exact wordDone_weathered (flatWrite_weathered ((congrArg (fun a => Weathered s₀ a.1) e).mp hv))
          next e =>
            rw [e] at hv
            split
            · exact postFault_weathered (s := State.setGrid _ gk _) hv
            · exact wordDone_weathered hv
          next e => exact (congrArg (fun a => Weathered s₀ a.1) e).mp hv
          next e => exact wordDone_weathered ((congrArg (fun a => Weathered s₀ a.1) e).mp hv)

theorem tryWords_weathered {gk : Nat} (h : Weathered s₀ s) : Weathered s₀ (tryWords s gk) := by
  unfold tryWords
  split
  · exact h
  · refine foldl_weathered h (fun _ _ ht => ?_)
    split
    · split
      · exact ht
      · exact tryWord_weathered ht
    · exact ht

end

/-! ### What no step takes back: a lane without a try, the end of a grid -/

/-- No lane has an open try. -/
def Untried (s : State) : Prop := ∀ p ∈ s.lanes, p.2.spec = none

theorem Untried.lane {s : State} (h : Untried s) {k : LaneId} {l : Lane} (e : s.lane? k = some l) : l.spec = none := h (k, l) (mfind_mem e)

/-- Where no lane had an open try none has one, and what has ended a grid stands. -/
def Onward (s t : State) : Prop := (Untried s → Untried t) ∧ ∀ gk p, endedOf gk s = some (some p) → endedOf gk t = some (some p)

section
variable {s₀ s : State} {k : LaneId} {l : Lane} {w : WarpId} {c : Cause} {d n ctx core gk gang units : Nat} {va : Addr} {tag : WTag} {q : SqReq}

theorem Onward.refl (s : State) : Onward s s := ⟨id, fun _ _ h => h⟩

/-! #### The operations of the state -/

theorem untried_of_weathered {t : State} (hw : Weathered s t) (h : Untried s) : Untried t := by
  intro p hp
  obtain ⟨i, hi, rfl⟩ := List.getElem_of_mem hp
  have hlen := hw.2.length_eq
  have hi' : i < s.lanes.length := hlen ▸ hi
  exact (hw.2.get hi' hi).2.untried (h _ (List.getElem_mem hi'))

theorem blind_endedOf (gk : Nat) : Blind (endedOf gk) := ⟨fun _ _ _ _ _ _ _ _ _ _ _ _ _ => rfl, fun _ _ _ => rfl, fun _ _ _ => rfl, fun _ _ _ => rfl⟩

/-- What writes and records do to the lanes leads onward. -/
theorem weathered_onward {t : State} (h : Onward s₀ s) (hw : Weathered s t) (he : ∀ gk, endedOf gk t = endedOf gk s) : Onward s₀ t :=
  ⟨fun h0 => untried_of_weathered hw (h.1 h0), fun gk p h0 => (he gk).trans (h.2 gk p h0)⟩

/-- What changes neither a lane nor a grid leads onward. -/
theorem onward_of_eq {t : State} (hl : t.lanes = s.lanes) (hg : t.grids = s.grids) (h : Onward s₀ s) : Onward s₀ t := by
  simp only [Onward, Untried, endedOf, State.grid?, hl, hg]
  exact h

theorem ite_onward {t : State} {P : Prop} [Decidable P] (hs : Onward s₀ s) (ht : Onward s₀ t) : Onward s₀ (if P then s else t) := by
  split
  · exact hs
  · exact ht

theorem foldl_onward {α : Type} {f : State → α → State} {xs : List α} (h : Onward s₀ s) (hf : ∀ t x, Onward s₀ t → Onward s₀ (f t x)) :
    Onward s₀ (xs.foldl f s) :=
  List.foldlRecOn (motive := Onward s₀) xs f h (fun t ht x _ => hf t x ht)

theorem fst_onward {α : Type} {t : State} {p : State × α} {a : α} (h : Onward s₀ p.1) (e : p = (t, a)) : Onward s₀ t := by
  subst e
  exact h

/-- A lane changes, and begins no try. -/
theorem setLane_onward {m : Lane} (e : s.lane? k = some l) (hm : l.spec = none → m.spec = none) (h : Onward s₀ s) : Onward s₀ (s.setLane k m) := by
  refine ⟨fun h0 p hp => ?_, h.2⟩
  rcases mset_mem hp with hp | rfl
  · exact h.1 h0 p hp
  · exact hm ((h.1 h0).lane e)

/-- A lane changes, and has no try. -/
theorem setLane_untried_onward {m : Lane} (hm : m.spec = none) (h : Onward s₀ s) : Onward s₀ (s.setLane k m) := by
  refine ⟨fun h0 p hp => ?_, h.2⟩
  rcases mset_mem hp with hp | rfl
  · exact h.1 h0 p hp
  · exact hm

/-- Lanes change by themselves, and begin no try. -/
theorem mapLanes_onward {f : LaneId → Lane → Lane} (hf : ∀ k l, l.spec = none → (f k l).spec = none) (h : Onward s₀ s) :
    Onward s₀ { s with lanes := s.lanes.map (fun p => (p.1, f p.1 p.2)) } := by
  refine ⟨fun h0 p hp => ?_, h.2⟩
  obtain ⟨q, hq, rfl⟩ := List.mem_map.1 hp
  exact hf q.1 q.2 (h.1 h0 q hq)

/-- A grid changes, and stays ended where it was. -/
theorem setGrid_onward {g r : Grid} (e : s.grid? gk = some g) (hr : ∀ p, g.ended = some p → r.ended = some p) (h : Onward s₀ s) :
    Onward s₀ (s.setGrid gk r) := by
  refine ⟨h.1, fun j p h0 => ?_⟩
  have hj := h.2 j p h0
  by_cases hjk : j = gk
  · subst hjk
    rw [endedOf, e] at hj
    rw [endedOf, State.grid_setGrid_same]
    exact congrArg some (hr p (Option.some.inj hj))
  · rw [endedOf, State.grid_setGrid_ne s gk r hjk]
    exact hj

/-! #### Writes, records and completion words -/

theorem drainTo_onward (h : Onward s₀ s) : Onward s₀ (drainTo s d) :=
  weathered_onward h (drainTo_weathered (.refl s)) (fun gk => blind_drainTo (blind_endedOf gk) s d)

theorem drainAll_onward (h : Onward s₀ s) : Onward s₀ (drainAll s) :=
  weathered_onward h (drainAll_weathered (.refl s)) (fun gk => blind_drainAll (blind_endedOf gk) s)

theorem flatWrite_onward {cells : List (Nat × Byte)} (h : Onward s₀ s) : Onward s₀ (flatWrite s d cells tag) :=
  weathered_onward h (flatWrite_weathered (.refl s)) (fun gk => blind_flatWrite (blind_endedOf gk) s d cells tag)

theorem postFault_onward {u : Source} {f : FbInfo} (h : Onward s₀ s) : Onward s₀ (postFault s d u f) :=
  weathered_onward h (postFault_weathered (.refl s)) (fun gk => blind_postFault (blind_endedOf gk) s d u f)

theorem toRing_onward {rs : List Record} (h : Onward s₀ s) : Onward s₀ (toRing s d rs) :=
  weathered_onward h (toRing_weathered (.refl s)) (fun gk => blind_toRing (blind_endedOf gk) s d rs)

theorem sealCount_onward {text : List Byte} {force : Bool} (h : Onward s₀ s) : Onward s₀ (sealCount s d ctx text n force) :=
  weathered_onward h (sealCount_weathered (.refl s)) (fun gk => blind_sealCount (blind_endedOf gk) s d ctx text n force)

theorem translate_onward {a : Access} (h : Onward s₀ s) : Onward s₀ (translate s d ctx va a).1 :=
  weathered_onward h (translate_weathered (.refl s)) (fun gk => blind_translate (blind_endedOf gk) s d ctx va a)

theorem vplaceAs_onward {a e : Access} (h : Onward s₀ s) : Onward s₀ (vplaceAs s d ctx va a e).1 := by
  have ht := translate_onward (d := d) (ctx := ctx) (va := va) (a := a) h
  unfold vplaceAs
  split
  next eq =>
    rw [eq] at ht
    dsimp only
    split
    · exact ht
    · exact ht
    · split <;> exact ht
    · exact ht
  all_goals next eq => rw [eq] at ht; exact ht

theorem tryWords_onward (h : Onward s₀ s) : Onward s₀ (tryWords s gk) :=
  weathered_onward h (tryWords_weathered (.refl s)) (fun j => blind_tryWords (blind_endedOf j) s (fun t g r e he => by
    by_cases hj : j = gk
    · subst hj
      exact endedOf_setGrid t e he
    · rw [endedOf, State.grid_setGrid_ne t gk r hj, endedOf]))

theorem bumpSeq_onward {u : Source} (h : Onward s₀ s) : Onward s₀ (bumpSeq s u) := by
  cases u <;> exact h

theorem emit_onward {u : Source} {kind : Nat} {body : List RField} (h : Onward s₀ s) : Onward s₀ (emit s u kind body) := bumpSeq_onward (u := u) h

/-! #### Lanes that leave, grids that end, traps -/

theorem cancelStream_onward {p : Cmd → Bool} (h : Onward s₀ s) : Onward s₀ (cancelStream s core p) :=
  foldl_onward (s := s.setCore core _) h (fun t x ht => emit_onward (s := releaseUnits (dropRoads t core false x.owner) core x.units) ht)

theorem matrixPass_onward (h : Onward s₀ s) : Onward s₀ (matrixPass s core) := by
  unfold matrixPass
  dsimp only
  split <;> exact h

theorem matrixLeave_onward (h : Onward s₀ s) : Onward s₀ (matrixLeave s core) := by
  refine matrixPass_onward (s := State.setCore _ core _) ?_
  change Onward s₀ (if _ then _ else s)
  exact ite_onward h h

theorem matrixKill_onward {p : WarpId → Bool} (h : Onward s₀ s) : Onward s₀ (matrixKill s core p) := by
  unfold matrixKill
  dsimp only
  split
  · refine ite_onward (matrixLeave_onward ?_) h
    exact foldl_onward (f := fun s (c : MCmd) => dropRoads s core true c.num) (s := s.setCore core _) h (fun _ _ ht => ht)
  · exact h

theorem matrixOrphan_onward (h : Onward s₀ s) : Onward s₀ (matrixOrphan s core w) := by
  unfold matrixOrphan
  extract_lets x kept s1 y mx m s2
  have h1 : Onward s₀ s1 := foldl_onward h (fun _ _ ht => ht)
  refine ite_onward (ite_onward (matrixLeave_onward ?_) h1) h
  exact emit_onward (s := s2) (u := .matrix core) (kind := 0x31) (body := [(0x90, 1, m.fl.toNat)]) h1

theorem trigger_onward (h : Onward s₀ s) : Onward s₀ (trigger s k) := by
  unfold trigger
  split
  next x g hx _ =>
    refine ite_onward h ?_
    have hl : Onward s₀ (s.setLane k { x with triggered := true }) := setLane_onward hx id h
    dsimp only
    split
    next r hr => exact ite_onward (tryWords_onward (setGrid_onward hr (fun _ => id) hl)) (setGrid_onward hr (fun _ => id) hl)
    · exact hl
  · exact h

theorem finishGrid_onward (h : Onward s₀ s) : Onward s₀ (finishGrid s gk) := by
  unfold finishGrid
  split
  next g hg => exact ite_onward (tryWords_onward (setGrid_onward hg (fun _ => id) h)) h
  · exact h

theorem leaveFifo_onward (h : Onward s₀ s) : Onward s₀ (leaveFifo s core w) := h

theorem leaveWait_onward (h : Onward s₀ s) : Onward s₀ (leaveWait s k) := by
  unfold leaveWait
  split
  · exact h
  next x _ =>
    cases x.st with
    | macq _ _ => exact ite_onward (matrixLeave_onward (leaveFifo_onward h)) (leaveFifo_onward h)
    | _ => exact h

theorem exitLane_onward {trig : Bool} (h : Onward s₀ s) : Onward s₀ (exitLane s k trig) := by
  unfold exitLane
  split
  · exact h
  · refine ite_onward h ?_
    extract_lets late s1 s2 x x1 s3 core d s4 y s5
    have h1 : Onward s₀ s1 := ite_onward (trigger_onward h) h
    have h2 : Onward s₀ s2 := by
      dsimp only [s2]
      split
      · exact h1
      · exact leaveWait_onward h1
    clear_value s2
    have h3 : Onward s₀ s3 := setLane_untried_onward rfl h2
    clear_value s3
    have h5 : Onward s₀ s5 := onward_of_eq (s := s3) rfl rfl h3
    clear_value s5
    split
    · exact h5
    · dsimp only
      split
      · exact matrixOrphan_onward (leaveFifo_onward (onward_of_eq (s := s5) rfl rfl h5))
      · exact h5

theorem lateTrigger_onward (h : Onward s₀ s) : Onward s₀ (lateTrigger s k) := by
  unfold lateTrigger
  split
  next x e => exact ite_onward (trigger_onward (setLane_onward e id h)) h
  · exact h

theorem removeGang_onward (h : Onward s₀ s) : Onward s₀ (removeGang s gang) :=
  ⟨fun h0 p hp => h.1 h0 p (List.mem_of_mem_filter hp), h.2⟩

theorem releaseKilled_onward (h : Onward s₀ s) : Onward s₀ (releaseKilled s gang) :=
  mapLanes_onward (f := fun j m => if j.gang = gang then m.killed (s.blocked.contains j) else m) (fun j m hm => by
    split
    · rfl
    · exact hm) h

theorem clearGang_onward (h : Onward s₀ s) : Onward s₀ (clearGang s gang) := by
  unfold clearGang
  split
  · exact ite_onward (removeGang_onward h) (removeGang_onward h)
  · exact h

theorem killGang_onward (h : Onward s₀ s) : Onward s₀ (killGang s gang) := by
  unfold killGang
  extract_lets s1 s2
  have h1 : Onward s₀ s1 := by
    dsimp only [s1]
    split
    · exact foldl_onward h (fun _ _ ht => matrixKill_onward (cancelStream_onward ht))
    · exact h
  have h2 : Onward s₀ s2 := foldl_onward (releaseKilled_onward (s := dropAsk s1 gang) h1) (fun _ _ ht => exitLane_onward ht)
  exact clearGang_onward (s := { s2 with dies := _ }) h2

theorem endGrid_onward {st : Nat} (h : Onward s₀ s) : Onward s₀ (endGrid s gk st c) := by
  unfold endGrid
  split
  · exact h
  next g e =>
    have hg : Onward s₀ (s.setGrid gk { g with ended := g.ended <|> some (st, c), next := g.ngang, retired := g.ngang }) :=
      setGrid_onward e (fun p hp => by simp [hp]) h
    exact ite_onward h (finishGrid_onward (foldl_onward hg (fun _ _ ht => killGang_onward ht)))

theorem faultRecord_onward {pc : Addr} {lanes : Word} {exited : Bool} {t : TrapInfo} {addrs : List (Nat × Addr)} (h : Onward s₀ s) :
    Onward s₀ (faultRecord s w pc lanes exited t addrs).1 := by
  unfold faultRecord
  extract_lets core dd cx idx u seq sealed hidden def_ more flags r s1 conts
  split
  next s2 rs ef =>
    have h2 : Onward s₀ s2 := (congrArg (fun a : State × List Record => Onward s₀ a.1) ef).mp
      (List.foldlRecOn (motive := fun a : State × List Record => Onward s₀ a.1) _ _ (bumpSeq_onward (u := u) h)
        (fun _ ha _ _ => bumpSeq_onward ha))
    have h3 : Onward s₀ (toRing { s2 with recs := s2.recs ++ rs } dd rs) := toRing_onward (s := { s2 with recs := _ }) h2
    exact ite_onward (sealCount_onward h3) h3

theorem parkSub_onward {pc : Addr} {len : Nat} {ts : List (Nat × TrapInfo)} (h : Onward s₀ s) : Onward s₀ (parkSub s w pc len ts) := by
  unfold parkSub
  split
  · extract_lets lanes mask addrs handler
    split
    next e =>
      have ht := fst_onward (faultRecord_onward h) e
      dsimp only
      refine ite_onward (endGrid_onward ?_) (foldl_onward (s := State.setWarp _ w _) ht (fun t i hu => ?_))
      · split
        next g eg => exact setGrid_onward eg (fun _ => id) ht
        · exact ht
      · split
        next m em =>
          split
          · exact setLane_onward em id hu
          · exact setLane_onward (s := releaseUnits (dropRoads t _ false _) _ _) em id hu
        · exact hu
  · exact h

theorem trapParked_onward {ls : List (Nat × Lane)} {t : Lane → TrapInfo} (h : Onward s₀ s) : Onward s₀ (trapParked s w ls t) :=
  foldl_onward h (fun _ _ ht => foldl_onward ht (fun _ _ hu => parkSub_onward hu))

/-! #### Rechecks and the aborts of tries -/

theorem release_onward {ls : List (LaneId × Addr)} (h : Onward s₀ s) : Onward s₀ (release s ls) := by
  refine foldl_onward h (fun t p ht => ?_)
  split
  next m em => exact setLane_onward em (fun hm => by simpa using hm) ht
  · exact ht

theorem recheckWaits_onward (h : Onward s₀ s) : Onward s₀ (recheckWaits s w) := by
  refine foldl_onward h (fun t m ht => ?_)
  split
  · exact ht
  · refine ite_onward ?_ (release_onward (drainTo_onward ?_))
    all_goals exact ite_onward ht (trapParked_onward ht)

theorem releaseBar_onward {ls : List (LaneId × Lane)} (h : Onward s₀ s) : Onward s₀ (releaseBar s gang ls) := by
  refine release_onward ?_
  split
  · exact drainTo_onward h
  · exact h

theorem mismatch_onward {ls : List (LaneId × Lane)} (h : Onward s₀ s) : Onward s₀ (mismatch s ls) :=
  foldl_onward h (fun _ _ ht => trapParked_onward ht)

theorem recheckBars_onward (h : Onward s₀ s) : Onward s₀ (recheckBars s gang) := by
  unfold recheckBars
  extract_lets s1 ls
  have h1 : Onward s₀ s1 := foldl_onward h (fun _ _ ht => ite_onward (releaseBar_onward ht) (ite_onward (mismatch_onward ht) ht))
  exact ite_onward (releaseBar_onward h1) (ite_onward (mismatch_onward h1) h1)

theorem recheckGang_onward (h : Onward s₀ s) : Onward s₀ (recheckGang s gang) :=
  foldl_onward (recheckBars_onward (foldl_onward h (fun _ _ ht => recheckWaits_onward ht))) (fun _ _ ht => lateTrigger_onward ht)

theorem clearSubs_onward (h : Onward s₀ s) : Onward s₀ (clearSubs s w) := by
  unfold clearSubs
  split <;> exact h

theorem abort_spec (l : Lane) (code : Nat) (user : BitVec 8) : (l.abort code user).spec = none := by
  unfold Lane.abort
  split
  · assumption
  · dsimp only
    split
    · rfl
    · simp [Lane.outOfHandler]

theorem abortTries_onward {ls : List LaneId} {code : Nat} {user : BitVec 8} (h : Onward s₀ s) : Onward s₀ (abortTries s ls code user) := by
  refine foldl_onward (foldl_onward h (fun t j ht => ?_)) (fun _ _ ht => clearSubs_onward (recheckWaits_onward ht))
  split
  next m em =>
    have hm : Onward s₀ (t.setLane j (m.abort code user)) := setLane_untried_onward (abort_spec m code user) ht
    split
    · dsimp only
      split <;> exact hm
    · exact ht
  · exact ht

/-! #### The Squares -/

theorem settle_onward {pid : Nat} {vals : Option (List Word)} {needs : Vec} {fail : Option FailInfo} (h : Onward s₀ s) :
    Onward s₀ (settle s k pid vals needs fail) := by
  unfold settle
  split
  next m em => exact setLane_onward em id h
  · exact h

theorem settleVal_onward {vs : List Word} (h : Onward s₀ s) : Onward s₀ (settleVal s d q vs) := settle_onward h

theorem squareWrite_onward {cells : List (Nat × Byte)} {vas : List Nat} (h : Onward s₀ s) : Onward s₀ (squareWrite s d q cells vas) :=
  flatWrite_onward h

theorem doAtomic_onward (h : Onward s₀ s) : Onward s₀ (doAtomic s d q) :=
  ite_onward (settleVal_onward (squareWrite_onward h)) (settleVal_onward (squareWrite_onward h))

theorem doDeque_onward (h : Onward s₀ s) : Onward s₀ (doDeque s d q) := by
  unfold doDeque
  refine ite_onward (settle_onward h) (ite_onward (settleVal_onward (squareWrite_onward h)) (ite_onward ?_ ?_))
  · exact settleVal_onward (squareWrite_onward h)
  · refine ite_onward (settle_onward h) (ite_onward (settle_onward h) ?_)
    split
    next e =>
      have ht := fst_onward (vplaceAs_onward h) e
      exact ite_onward (settleVal_onward (squareWrite_onward ht)) (settleVal_onward (squareWrite_onward ht))
    next e =>
      have ht := fst_onward (vplaceAs_onward h) e
      exact ite_onward ht (ite_onward (ite_onward (postFault_onward ht) ht) (settle_onward ht))
    next e => exact settle_onward (fst_onward (vplaceAs_onward h) e)
    next e =>
      have ht := fst_onward (vplaceAs_onward h) e
      exact ht

theorem doMarm_onward (h : Onward s₀ s) : Onward s₀ (doMarm s d q) := by
  unfold doMarm
  split
  · exact h
  next m em => exact ite_onward h (ite_onward (settle_onward h) (settleVal_onward (setLane_onward em id h)))

theorem performSquare_onward (h : Onward s₀ s) : Onward s₀ (performSquare s d q) := by
  unfold performSquare
  extract_lets e s1 s2
  have h1 : Onward s₀ s1 := ite_onward h (drainTo_onward h)
  have h2 : Onward s₀ s2 := by
    dsimp only [s2]
    split
    · exact settle_onward h1
    · exact ite_onward (doDeque_onward h1) (ite_onward (doMarm_onward h1) (doAtomic_onward h1))
  exact ite_onward (drainAll_onward h2) h2

theorem doSquare_onward (h : Onward s₀ s) : Onward s₀ (doSquare s d q) := by
  unfold doSquare
  refine ite_onward (performSquare_onward h) ?_
  dsimp only
  split
  next e =>
    have ht := fst_onward (vplaceAs_onward h) e
    exact ite_onward (performSquare_onward ht) ht
  next e =>
    have ht := fst_onward (vplaceAs_onward h) e
    exact ite_onward (ite_onward ht (postFault_onward ht)) (settle_onward ht)
  next e => exact settle_onward (fst_onward (vplaceAs_onward h) e)
  next e =>
    have ht := fst_onward (vplaceAs_onward h) e
    exact ht

theorem squareTry_onward {t : State} (h : Onward s₀ s) (e : squareTry s d q = some t) : Onward s₀ t := by
  unfold squareTry at e
  dsimp only at e
  split at e
  · cases e
  · cases e
    refine foldl_onward ?_ (fun _ _ hu => recheckGang_onward hu)
    exact foldl_onward (s := s.setDie d _) h (fun _ _ hu => doSquare_onward hu)

theorem squareStep_onward (h : Onward s₀ s) : Onward s₀ (squareStep s d) := by
  obtain e | ⟨q, _, _, e⟩ := squareStep_cases s d
  · rw [e]
    exact h
  · exact squareTry_onward h e

theorem settleSquares_onward (h : Onward s₀ s) : Onward s₀ (settleSquares s d) :=
  foldl_onward h (fun _ _ ht => foldl_onward ht (fun _ _ hu => ite_onward (squareStep_onward hu) hu))

/-! #### Closes that gangs have left -/

theorem fillActive_onward {part : Nat} (h : Onward s₀ s) : Onward s₀ (fillActive s core part n) := by
  induction n generalizing s with
  | zero => exact h
  | succ n ih =>
    unfold fillActive
    refine ite_onward h ?_
    dsimp only
    split
    · split
      · exact ih (s := State.setWarp s _ _) h
      · exact h
    · exact h

theorem fillClose_onward {close : Nat} (h : Onward s₀ s) : Onward s₀ (fillClose s close) :=
  foldl_onward h (fun _ _ ht => foldl_onward ht (fun _ _ hu => fillActive_onward hu))

theorem toSaving_onward (h : Onward s₀ s) : Onward s₀ (toSaving s gang) := by
  unfold toSaving endTries
  dsimp only
  split <;> exact abortTries_onward h

theorem flushGang_onward {x : Gang} (h : Onward s₀ s) : Onward s₀ (flushGang s gang x) := by
  unfold flushGang
  extract_lets n s1 s2 s3 s4
  have h3 : Onward s₀ s3 := onward_of_eq (s := s1) rfl rfl (killGang_onward h)
  have h4 : Onward s₀ s4 := by
    dsimp only [s4]
    clear_value s3
    split
    next g eg => exact ite_onward h3 (setGrid_onward eg (fun _ => id) h3)
    · exact h3
  exact fillClose_onward h4

theorem preemptGang_onward {byCtxop : Bool} {forGang : Option Nat} (h : Onward s₀ s) : Onward s₀ (preemptGang s gang byCtxop forGang) := by
  unfold preemptGang
  split
  · exact h
  next x _ =>
    have hends : Onward s₀ (endTries (s.setGang gang { x with byCtxop := byCtxop, forGang := forGang }) gang) :=
      abortTries_onward (s := s.setGang gang _) h
    dsimp only
    split
    · exact flushGang_onward hends
    · exact hends
    · exact toSaving_onward hends

theorem nextPreempt_onward {close : Nat} (h : Onward s₀ s) : Onward s₀ (nextPreempt s close n) := by
  induction n generalizing s with
  | zero => exact h
  | succ n ih =>
    unfold nextPreempt
    refine ite_onward h ?_
    split
    · exact ih (preemptGang_onward h)
    · exact h

theorem refill_onward (h : Onward s₀ s) : Onward s₀ (refill s) :=
  foldl_onward h (fun _ _ ht => nextPreempt_onward (fillClose_onward ht))

end

/-! ### Temperature, power and routing tables (R413, R415, R417) -/

section
variable {s : State}

theorem setHalted_halted {c : Nat} {cs : List Nat} {b : Bool} (h : c ∈ cs ∨ (s.core c).halted = b) : ((setHalted s cs b).core c).halted = b := by
  induction cs generalizing s with
  | nil => exact h.resolve_left List.not_mem_nil
  | cons a cs ih =>
    refine ih (s := s.setCore a { s.core a with halted := b }) ?_
    by_cases hc : c = a
    · subst hc
      exact .inr (by rw [State.core_setCore_same])
    · refine h.imp (fun hm => (List.mem_cons.1 hm).resolve_left hc) (fun hh => ?_)
      rw [State.core_setCore_ne _ _ _ hc]
      exact hh

theorem setHalted_dies (cs : List Nat) (b : Bool) : (setHalted s cs b).dies = s.dies := by
  unfold setHalted
  exact foldl_keeps (f := fun (s : State) c => s.setCore c { s.core c with halted := b }) State.dies (fun _ _ => rfl) cs s

theorem endedOf_setHalted (gk : Nat) (cs : List Nat) (b : Bool) : endedOf gk (setHalted s cs b) = endedOf gk s := by
  unfold setHalted
  exact foldl_keeps (f := fun (s : State) c => s.setCore c { s.core c with halted := b }) (endedOf gk) (fun _ _ => rfl) cs s

theorem exec_junctionBelow (d : Nat) :
    exec (.junctionBelowThot d) s = .next (woke (setHalted (setHot s d false) ((List.range 48).map (48 * d + ·)) false)) := rfl

theorem woke_setHalted_hot (d : Nat) (cs : List Nat) (b hot : Bool) : ((woke (setHalted (setHot s d hot) cs b)).die d).hot = hot := by
  change ((setHalted (setHot s d hot) cs b).die d).hot = hot
  rw [State.die, setHalted_dies]
  exact congrArg Die.hot (State.die_setDie_same s d _)

theorem woke_setHalted_halted {c : Nat} {cs : List Nat} {b : Bool} (h : c ∈ cs) : ((woke (setHalted s cs b)).core c).halted = b :=
  setHalted_halted (.inl h)

theorem mem_coresOf (d : Nat) {c : Nat} (hc : c < 48) : 48 * d + c ∈ (List.range 48).map (48 * d + ·) :=
  List.mem_map.2 ⟨c, List.mem_range.2 hc, rfl⟩

theorem admres_ready (d : Nat) (u : BitVec 16) (h : readyBit s 1 = true) :
    exec (.admresChange d u) s = .next (woke (s.setMreg ⟨.admres, d, 0⟩ (u.setWidth 64))) := congrArg _ (if_pos h)

theorem admres_unready (d : Nat) (u : BitVec 16) (h : readyBit s 1 = false) : exec (.admresChange d u) s = .next s :=
  congrArg _ (if_neg (by simp [h]))

theorem tableSigned_unlocked (x : SignedTable) (h : flg (s.mreg ⟨.hwlock, 0, 0⟩) 63 = false) : tableSigned s x = false := by
  simp [tableSigned, h]

theorem routing_refused (m z : BitVec 3) (x : SignedTable) (h : tableSigned s x = false ∨ Config.tableModule x.table ≠ (m, z)) :
    exec (.routingTableUpdate m z x) s = .next s := by
  refine congrArg _ (if_neg ?_)
  rw [Bool.and_eq_true, beq_iff_eq]
  rcases h with h | h
  · simp [h]
  · exact fun hh => h hh.2

theorem routing_installs (m z : BitVec 3) (x : SignedTable) (h : tableSigned s x = true) (hm : Config.tableModule x.table = (m, z)) :
    exec (.routingTableUpdate m z x) s = .next (woke (installTable m z x.table s)) := by
  refine congrArg _ (if_pos ?_)
  rw [h, hm, Bool.true_and, beq_self_eq_true]

/-! ### Grids that the module ends (R417) -/

theorem mem_firsts {α : Type} [DecidableEq α] {a : α} {as : List α} (h : a ∈ as) : a ∈ as.firsts := by
  induction as with
  | nil => exact h
  | cons b as ih =>
    by_cases hab : a = b
    · exact hab ▸ List.mem_cons_self
    · have hm := ih ((List.mem_cons.1 h).resolve_left hab)
      exact List.mem_cons_of_mem _ (List.mem_filter.2 ⟨hm, by simpa using hab⟩)

/-- The end of one grid leaves another as it is. -/
theorem grid_endGrid_ne {j gk : Nat} (hj : j ≠ gk) (st : Nat) (c : Cause) : (endGrid s gk st c).grid? j = s.grid? j := by
  have hp : Blind (·.grid? j) := ⟨fun _ _ _ _ _ _ _ _ _ _ _ _ _ => rfl, fun _ _ _ => rfl, fun _ _ _ => rfl, fun _ _ _ => rfl⟩
  have hset : ∀ (t : State) (r : Grid), (t.setGrid gk r).grid? j = t.grid? j := fun t r => State.grid_setGrid_ne t gk r hj
  have hfinish : ∀ t, (finishGrid t gk).grid? j = t.grid? j := by
    intro t
    unfold finishGrid
    split
    · split
      · exact (blind_tryWords hp _ (fun u _ r _ _ => hset u r)).trans (hset t _)
      · rfl
    · rfl
  unfold endGrid
  split
  · rfl
  · split
    · rfl
    · exact (hfinish _).trans ((foldl_keeps (·.grid? j) (fun t k => congrArg (mfind · j) (grids_killGang t k)) _ _).trans (hset s _))

variable {g : Grid} {j : Nat}

/-- A grid among those that end, which is neither done nor ended, ends with the status and the cause. -/
theorem endGrids_ended {gs : List Nat} {c : Cause} {st : Nat} (hm : j ∈ gs) (e : s.grid? j = some g) (hd : g.done = false) (hn : g.ended = none) :
    endedOf j (gs.foldl (fun s k => endGrid s k st c) s) = some (some (st, c)) := by
  induction gs generalizing s with
  | nil => exact absurd hm List.not_mem_nil
  | cons k gs ih =>
    by_cases hj : j = k
    · subst hj
      obtain ⟨h, eh, hh⟩ := endGrid_ended s (st := st) (c := c) e hd
      have hnow : endedOf j (endGrid s j st c) = some (some (st, c)) := by
        rw [endedOf, eh, Option.map_some, hh, hn]
        rfl
      exact (foldl_onward (.refl (endGrid s j st c)) (fun _ _ ht => endGrid_onward ht)).2 j (st, c) hnow
    · exact ih ((List.mem_cons.1 hm).resolve_left hj) ((grid_endGrid_ne hj st c).trans e)

/-- What an event has made of a grid, once it has ended it with ST 1. -/
theorem ends_of_endedOf {ev : Instr} {t : State} {c : Cause} (e : exec ev s = .next (woke t)) (h : endedOf j t = some (some (1, c))) :
    ∃ t h, exec ev s = .next t ∧ t.grid? j = some h ∧ h.ended = some (1, c) := by
  obtain ⟨r, hr, he⟩ := Option.map_eq_some_iff.1 h
  exact ⟨woke t, r, e, hr, he⟩

theorem refill_ended {p : Nat × Cause} (h : endedOf j s = some (some p)) : endedOf j (refill s) = some (some p) :=
  (refill_onward (.refl s)).2 j p h

variable {k : Nat} {x : Gang}

theorem mem_gridsWith {p : Nat → Gang → Bool} (hk : s.gang? k = some x) (hx : x.onClose = true) (hp : p k x = true) : x.grid ∈ gridsWith s p :=
  mem_firsts (List.mem_map.2 ⟨(k, x), List.mem_filter.2 ⟨mfind_mem hk, by simp [hx, hp]⟩, rfl⟩)

theorem endGrids_gridsWith {p : Nat → Gang → Bool} {c : Cause} (hk : s.gang? k = some x) (hx : x.onClose = true) (hp : p k x = true)
    (e : s.grid? x.grid = some g) (hd : g.done = false) (hn : g.ended = none) :
    endedOf x.grid (endGrids s (gridsWith s p) c) = some (some (1, c)) := by
  unfold endGrids
  exact refill_ended (endGrids_ended (mem_gridsWith hk hx hp) e hd hn)

theorem abortCtx_ended {c : Cause} (e : s.grid? j = some g) (hd : g.done = false) (hn : g.ended = none) :
    endedOf j (abortCtx s g.ctx c) = some (some (1, c)) := by
  unfold abortCtx endCtx
  dsimp only
  rw [if_neg (by decide)]
  refine refill_ended (endGrids_ended (g := g) ?_ e hd hn)
  exact List.mem_map.2 ⟨(j, g), List.mem_filter.2 ⟨mfind_mem e, by simp [hd, hn]⟩, rfl⟩

theorem exec_modctlAbort (c : Nat) (byHost : Bool) : exec (.modctlAbort c byHost) s = execModctlAbort c byHost s := rfl

theorem modctl_host (c : Nat) : exec (.modctlAbort c true) s = .next (woke (abortCtx s c .hostAbort)) := by
  rw [exec_modctlAbort, execModctlAbort, if_pos rfl]

theorem modctl_ready (c : Nat) (h : readyBit s 1 = true) : exec (.modctlAbort c false) s = .next (woke (abortCtx s c .firmwareAbort)) := by
  rw [exec_modctlAbort, execModctlAbort, if_neg Bool.false_ne_true, if_pos h]

theorem modctl_unready (c : Nat) (h : readyBit s 1 = false) : exec (.modctlAbort c false) s = .next s := by
  rw [exec_modctlAbort, execModctlAbort, if_neg Bool.false_ne_true, if_neg (by simp [h])]

theorem exec_thermalHalt :
    exec .thermalHalt s = .next (woke (setHalted (endGrids s (gridsWith s (fun _ _ => true)) .thermalHalt) (List.range 192) true)) := rfl

theorem exec_machineCheck (d unit : Nat) :
    exec (.machineCheck d unit) s = .next (woke (endGrids s (gridsWith s (onUnit s d unit)) .machineCheck)) := rfl

end

/-! ### Invalidations (R222) -/

section
variable {s : State} {d : Nat}

theorem retryStores_untried (h : Untried s) (k : LaneId) (hit : Nat → Nat → Bool) : retryStores s k hit = s := by
  unfold retryStores
  split
  next l e =>
    have hl := h.lane e
    split
    next t et => simp [hl] at et
    · rfl
  · rfl

/-- What entries become that keep their keys. -/
theorem mfind_mapPairs {K V U : Type} [DecidableEq K] {f : K × V → K × U} (hf : ∀ p, (f p).1 = p.1) (m : List (K × V)) (k : K) :
    mfind (m.map f) k = (mfind m k).map (fun v => (f (k, v)).2) := by
  induction m with
  | nil => rfl
  | cons p m ih =>
    simp only [List.map_cons, mfind, hf]
    split
    next e => subst e; rfl
    · exact ih

/-- What holds of a die, and stands through a change of every die, holds of it after the change. -/
theorem die_mapDies {t : State} {P : Die → Prop} {f : Nat × Die → Nat × Die} (hd : t.dies = s.dies.map f) (hk : ∀ p, (f p).1 = p.1)
    (hf : ∀ p, P p.2 → P (f p).2) (h : P (s.die d)) : P (t.die d) := by
  rw [State.die, mget] at h ⊢
  rw [hd, mfind_mapPairs hk]
  cases e : mfind s.dies d with
  | none => rwa [e] at h
  | some x =>
    rw [e] at h
    exact hf (d, x) h

/-- Where no try is open, an invalidation leaves no translation of its range. -/
theorem invalidate_untried (h : Untried s) (ctx sz va : Nat) : ∀ e ∈ ((invalidate s d ctx sz va).die d).tlb, e.inRange ctx sz va = false := by
  unfold invalidate
  extract_lets hit s1 x s2 s3
  have h1 : Untried s1 := (drainAll_onward (settleSquares_onward (.refl s))).1 h
  have h3 : Untried s3 := h1
  have htlb : (s3.die d).tlb = (s2.die d).tlb := die_mapDies (s := s2) (P := fun y => y.tlb = (s2.die d).tlb) rfl (fun _ => rfl) (fun _ h => h) rfl
  have hall : ∀ ks : List LaneId, ks.foldl (fun s k => retryStores s k hit) s3 = s3 := fun ks =>
    List.foldlRecOn (motive := (· = s3)) ks _ rfl (fun t ht k _ => by rw [ht, retryStores_untried h3])
  rw [hall, htlb, State.die_setDie_same]
  intro e he
  simpa using (List.mem_filter.1 he).2

theorem exec_xinv (v : BitVec 64) (h : flg v 0 = true) :
    exec (.xinv d v) s = .next (woke (invalidate (regStore s ⟨.xinv, d, 0⟩ v.toNat) d (fld v 11 6) (fld v 5 3) (fld v 56 12 * 4096))) :=
  congrArg _ (if_pos h)

theorem exec_xinv_idle (v : BitVec 64) (h : flg v 0 = false) : exec (.xinv d v) s = .next (regStore s ⟨.xinv, d, 0⟩ v.toNat) :=
  congrArg _ (if_neg (by simp [h]))

/-! ### Replays (R225; spec/03 R87) -/

theorem die_woke (s : State) (d : Nat) : (woke s).die d = s.die d := rfl

theorem lane_woke (s : State) (k : LaneId) : (woke s).lane? k = s.lane? k := rfl

theorem regStore_xreplay (v : Nat) :
    regStore s ⟨.xreplay, d, 0⟩ v = s.setMreg ⟨.xreplay, d, 0⟩ (regNew (s.mreg ⟨.xreplay, d, 0⟩) .xreplay v) := by
  simp [regStore, regLocked]

theorem exec_xreplay (v : BitVec 64) (h : flg v 6 = true) :
    exec (.xreplay d v) s = .next (woke (replayCtx (regStore s ⟨.xreplay, d, 0⟩ v.toNat) d (fld v 5 0))) :=
  congrArg _ (if_pos h)

theorem mfind_forall₂ {K V : Type} [DecidableEq K] {R : V → V → Prop} {m n : List (K × V)} {k : K} {v : V}
    (h : List.Forall₂ (fun p q => q.1 = p.1 ∧ R p.2 q.2) m n) (e : mfind m k = some v) : ∃ u, mfind n k = some u ∧ R v u := by
  induction h with
  | nil => cases e
  | @cons p q m n hpq _ ih =>
    obtain ⟨hkey, hval⟩ := hpq
    simp only [mfind, hkey] at e ⊢
    split at e
    next hp => exact ⟨q.2, if_pos hp, Option.some.inj e ▸ hval⟩
    next hp => simpa only [if_neg hp] using ih e

/-- The requests of a context on a die go on, whatever else a replay releases. -/
theorem released_sqq (x : Die) (ctx : Nat) : ∀ q ∈ (x.released ctx).sqq, q.ctx = ctx → q.parked = false := by
  intro q hq hc
  obtain ⟨r, _, rfl⟩ := List.mem_map.1 hq
  split
  · rfl
  next hr =>
    rw [if_neg hr] at hc
    exact absurd hc hr

/-- Requests that go on go on when others are released. -/
theorem unparked_map {P : SqReq → Prop} [DecidablePred P] {qs : List SqReq} {ctx : Nat} (h : ∀ q ∈ qs, q.ctx = ctx → q.parked = false) :
    ∀ q ∈ qs.map (fun r => if P r then { r with parked := false } else r), q.ctx = ctx → q.parked = false := by
  intro q hq hc
  obtain ⟨r, hr, rfl⟩ := List.mem_map.1 hq
  split
  · rfl
  next hn =>
    rw [if_neg hn] at hc
    exact h r hr hc

/-- What a replay has released before it writes the completion words that were parked. -/
theorem replayCtx_weathered (ctx : Nat) : ∃ t : State, Weathered t (replayCtx s d ctx) ∧ (∀ q ∈ (t.die d).sqq, q.ctx = ctx → q.parked = false) ∧
    ∀ k l, s.lane? k = some l → gangRuns s k.gang = true → laneDie s k = d → laneCtx s k = ctx → t.lane? k = some l.released := by
  unfold replayCtx
  extract_lets mine served words s1 s2
  refine ⟨s2, foldl_weathered (.refl s2) (fun _ _ ht => tryWords_weathered ht), ?_, fun k l e hg hd hc => ?_⟩
  · refine die_mapDies (s := s1) (P := fun x => ∀ q ∈ x.sqq, q.ctx = ctx → q.parked = false) rfl (fun _ => rfl) (fun p hp => ?_) ?_
    · dsimp only
      split
      · exact hp
      · exact unparked_map hp
    · rw [State.die_setDie_same]
      exact released_sqq _ ctx
  · have hmine : mine k = true := by simp [mine, hg, hd, hc]
    have hlane : s2.lane? k = some (if mine k then l.released else l) := by
      refine (mfind_mapPairs ?_ s1.lanes k).trans (congrArg (Option.map _) e)
      exact fun _ => rfl
    rw [hlane, if_pos hmine]

/-- A lane of the context that waited for the replay is released, and stands as it stood. -/
theorem replayCtx_lane {k : LaneId} {l : Lane} {ctx : Nat} {dst : List Nat} (e : s.lane? k = some l) (hst : l.st = .replay false dst)
    (hg : gangRuns s k.gang = true) (hd : laneDie s k = d) (hc : laneCtx s k = ctx) :
    ∃ m, (replayCtx s d ctx).lane? k = some m ∧ m.st = .replay true dst ∧ m.regs = l.regs ∧ m.pc = l.pc := by
  obtain ⟨t, hw, _, hlanes⟩ := replayCtx_weathered (s := s) (d := d) ctx
  obtain ⟨m, hm, hkept⟩ := mfind_forall₂ hw.2 (hlanes k l e hg hd hc)
  have hrel : l.released = { l with st := .replay true dst } := by simp [Lane.released, hst]
  rw [hrel] at hkept
  obtain ⟨h1, h2, h3⟩ := hkept.replay true dst rfl
  exact ⟨m, hm, h1, h2, h3⟩

theorem replayCtx_sqq (ctx : Nat) : ∀ q ∈ ((replayCtx s d ctx).die d).sqq, q.ctx = ctx → q.parked = false := by
  obtain ⟨t, hw, hsqq, _⟩ := replayCtx_weathered (s := s) (d := d) ctx
  rw [hw.1 d]
  exact hsqq

/-! ### Attestation (R420, R421) -/

theorem attDo_waits {op : BitVec 64} {bs : List Byte} (h : availSpan s (attAddr s) bs.length = .waits) :
    attDo s op bs = s.setMreg ⟨.attgo, 0, 0⟩ op := by
  simp only [attDo, h]

theorem attDo_writes {op : BitVec 64} {bs : List Byte} (h : availSpan s (attAddr s) bs.length ≠ .waits) :
    attDo s op bs = (ioWrite s (attAddr s) bs).setMreg ⟨.attgo, 0, 0⟩ 0 := by
  unfold attDo
  split
  next e => exact absurd e h
  · rfl

/-- A report begins with its version and the firmware's SVN, and then the nonce, its first register first. -/
theorem reportBytes_head : ∃ rest, reportBytes s =
    bytesLE 4 1 ++ bytesLE 4 (fld (s.mreg ⟨.fwstat, 0, 0⟩) 63 32) ++ (bytesLE 8 (s.mreg ⟨.attnonce, 0, 0⟩).toNat ++ rest) := by
  have hnonce : ∀ f : Nat → List Byte, (List.range 4).flatMap f = f 0 ++ (f 1 ++ (f 2 ++ f 3)) := fun f => by simp [List.range_succ]
  unfold reportBytes signedBytes
  simp only [hnonce, List.append_assoc]
  exact ⟨_, rfl⟩

/-! ### Keys (R421) -/

section
variable {m : List Byte}

theorem klDone_reads (st : Nat) (h : st < 8) : (klDone s st).mreg ⟨.klgo, 0, 0⟩ = 0 ∧ ((klDone s st).mreg ⟨.klstat, 0, 0⟩).toNat = st := by
  unfold klDone
  refine ⟨State.mreg_setMreg_same .., ?_⟩
  rw [State.mreg_setMreg_ne _ _ _ (by decide), State.mreg_setMreg_same, BitVec.toNat_ofNat]
  omega

theorem mreg_klDone_ctxkey (st ctx : Nat) : (klDone s st).mreg ⟨.ctxkey, ctx, 0⟩ = s.mreg ⟨.ctxkey, ctx, 0⟩ := by
  unfold klDone
  rw [mreg_setMreg_name _ _ (by simp), mreg_setMreg_name _ _ (by simp)]

theorem keyStatus_bad (h : badMessage m = true) : keyStatus s m = (1, 0) := if_pos h

theorem keyStatus_unopened (h : badMessage m = false) (hk : unwrapKey m = none) : keyStatus s m = (2, 0) := by
  simp [keyStatus, h, hk]

theorem keyStatus_lt : (keyStatus s m).1 < 8 := by
  unfold keyStatus
  dsimp only
  split
  · decide
  · split
    · decide
    · split_ifs <;> simp

/-- A message that is acted on names a key slot. -/
theorem slot_of_accepted {key : Nat} (h : keyStatus s m = (0, key)) : recN m 5 1 < 64 := by
  have hb : badMessage m = false := by
    by_contra hb
    rw [keyStatus_bad (by simpa using hb)] at h
    simp at h
  simp only [badMessage, Bool.or_eq_false_iff, decide_eq_false_iff_not] at hb
  omega

/-- A message that is refused leaves the keys, with its status. -/
theorem useMessage_refused (h : (keyStatus s m).1 ≠ 0) : useMessage s m = klDone s (keyStatus s m).1 := by
  unfold useMessage
  dsimp only
  split
  next key e =>
    rw [e] at h
    exact absurd rfl h
  next st _ e => rw [e]

theorem useMessage_unloads {key : Nat} (h : keyStatus s m = (0, key)) (hu : natBit (recN m 6 1) 0 = true) :
    useMessage s m = klDone ({ s with keys := mdel s.keys (recN m 5 1) }.setMreg ⟨.ctxkey, recN m 4 1, 0⟩ 0) 0 := by
  simp only [useMessage, h, hu, if_true]

theorem useMessage_loads {key : Nat} (h : keyStatus s m = (0, key)) (hu : natBit (recN m 6 1) 0 = false) :
    useMessage s m = klDone ({ s with keys := mset s.keys (recN m 5 1) (recN m 4 1, key) }.setMreg ⟨.ctxkey, recN m 4 1, 0⟩
      (BitVec.ofNat 64 (recN m 5 1))) 0 := by
  simp only [useMessage, h, hu, Bool.false_eq_true, if_false]

/-- What a message that can be read makes of the key registers and the keys. -/
theorem useMessage_reads (s : State) (m : List Byte) : (useMessage s m).mreg ⟨.klgo, 0, 0⟩ = 0 ∧
    ((useMessage s m).mreg ⟨.klstat, 0, 0⟩).toNat = (keyStatus s m).1 ∧
    (∀ key, keyStatus s m = (0, key) →
      mfind (useMessage s m).keys (recN m 5 1) = (if natBit (recN m 6 1) 0 then none else some (recN m 4 1, key)) ∧
        ((useMessage s m).mreg ⟨.ctxkey, recN m 4 1, 0⟩).toNat = if natBit (recN m 6 1) 0 then 0 else recN m 5 1) ∧
    ((keyStatus s m).1 ≠ 0 → (useMessage s m).keys = s.keys) := by
  by_cases h : (keyStatus s m).1 = 0
  · obtain ⟨key, hk⟩ : ∃ key, keyStatus s m = (0, key) := ⟨_, Prod.ext h rfl⟩
    have hslot := slot_of_accepted hk
    cases hu : natBit (recN m 6 1) 0 with
    | true =>
      rw [useMessage_unloads hk hu, hk]
      obtain ⟨hgo, hstat⟩ := klDone_reads (s := { s with keys := mdel s.keys (recN m 5 1) }.setMreg ⟨.ctxkey, recN m 4 1, 0⟩ 0) 0 (by decide)
      refine ⟨hgo, hstat, fun key' _ => ⟨mfind_mdel_same _ _, ?_⟩, fun hn => absurd rfl hn⟩
      rw [mreg_klDone_ctxkey, State.mreg_setMreg_same]
      rfl
    | false =>
      rw [useMessage_loads hk hu, hk]
      obtain ⟨hgo, hstat⟩ := klDone_reads (s := { s with keys := mset s.keys (recN m 5 1) (recN m 4 1, key) }.setMreg ⟨.ctxkey, recN m 4 1, 0⟩
        (BitVec.ofNat 64 (recN m 5 1))) 0 (by decide)
      refine ⟨hgo, hstat, fun key' hk' => ⟨?_, ?_⟩, fun hn => absurd rfl hn⟩
      · obtain ⟨_, rfl⟩ := Prod.mk.inj hk'
        exact mfind_mset_same _ _ _
      · rw [mreg_klDone_ctxkey, State.mreg_setMreg_same, BitVec.toNat_ofNat]
        exact Nat.mod_eq_of_lt (by omega)
  · rw [useMessage_refused h]
    obtain ⟨hgo, hstat⟩ := klDone_reads (s := s) _ keyStatus_lt
    exact ⟨hgo, hstat, fun key hk => absurd (congrArg Prod.fst hk) h, fun _ => rfl⟩

theorem exec_keyLoad_bad (h : keyMessage s = (.bad, m)) : exec .keyLoad s = .next (woke (klDone s 1)) := by
  have ha : asksUnload s = false := by simp only [asksUnload, h]
  have hgo : keyGo s = klDone s 1 := by simp only [keyGo, h]
  rw [← hgo]
  exact congrArg _ (if_neg (by simp [ha]))

/-- The event that fits a message which can be read acts on it. -/
theorem exec_keyGo (h : keyMessage s = (.ready, m)) :
    exec (if natBit (recN m 6 1) 0 then .keyUnload else .keyLoad) s = .next (woke (useMessage s m)) := by
  have ha : asksUnload s = natBit (recN m 6 1) 0 := by simp only [asksUnload, h]
  have hgo : keyGo s = useMessage s m := by simp only [keyGo, h]
  rw [← hgo]
  cases hu : natBit (recN m 6 1) 0 with
  | true => exact congrArg _ (if_pos (ha.trans hu))
  | false => exact congrArg _ (if_neg (by simp [ha, hu]))

end

end

/-- Settles O57: a grid's end stands whatever comes after it and no lane opens a try by itself (`Onward`), so a grid that the module ends stays ended
(`endGrids_ended`) and an invalidation leaves its filtered translations (`invalidate_untried`); writes leave what waits for XREPLAY (`Weathered`); the
registers, tables and keys are read off the operations that store them. -/
theorem theModuleIsManaged : Obligations.TheModuleIsManaged := by
  unfold Obligations.TheModuleIsManaged
  refine ⟨fun s d u m z => ?_, fun s c k d unit x g hk hx e hd hn _ => ?_, fun s d v => ?_, fun s => ?_, fun s m h => ?_, fun s m key h => ?_⟩
  · refine ⟨rfl, ⟨_, exec_junctionBelow d, woke_setHalted_hot d _ _ _, fun c hc => woke_setHalted_halted (mem_coresOf d hc)⟩, admres_ready d u,
      admres_unready d u, fun x => ⟨tableSigned_unlocked x, fun h => routing_refused m z x (.inl h), fun h => routing_refused m z x (.inr h),
      fun h hm => ⟨_, routing_installs m z x h hm, rfl, ?_, rfl, rfl⟩⟩⟩
    exact State.mreg_setMreg_same ..
  · intro ends
    have hheat : endedOf x.grid (endGrids s (gridsWith s (fun _ _ => true)) .thermalHalt) = _ := endGrids_gridsWith hk hx rfl e hd hn
    refine ⟨ends_of_endedOf exec_thermalHalt ((endedOf_setHalted _ _ _).trans hheat), ⟨_, exec_thermalHalt, fun c hc => ?_⟩, fun hu => ?_, ?_,
      modctl_unready c⟩
    · exact woke_setHalted_halted (List.mem_range.2 hc)
    · exact ends_of_endedOf (exec_machineCheck d unit) (endGrids_gridsWith hk hx hu e hd hn)
    · rintro rfl
      exact ⟨ends_of_endedOf (modctl_host g.ctx) (abortCtx_ended e hd hn),
        fun h => ends_of_endedOf (modctl_ready g.ctx h) (abortCtx_ended e hd hn)⟩
  · refine ⟨fun h hu => ⟨_, exec_xinv v h, invalidate_untried ?_ _ _ _⟩, exec_xinv_idle v,
      fun h => ⟨_, exec_xreplay v h, ?_, fun k l dst el hst hg hd hc => ?_⟩⟩
    · unfold Untried
      rw [(regStore_frame (by simp) _).1]
      exact hu
    · rw [die_woke]
      exact replayCtx_sqq (fld v 5 0)
    · rw [regStore_xreplay, lane_woke]
      exact replayCtx_lane (s := s.setMreg _ _) el hst hg hd hc
  · obtain ⟨rest, hrep⟩ := reportBytes_head (s := s)
    refine ⟨⟨fun h => congrArg (Host.Outcome.next ∘ woke) (attDo_waits h), fun h => congrArg (Host.Outcome.next ∘ woke) (attDo_writes h)⟩,
      ⟨fun h => congrArg (Host.Outcome.next ∘ woke) (attDo_waits h), fun h => congrArg (Host.Outcome.next ∘ woke) (attDo_writes h)⟩, ?_, ?_⟩
    all_goals rw [hrep]
    · rw [List.take_left' (by simp [bytesLE_length])]
    · rw [List.drop_left' (by simp [bytesLE_length]), List.take_left' (bytesLE_length 8 _)]
  · refine ⟨_, exec_keyLoad_bad h, ?_, (klDone_reads 1 (by decide)).1, rfl⟩
    exact BitVec.eq_of_toNat_eq (klDone_reads (s := s) 1 (by decide)).2
  · obtain ⟨hgo, hstat, hkeys, hsame⟩ := useMessage_reads s m
    exact ⟨_, exec_keyGo h, hgo, hstat, hkeys key, hsame, fun hb => congrArg Prod.fst (keyStatus_bad hb),
      fun hb hu => congrArg Prod.fst (keyStatus_unopened hb hu)⟩

end Sys2Proof.Machine
end

section
/-! PROOFS. Integers by their types: two's complement codes, clamping, absent operands and comparisons (spec/04 R90, R95, R98, R101; spec/06 R143,
R146). -/

namespace Sys2Proof.Machine

open Sys2Proof.Claims

/-! ### Two's complement (R90) -/

theorem wrapInt_eq_ofInt (w : Nat) (x : Int) : wrapInt w x = (BitVec.ofInt w x).toNat := (BitVec.toNat_ofInt x).symm

theorem wrapInt_of_range {w : Nat} {x : Int} (h0 : 0 ≤ x) (h : x < 2 ^ w) : wrapInt w x = x.toNat := by
  rw [wrapInt, Nat.cast_pow, Nat.cast_ofNat, Int.emod_eq_of_lt h0 h]

theorem two_pow_pred {w : Nat} (h : 0 < w) : 2 ^ w = 2 * 2 ^ (w - 1) := by rw [← Nat.pow_succ', Nat.succ_eq_add_one, Nat.sub_add_cancel h]

theorem sext_eq_toInt {w : Nat} (h : 0 < w) (n : Nat) : sext w n = (BitVec.ofNat w n).toInt := by
  have hw := two_pow_pred h
  rw [BitVec.toInt_eq_toNat_cond, BitVec.toNat_ofNat]
  simp only [sext]
  split <;> split <;> omega

theorem sext_toNat {w : Nat} (h : 0 < w) (a : BitVec w) : sext w a.toNat = a.toInt := by rw [sext_eq_toInt h, BitVec.ofNat_toNat, BitVec.setWidth_eq]

/-! ### Codes, values and absent codes of the integer types -/

section kinds
variable {t : Ty} {w : Nat} (hw : tyWidth t = w)
include hw

theorem intVal_int (h : 0 < w) (hk : tyKind t = .int) (a : BitVec w) : intVal t a.toNat = a.toInt := by
  rw [intVal, if_pos hk, hw, sext_toNat h]

theorem isAbsent_int (h : 0 < w) (hk : tyKind t = .int) (a : BitVec w) : isAbsent t a.toNat = (a == BitVec.ofNat w (2 ^ (w - 1))) := by
  have hlt := two_pow_pred h
  rw [Bool.eq_iff_iff]
  simp only [isAbsent, absentOf, hk, hw, beq_iff_eq, ← BitVec.toNat_inj, BitVec.toNat_ofNat]
  rw [Nat.mod_eq_of_lt (by have := Nat.two_pow_pos (w - 1); omega)]

theorem isAbsent_nat (hk : tyKind t = .nat) (a : BitVec w) : isAbsent t a.toNat = (a == BitVec.allOnes w) := by
  rw [Bool.eq_iff_iff]
  simp only [isAbsent, absentOf, hk, hw, beq_iff_eq, ← BitVec.toNat_inj, BitVec.toNat_allOnes]

/-- Results of iN are clamped to the range about 0 (R101). -/
theorem intRes_int (h : 1 < w) (hk : tyKind t = .int) (x : Int) :
    intRes t x = if 2 ^ (w - 1) - 1 < x then (2 ^ (w - 1) - 1, OF) else if x < -(2 ^ (w - 1) - 1) then (2 ^ (w - 1) + 1, OF)
      else ((BitVec.ofInt w x).toNat, 0) := by
  have hpow := two_pow_pred (Nat.zero_lt_of_lt h)
  have hpos : 2 ^ 1 ≤ 2 ^ (w - 1) := Nat.pow_le_pow_right (by decide) (by omega)
  have hmin : intMin t = 1 - (2 ^ (w - 1) : Nat) := by rw [intMin, if_pos hk, hw]
  have hmax : intMax t = (2 ^ (w - 1) : Nat) - 1 := by rw [intMax, if_pos hk, hw]
  have hraw : tyKind t ≠ .raw := by simp [hk]
  have hcast : ((2 ^ (w - 1) : Nat) : Int) = 2 ^ (w - 1) := by norm_cast
  rw [← hcast]
  simp only [intRes, if_neg hraw, satInt, hmin, hmax, intCode, hw, ← wrapInt_eq_ofInt]
  generalize hm : 2 ^ (w - 1) = m at *
  split_ifs with hhi hlo
  · have hy : clampInt (1 - (m : Int)) ((m : Int) - 1) x = (m : Int) - 1 := by unfold clampInt; omega
    have hne : ((m : Int) - 1 != x) = true := by simp only [bne_iff_ne]; omega
    rw [hy, hne, wrapInt, hpow, Int.emod_eq_of_lt (by omega) (by omega)]
    simp only [clampFlag, flagIf, if_true, Prod.mk.injEq, and_true]
    omega
  · have hy : clampInt (1 - (m : Int)) ((m : Int) - 1) x = 1 - (m : Int) := by unfold clampInt; omega
    have hne : (1 - (m : Int) != x) = true := by simp only [bne_iff_ne]; omega
    rw [hy, hne, wrapInt, hpow, ← Int.add_emod_right, Int.emod_eq_of_lt (by omega) (by omega)]
    simp only [clampFlag, flagIf, if_true, Prod.mk.injEq, and_true]
    omega
  · have hy : clampInt (1 - (m : Int)) ((m : Int) - 1) x = x := by unfold clampInt; omega
    rw [hy, bne_self_eq_false]
    rfl

/-- Results of nN are clamped to 0 and the code below the absent one (R101). -/
theorem intRes_nat (h : 0 < w) (hk : tyKind t = .nat) (x : Int) :
    intRes t x = if 2 ^ w - 2 < x then (2 ^ w - 2, OF) else if x < 0 then (0, OF) else (x.toNat, 0) := by
  have hpow := two_pow_pred h
  have hpos := Nat.two_pow_pos (w - 1)
  have hmin : intMin t = 0 := by rw [intMin, if_neg (by simp [hk])]
  have hmax : intMax t = (2 ^ w : Nat) - 2 := by rw [intMax, if_neg (by simp [hk]), hw]
  have hraw : tyKind t ≠ .raw := by simp [hk]
  have hcast : ((2 ^ w : Nat) : Int) = 2 ^ w := by norm_cast
  have hsmall : ∀ y : Int, 0 ≤ y → y ≤ (2 ^ w : Nat) - 2 → wrapInt w y = y.toNat := fun y h0 h1 => wrapInt_of_range h0 (by omega)
  rw [← hcast]
  simp only [intRes, if_neg hraw, satInt, hmin, hmax, intCode, hw]
  generalize hm : 2 ^ w = m at *
  split_ifs with hhi hlo
  · have hy : clampInt 0 ((m : Int) - 2) x = (m : Int) - 2 := by unfold clampInt; omega
    have hne : ((m : Int) - 2 != x) = true := by simp only [bne_iff_ne]; omega
    rw [hy, hne, hsmall _ (by omega) le_rfl]
    simp only [clampFlag, flagIf, if_true, Prod.mk.injEq, and_true]
    omega
  · have hy : clampInt 0 ((m : Int) - 2) x = 0 := by unfold clampInt; omega
    have hne : ((0 : Int) != x) = true := by simp only [bne_iff_ne]; omega
    rw [hy, hne, hsmall _ le_rfl (by omega)]
    rfl
  · have hy : clampInt 0 ((m : Int) - 2) x = x := by unfold clampInt; omega
    rw [hy, bne_self_eq_false, hsmall _ (by omega) (by omega)]
    rfl

/-- Results of bN wrap (R101). -/
theorem intRes_raw (hk : tyKind t = .raw) (x : Int) : intRes t x = ((BitVec.ofInt w x).toNat, 0) := by
  rw [intRes, if_pos hk, intCode, hw, wrapInt_eq_ofInt]

end kinds

theorem isAbsent_raw {t : Ty} (hk : tyKind t = .raw) (n : Nat) : isAbsent t n = false := by simp [isAbsent, hk]

theorem intVal_of_ne_int {t : Ty} (hk : tyKind t ≠ .int) (n : Nat) : intVal t n = n := if_neg hk

/-! ### Absent operands (R95, R98) -/

section absent
variable {t : Ty} {f : List Nat → Res} {ids : List Nat} {a b : Nat} {ai : Bool}

theorem withAbsent_present {ops : List Nat} (h : ∀ x ∈ ops, isAbsent t x = false) : withAbsent t ai ids ops f = f ops := by
  have hany : (ops.map (isAbsent t)).any id = false := by simpa using h
  rw [withAbsent, hany]
  rfl

theorem withAbsent_both (ha : isAbsent t a = true) (hb : isAbsent t b = true) : withAbsent t ai ids [a, b] f = (absentOf t, 0) := by
  simp [withAbsent, ha, hb]

theorem withAbsent_left (ha : isAbsent t a = true) (hb : isAbsent t b = false) :
    withAbsent t ai ids [a, b] f = if ai then f (([a, b].zip ids).map (fun p => if isAbsent t p.1 then p.2 else p.1)) else (absentOf t, AP) := by
  simp [withAbsent, ha, hb]

theorem withAbsent_right (ha : isAbsent t a = false) (hb : isAbsent t b = true) :
    withAbsent t ai ids [a, b] f = if ai then f (([a, b].zip ids).map (fun p => if isAbsent t p.1 then p.2 else p.1)) else (absentOf t, AP) := by
  simp [withAbsent, ha, hb]

end absent

theorem intBin_present {t : Ty} {a b : Nat} (ha : isAbsent t a = false) (hb : isAbsent t b = false) (ai : Bool) (ids : List Nat) (f : Int → Int → Int) :
    intBin t ai ids f a b = intRes t (f (intVal t a) (intVal t b)) := by
  rw [intBin, withAbsent_present (by simp [ha, hb])]
  rfl

/-! ### Comparisons (R146) -/

/-- The conditions of ISET on whether A equals B and whether it lies below B. -/
def ordHolds (eq lt : Bool) (cnd : Nat) : Bool :=
  match cnd with
  | 0 => eq
  | 1 => !eq
  | 2 => lt
  | 3 => lt || eq
  | 4 => !(lt || eq)
  | _ => !lt

theorem intCmp_eq_ordHolds (cnd : Nat) (x y : Int) : intCmp cnd x y = ordHolds (decide (x = y)) (decide (x < y)) cnd := by
  match cnd with
  | 0 | 1 | 2 => rfl
  | 3 => exact (decide_eq_decide.mpr le_iff_lt_or_eq).trans (Bool.decide_or ..)
  | 4 => exact (decide_eq_decide.mpr (not_le.symm.trans (not_congr le_iff_lt_or_eq))).trans (by rw [decide_not, Bool.decide_or]; rfl)
  | _ + 5 => simp only [intCmp, ordHolds, ← not_lt, decide_not]

theorem isetVal_present {t : Ty} {cnd a b : Nat} (ha : isAbsent t a = false) (hb : isAbsent t b = false) :
    isetVal t cnd a b = (b2n (ordHolds (decide (intVal t a = intVal t b)) (decide (intVal t a < intVal t b)) cnd), 0) := by
  simp [isetVal, ha, hb, intCmp_eq_ordHolds]

theorem isetVal_absent {t : Ty} {a b : Nat} (h : isAbsent t a = true ∨ isAbsent t b = true) (cnd : Nat) : isetVal t cnd a b = (0, 0) := by
  rcases h with h | h <;> simp [isetVal, h, b2n]

/-- ISET of patterns whose order as codes is that of `lt` (R146). -/
theorem isetVal_of_order {t : Ty} {cnd w : Nat} {a b : BitVec w} {lt : Bool} (ha : isAbsent t a.toNat = false) (hb : isAbsent t b.toNat = false)
    (heq : intVal t a.toNat = intVal t b.toNat ↔ a = b) (hlt : decide (intVal t a.toNat < intVal t b.toNat) = lt) :
    isetVal t cnd a.toNat b.toNat = (b2n (ordHolds (a == b) lt cnd), 0) := by
  rw [isetVal_present ha hb, hlt, decide_eq_decide.mpr heq]
  rfl

theorem toNat_lt_eq_ult {w : Nat} (a b : BitVec w) : decide ((a.toNat : Int) < b.toNat) = a.ult b := by simp [BitVec.ult]

theorem natCast_toNat_inj {w : Nat} (a b : BitVec w) : ((a.toNat : Int) = b.toNat) ↔ a = b := by rw [Nat.cast_inj, BitVec.toNat_inj]

/-- What the sums, products and comparisons of one width come to, type by type (R101, R146). -/
theorem integers_of_width {w : Nat} {ti tn tb : Ty} (h : 0 < w) (hi : tyKind ti = .int ∧ tyWidth ti = w) (hn : tyKind tn = .nat ∧ tyWidth tn = w)
    (hb : tyKind tb = .raw ∧ tyWidth tb = w) (a b : BitVec w) :
    (∀ (ai : Bool) (ids : List Nat) (f : Int → Int → Int),
      (a ≠ BitVec.ofNat w (2 ^ (w - 1)) → b ≠ BitVec.ofNat w (2 ^ (w - 1)) → intBin ti ai ids f a.toNat b.toNat = intRes ti (f a.toInt b.toInt)) ∧
      (a ≠ BitVec.allOnes w → b ≠ BitVec.allOnes w → intBin tn ai ids f a.toNat b.toNat = intRes tn (f a.toNat b.toNat)) ∧
      intBin tb ai ids f a.toNat b.toNat = intRes tb (f a.toNat b.toNat)) ∧
    ∀ cnd,
      (a ≠ BitVec.ofNat w (2 ^ (w - 1)) → b ≠ BitVec.ofNat w (2 ^ (w - 1)) →
        isetVal ti cnd a.toNat b.toNat = (b2n (ordHolds (a == b) (a.slt b) cnd), 0)) ∧
      (a ≠ BitVec.allOnes w → b ≠ BitVec.allOnes w → isetVal tn cnd a.toNat b.toNat = (b2n (ordHolds (a == b) (a.ult b) cnd), 0)) ∧
      isetVal tb cnd a.toNat b.toNat = (b2n (ordHolds (a == b) (a.ult b) cnd), 0) ∧
      (a = BitVec.ofNat w (2 ^ (w - 1)) ∨ b = BitVec.ofNat w (2 ^ (w - 1)) → isetVal ti cnd a.toNat b.toNat = (0, 0)) ∧
      (a = BitVec.allOnes w ∨ b = BitVec.allOnes w → isetVal tn cnd a.toNat b.toNat = (0, 0)) := by
  obtain ⟨hik, hiw⟩ := hi
  obtain ⟨hnk, hnw⟩ := hn
  obtain ⟨hbk, -⟩ := hb
  have nat_val : ∀ n, intVal tn n = n := intVal_of_ne_int (by simp [hnk])
  have raw_val : ∀ n, intVal tb n = n := intVal_of_ne_int (by simp [hbk])
  have int_val := intVal_int hiw h hik
  have int_here : ∀ x : BitVec w, x ≠ BitVec.ofNat w (2 ^ (w - 1)) → isAbsent ti x.toNat = false :=
    fun x hx => (isAbsent_int hiw h hik x).trans (beq_eq_false_iff_ne.mpr hx)
  have nat_here : ∀ x : BitVec w, x ≠ BitVec.allOnes w → isAbsent tn x.toNat = false :=
    fun x hx => (isAbsent_nat hnw hnk x).trans (beq_eq_false_iff_ne.mpr hx)
  refine ⟨fun ai ids f => ⟨fun ha hb => ?_, fun ha hb => ?_, ?_⟩,
    fun cnd => ⟨fun ha hb => ?_, fun ha hb => ?_, ?_, fun hab => ?_, fun hab => ?_⟩⟩
  · rw [intBin_present (int_here a ha) (int_here b hb), int_val, int_val]
  · rw [intBin_present (nat_here a ha) (nat_here b hb), nat_val, nat_val]
  · rw [intBin_present (isAbsent_raw hbk _) (isAbsent_raw hbk _), raw_val, raw_val]
  · refine isetVal_of_order (int_here a ha) (int_here b hb) ?_ ?_
    · rw [int_val, int_val, BitVec.toInt_inj]
    · rw [int_val, int_val]; rfl
  · refine isetVal_of_order (nat_here a ha) (nat_here b hb) ?_ ?_
    · rw [nat_val, nat_val, natCast_toNat_inj]
    · rw [nat_val, nat_val, toNat_lt_eq_ult]
  · refine isetVal_of_order (isAbsent_raw hbk _) (isAbsent_raw hbk _) ?_ ?_
    · rw [raw_val, raw_val, natCast_toNat_inj]
    · rw [raw_val, raw_val, toNat_lt_eq_ult]
  · refine isetVal_absent ?_ cnd
    rwa [isAbsent_int hiw h hik, isAbsent_int hiw h hik, beq_iff_eq, beq_iff_eq]
  · refine isetVal_absent ?_ cnd
    rwa [isAbsent_nat hnw hnk, isAbsent_nat hnw hnk, beq_iff_eq, beq_iff_eq]

/-- Settles O14: the integer types at 32 and at 64 bits by `integers_of_width` and the clamping of each kind, and the four cases of two operands that
may be absent. -/
theorem integersFollowTheirTypes : Obligations.IntegersFollowTheirTypes := by
  unfold Obligations.IntegersFollowTheirTypes
  refine ⟨fun w ti tn tb hmem a b => ?_, fun t a b i j f =>
    ⟨fun ha hb ai => intBin_present ha hb ai _ f, fun ha hb => ⟨?_, ?_⟩, fun ha hb => ⟨?_, ?_⟩, fun ha hb ai => withAbsent_both ha hb⟩⟩
  · have hw : 1 < w ∧ (tyKind ti = .int ∧ tyWidth ti = w) ∧ (tyKind tn = .nat ∧ tyWidth tn = w) ∧ tyKind tb = .raw ∧ tyWidth tb = w := by
      simp only [List.mem_cons, Prod.mk.injEq, List.not_mem_nil, or_false] at hmem
      rcases hmem with ⟨rfl, rfl, rfl, rfl⟩ | ⟨rfl, rfl, rfl, rfl⟩ <;> decide
    obtain ⟨h, hi, hn, hb⟩ := hw
    have hpos : 0 < w := Nat.zero_lt_of_lt h
    obtain ⟨hbin, hset⟩ := integers_of_width hpos hi hn hb a b
    refine ⟨fun ai ids f => ?_, fun cnd _ => hset cnd⟩
    obtain ⟨bin_int, bin_nat, bin_raw⟩ := hbin ai ids f
    exact ⟨fun ha hb => (bin_int ha hb).trans (intRes_int hi.2 h hi.1 _), fun ha hb => (bin_nat ha hb).trans (intRes_nat hn.2 hpos hn.1 _),
      bin_raw.trans (intRes_raw hb.2 hb.1 _)⟩
  · exact withAbsent_left ha hb
  · simp [intBin, withAbsent_left ha hb, ha, hb]
  · exact withAbsent_right ha hb
  · simp [intBin, withAbsent_right ha hb, ha, hb]

end Sys2Proof.Machine
end

section
/-! PROOFS. Exact values and their rounding: powers of two, the logarithm's floor, multiples of 2^q and what each mode makes of a value between two of
them (spec/04 R92, R99). -/

namespace Sys2Proof.Machine

open Sys2Proof.Claims

/-! ### Ratios times powers of two -/

theorem two_zpow_pos (k : ℤ) : (0 : ℚ) < 2 ^ k := zpow_pos two_pos k

theorem two_zpow_add (j k : ℤ) : (2 : ℚ) ^ (j + k) = 2 ^ j * 2 ^ k := zpow_add₀ two_ne_zero j k

theorem two_zpow_sub_mul (j k : ℤ) : (2 : ℚ) ^ (j - k) * 2 ^ k = 2 ^ j := by rw [← two_zpow_add, sub_add_cancel]

theorem two_zpow_le {j k : ℤ} : (2 : ℚ) ^ j ≤ 2 ^ k ↔ j ≤ k := zpow_le_zpow_iff_right₀ one_lt_two

theorem two_zpow_lt {j k : ℤ} : (2 : ℚ) ^ j < 2 ^ k ↔ j < k := zpow_lt_zpow_iff_right₀ one_lt_two

theorem shiftDn_pos {d : Nat} (hd : 0 < d) (k : ℤ) : 0 < shiftDn d k := by
  unfold shiftDn
  split
  · positivity
  · exact hd

/-- The two factors of a shift hold the ratio times 2^k between them. -/
theorem shiftUp_div_shiftDn (n d : Nat) (k : ℤ) : (shiftUp n k : ℚ) / shiftDn d k = n / d * 2 ^ k := by
  rcases le_or_gt 0 k with h | h
  · lift k to ℕ using h
    simp [shiftUp, shiftDn, mul_div_right_comm]
  · obtain ⟨j, rfl⟩ : ∃ j : ℕ, k = -(j : ℤ) := ⟨k.natAbs, by omega⟩
    have hj : j ≠ 0 := by omega
    have hpos : 0 < j := by omega
    simp only [shiftUp, shiftDn, Left.nonneg_neg_iff, Nat.cast_nonpos, hj, Left.neg_neg_iff, Nat.cast_pos, hpos, if_false, if_true, neg_neg,
      Int.toNat_natCast, zpow_neg, zpow_natCast, Nat.cast_mul, Nat.cast_pow, Nat.cast_ofNat, div_eq_mul_inv, mul_inv, mul_assoc]

theorem shiftUp_cast {k : ℤ} (h : 0 ≤ k) (n : Nat) : (shiftUp n k : ℚ) = n * 2 ^ k := by
  lift k to ℕ using h
  simp [shiftUp]

/-! ### The floor of the logarithm -/

theorem natLog2_spec {n : Nat} (h : 0 < n) : (2 : ℚ) ^ (Nat.log2 n : ℤ) ≤ n ∧ (n : ℚ) < 2 ^ ((Nat.log2 n : ℤ) + 1) := by
  have hne : n ≠ 0 := h.ne'
  constructor
  · exact_mod_cast Nat.log2_self_le hne
  · exact_mod_cast Nat.lt_log2_self (n := n)

/-- `flog2 n d` is the floor of the logarithm of n / d. -/
theorem flog2_spec {n d : Nat} (hn : 0 < n) (hd : 0 < d) :
    (2 : ℚ) ^ flog2 n d ≤ n / d ∧ (n : ℚ) / d < 2 ^ (flog2 n d + 1) := by
  obtain ⟨nlo, nhi⟩ := natLog2_spec hn
  obtain ⟨dlo, dhi⟩ := natLog2_spec hd
  have hd' : (0 : ℚ) < d := by exact_mod_cast hd
  have hdn : (0 : ℚ) < shiftDn d (-((Nat.log2 n : ℤ) - Nat.log2 d)) := by exact_mod_cast shiftDn_pos hd _
  have hone : shiftDn d (-((Nat.log2 n : ℤ) - Nat.log2 d)) ≤ shiftUp n (-((Nat.log2 n : ℤ) - Nat.log2 d)) ↔
      (2 : ℚ) ^ ((Nat.log2 n : ℤ) - Nat.log2 d) ≤ n / d := by
    rw [← Nat.cast_le (α := ℚ), ← one_le_div hdn, shiftUp_div_shiftDn, zpow_neg, ← div_eq_mul_inv, one_le_div (two_zpow_pos _)]
  simp only [flog2]
  split_ifs with h
  · refine ⟨hone.mp h, ?_⟩
    calc (n : ℚ) / d < 2 ^ ((Nat.log2 n : ℤ) + 1) / 2 ^ (Nat.log2 d : ℤ) := by gcongr
      _ = 2 ^ ((Nat.log2 n : ℤ) - Nat.log2 d + 1) := by rw [← zpow_sub₀ two_ne_zero]; congr 1; ring
  · refine ⟨?_, ?_⟩
    · calc (2 : ℚ) ^ ((Nat.log2 n : ℤ) - Nat.log2 d - 1) = 2 ^ (Nat.log2 n : ℤ) / 2 ^ ((Nat.log2 d : ℤ) + 1) := by
            rw [← zpow_sub₀ two_ne_zero]; congr 1; ring
        _ ≤ n / d := by gcongr
    · rw [sub_add_cancel]
      exact not_le.mp (mt hone.mpr h)

/-- The exponent between whose powers a positive value lies. -/
theorem exponent_unique {x : ℚ} {j k : ℤ} (hj : (2 : ℚ) ^ j ≤ x) (hk : x < 2 ^ (k + 1)) : j ≤ k :=
  Int.lt_add_one_iff.mp (two_zpow_lt.mp (hj.trans_lt hk))

/-- A value lies below 2^(c+1) just where its logarithm's floor is at most c. -/
theorem flog2_le_iff {n d : Nat} (hn : 0 < n) (hd : 0 < d) (c : ℤ) : flog2 n d ≤ c ↔ (n : ℚ) / d < 2 ^ (c + 1) := by
  obtain ⟨lo, hi⟩ := flog2_spec hn hd
  exact ⟨fun h => hi.trans_le (two_zpow_le.mpr (by omega)), fun h => exponent_unique lo h⟩

/-! ### Rounding to a multiple (R99) -/

/-- Whether a mode takes the multiple above a value that lies `r` of `b` parts beyond its `k`-th multiple. -/
def goesUp (mode : RMode) (neg : Bool) (k r b : Nat) : Bool :=
  match mode with
  | .rne => 2 * r > b || (2 * r == b && k % 2 == 1)
  | .rz => false
  | .ru => !neg && r != 0
  | .rd => neg && r != 0

theorem roundAt_eq (mode : RMode) (neg : Bool) (n d : Nat) (e q : ℤ) :
    roundAt mode neg n d e q =
      let a := shiftUp n (e - q)
      let b := shiftDn d (e - q)
      (if goesUp mode neg (a / b) (a % b) b then a / b + 1 else a / b, a % b != 0) := rfl

theorem goesUp_inexact {mode : RMode} {neg : Bool} {k r b : Nat} (hb : 0 < b) (h : goesUp mode neg k r b = true) : r ≠ 0 := by
  cases mode <;> simp [goesUp] at h <;> omega

/-- What `roundAt` makes of the ratio a / b of its shifted operands, in whole numbers. -/
theorem roundAt_spec (mode : RMode) (neg : Bool) (n : Nat) {d : Nat} (hd : 0 < d) (e q : ℤ) :
    let a : ℤ := shiftUp n (e - q)
    let b : ℤ := shiftDn d (e - q)
    let k : ℤ := (roundAt mode neg n d e q).1
    ((roundAt mode neg n d e q).2 = false ↔ k * b = a) ∧
    (mode = .rne → 2 * |k * b - a| ≤ b ∧ (2 * |k * b - a| = b → k % 2 = 0)) ∧
    (mode = .rz ∨ (mode = .ru ∧ neg = true) ∨ (mode = .rd ∧ neg = false) → k * b ≤ a ∧ a < (k + 1) * b) ∧
    ((mode = .ru ∧ neg = false) ∨ (mode = .rd ∧ neg = true) → (k - 1) * b < a ∧ a ≤ k * b) := by
  have hb := shiftDn_pos hd (e - q)
  simp only [roundAt_eq]
  generalize shiftUp n (e - q) = a at *
  generalize shiftDn d (e - q) = b at *
  have hmod := Nat.mod_lt a hb
  have hdiv : ((a / b : Nat) : ℤ) * b = a - (a % b : Nat) := by
    rw [eq_sub_iff_add_eq, mul_comm]
    exact_mod_cast Nat.div_add_mod a b
  generalize a / b = k at *
  generalize a % b = r at *
  have hnext : ((k + 1 : Nat) : ℤ) * b = a - r + b := by push_cast; rw [add_mul, one_mul, hdiv]
  refine ⟨?_, ?_, fun hdown => ?_, fun hup => ?_⟩
  · split_ifs with h
    · have := goesUp_inexact hb h
      simp only [hnext, bne_eq_false_iff_eq]
      omega
    · rw [hdiv]; simp
  · rintro rfl
    split_ifs with h
    · have habs : |((k + 1 : Nat) : ℤ) * b - a| = b - r := by rw [hnext, abs_of_nonneg (by omega)]; ring
      simp only [goesUp, gt_iff_lt, Bool.or_eq_true, Bool.and_eq_true, decide_eq_true_eq, beq_iff_eq] at h
      rw [habs]
      omega
    · have habs : |(k : ℤ) * b - a| = r := by rw [hdiv, sub_sub_cancel_left, abs_neg, Nat.abs_cast]
      simp only [goesUp, gt_iff_lt, Bool.or_eq_true, Bool.and_eq_true, decide_eq_true_eq, beq_iff_eq] at h
      rw [habs]
      omega
  · have h : goesUp mode neg k r b = false := by rcases hdown with rfl | ⟨rfl, rfl⟩ | ⟨rfl, rfl⟩ <;> rfl
    simp only [h, Bool.false_eq_true, if_false, add_mul, one_mul, hdiv]
    omega
  · have h : goesUp mode neg k r b = (r != 0) := by rcases hup with ⟨rfl, rfl⟩ | ⟨rfl, rfl⟩ <;> rfl
    by_cases hr : r = 0
    · rw [h, if_neg (by simpa using hr), sub_mul, one_mul, hdiv]
      omega
    · rw [h, if_pos (by simpa using hr), sub_mul, one_mul, hnext]
      omega

/-- The factor of a sign (R90). -/
def sgn (neg : Bool) : ℤ := if neg then -1 else 1

theorem abs_sgn (neg : Bool) : |(sgn neg : ℚ)| = 1 := by cases neg <;> simp [sgn]

theorem sgn_ne_zero (neg : Bool) : (sgn neg : ℚ) ≠ 0 := by cases neg <;> simp [sgn]

/-- `roundAt` is exact just where the value is a multiple of 2^q (R99). -/
theorem roundAt_exact (mode : RMode) (neg : Bool) (n : Nat) {d : Nat} (hd : 0 < d) (e q : ℤ) :
    (roundAt mode neg n d e q).2 = false ↔ ((roundAt mode neg n d e q).1 : ℚ) = n / d * 2 ^ (e - q) := by
  have hb : (0 : ℚ) < shiftDn d (e - q) := by exact_mod_cast shiftDn_pos hd _
  rw [(roundAt_spec mode neg n hd e q).1, ← shiftUp_div_shiftDn, eq_div_iff hb.ne']
  norm_cast

/-- `roundAt` rounds the signed value to a whole number of 2^q in its mode (R99). -/
theorem isRounding_roundAt (mode : RMode) (neg : Bool) (n : Nat) {d : Nat} (hd : 0 < d) (e q : ℤ) :
    isRounding mode (sgn neg * (n / d * 2 ^ (e - q))) (sgn neg * (roundAt mode neg n d e q).1) := by
  obtain ⟨-, nearest, down, up⟩ := roundAt_spec mode neg n hd e q
  have hb : (0 : ℚ) < shiftDn d (e - q) := by exact_mod_cast shiftDn_pos hd _
  rw [← shiftUp_div_shiftDn]
  generalize shiftUp n (e - q) = a at *
  generalize shiftDn d (e - q) = b at *
  generalize (roundAt mode neg n d e q).1 = k at *
  have hy : (0 : ℚ) ≤ a / b := by positivity
  have hk : (0 : ℚ) ≤ k := by positivity
  have hdist : |(a : ℚ) / b - k| = (|(k : ℤ) * b - a| : ℤ) / b := by
    rw [div_sub' hb.ne', abs_div, abs_of_pos hb, abs_sub_comm, mul_comm (b : ℚ)]
    push_cast
    rfl
  have below (h : (k : ℤ) * b ≤ a ∧ (a : ℤ) < (k + 1) * b) : (k : ℚ) ≤ a / b ∧ (a : ℚ) / b < k + 1 := by
    rw [le_div_iff₀ hb, div_lt_iff₀ hb]
    exact_mod_cast h
  have above (h : ((k : ℤ) - 1) * b < a ∧ (a : ℤ) ≤ k * b) : (k : ℚ) - 1 < a / b ∧ (a : ℚ) / b ≤ k := by
    rw [lt_div_iff₀ hb, div_le_iff₀ hb]
    exact_mod_cast h
  cases mode with
  | rne =>
    obtain ⟨half, even⟩ := nearest rfl
    have hsgn : |(sgn neg : ℚ) * (a / b) - (sgn neg * k : ℤ)| = (|(k : ℤ) * b - a| : ℤ) / b := by
      rw [← hdist, Int.cast_mul, ← mul_sub, abs_mul, abs_sgn, one_mul, Int.cast_natCast]
    rw [isRounding, hsgn, ← mul_div_assoc, div_le_one hb, div_eq_one_iff_eq hb.ne']
    refine ⟨by exact_mod_cast half, fun h => ?_⟩
    have := even (by exact_mod_cast h)
    unfold sgn
    split <;> omega
  | rz =>
    obtain ⟨h1, h2⟩ := below (down (.inl rfl))
    simp only [isRounding, Int.cast_mul, abs_mul, abs_sgn, one_mul, Int.cast_natCast, abs_of_nonneg hy, abs_of_nonneg hk]
    refine ⟨h1, h2, ?_⟩
    cases neg <;> simp [sgn] <;> positivity
  | ru =>
    cases neg with
    | false => simpa [isRounding, sgn] using above (up (.inl ⟨rfl, rfl⟩))
    | true =>
      obtain ⟨h1, h2⟩ := below (down (.inr (.inl ⟨rfl, rfl⟩)))
      simp only [isRounding, sgn, if_true]
      push_cast
      constructor <;> linarith
  | rd =>
    cases neg with
    | false => simpa [isRounding, sgn] using below (down (.inr (.inr ⟨rfl, rfl⟩)))
    | true =>
      obtain ⟨h1, h2⟩ := above (up (.inr ⟨rfl, rfl⟩))
      simp only [isRounding, sgn, if_true]
      push_cast
      constructor <;> linarith

end Sys2Proof.Machine
end

section
/-! PROOFS. The float formats: what a pattern stands for by its sign and magnitude, and the order of the magnitudes (spec/04 R90, R94). -/

namespace Sys2Proof.Machine

open Sys2Proof.Claims

/-! ### The five formats (R90) -/

/-- The formats of f32, f16, bf16, e4m3 and e5m2. -/
def formats : List FFmt := [⟨8, 23, 127, true⟩, ⟨5, 10, 15, true⟩, ⟨8, 7, 127, true⟩, ⟨4, 3, 7, false⟩, ⟨5, 2, 15, true⟩]

theorem ffmt_mem (t : Ty) : ffmt t ∈ formats := by cases t <;> simp [ffmt, formats]

theorem formats_fields : ∀ f ∈ formats, 2 ≤ f.mb ∧ 2 ≤ f.eb ∧ f.bias = 2 ^ (f.eb - 1) - 1 := by decide

theorem ffmt_mb_pos (t : Ty) : 0 < (ffmt t).mb := Nat.zero_lt_of_lt (formats_fields _ (ffmt_mem t)).1

theorem ffmt_eb_pos (t : Ty) : 0 < (ffmt t).eb := Nat.zero_lt_of_lt (formats_fields _ (ffmt_mem t)).2.1

theorem tyWidth_flt {t : Ty} (h : tyKind t = .flt) : tyWidth t = (ffmt t).eb + (ffmt t).mb + 1 := by
  revert h
  cases t <;> simp [tyKind, tyWidth, ffmt]

/-! ### Sign and magnitude -/

variable (f : FFmt)

/-- The significand and the exponent of a magnitude code, as those of a number. -/
def FFmt.mant (c : Nat) : Nat := if c / 2 ^ f.mb = 0 then c % 2 ^ f.mb else 2 ^ f.mb + c % 2 ^ f.mb
def FFmt.expo (c : Nat) : ℤ := f.qmin + (c / 2 ^ f.mb - 1 : Nat)

/-- What a sign and a magnitude code stand for (R90, R94). -/
def FFmt.parts (neg : Bool) (mag : Nat) : FVal :=
  if neg = true ∧ mag = 2 ^ (f.eb + f.mb) - 1 then .absent
  else if f.hasInf ∧ mag / 2 ^ f.mb = 2 ^ f.eb - 1 then
    (if mag % 2 ^ f.mb = 0 then .inf neg else .nan (! natBit (mag % 2 ^ f.mb) (f.mb - 1)))
  else if ¬ f.hasInf ∧ mag = 2 ^ (f.eb + f.mb) - 1 then .nan false
  else .fin neg (f.mant mag) (f.expo mag)

theorem natBit_iff {v i : Nat} : natBit v i = true ↔ v / 2 ^ i % 2 = 1 := decide_eq_true_iff

/-- A number's bits up to `n` are all ones just where bit `n` and all below it are. -/
theorem mod_succ_ones_iff (x n : Nat) : x % 2 ^ (n + 1) = 2 ^ (n + 1) - 1 ↔ natBit x n = true ∧ x % 2 ^ n = 2 ^ n - 1 := by
  have hpos := Nat.two_pow_pos n
  have hlt := Nat.mod_lt x hpos
  rw [natBit_iff, Nat.mod_pow_succ, pow_succ]
  rcases Nat.mod_two_eq_zero_or_one (x / 2 ^ n) with h | h <;> rw [h] <;> omega

theorem fval_eq_parts (t : Ty) (x : Nat) :
    fval t x = (ffmt t).parts (natBit x ((ffmt t).eb + (ffmt t).mb)) (x % 2 ^ ((ffmt t).eb + (ffmt t).mb)) := by
  unfold fval FFmt.parts
  simp only [mod_succ_ones_iff]
  congr 3
  split_ifs with h
  · simp [FFmt.mant, FFmt.expo, h]
  · simp [FFmt.mant, FFmt.expo, h]

section sign
variable {f} {c : Nat} (hc : c < 2 ^ (f.eb + f.mb)) (neg : Bool)
include hc

theorem natBit_sign_add : natBit (f.sign neg + c) (f.eb + f.mb) = neg := by
  have hpos := Nat.two_pow_pos (f.eb + f.mb)
  cases neg
  · simp [natBit, FFmt.sign, Nat.div_eq_of_lt hc]
  · simp [natBit, FFmt.sign, Nat.add_div_left _ hpos, Nat.div_eq_of_lt hc]

theorem sign_add_mod : (f.sign neg + c) % 2 ^ (f.eb + f.mb) = c := by
  cases neg <;> simp [FFmt.sign, Nat.mod_eq_of_lt hc]

theorem sign_add_lt : f.sign neg + c < 2 ^ (f.eb + f.mb + 1) := by
  rw [pow_succ]
  cases neg <;> simp only [FFmt.sign, Bool.false_eq_true, if_false, if_true] <;> omega

end sign

theorem fval_sign_add {t : Ty} {c : Nat} (hc : c < 2 ^ ((ffmt t).eb + (ffmt t).mb)) (neg : Bool) :
    fval t ((ffmt t).sign neg + c) = (ffmt t).parts neg c := by
  rw [fval_eq_parts, natBit_sign_add hc, sign_add_mod hc]

/-- A pattern of the format's width is its sign and its magnitude. -/
theorem eq_sign_add {x : Nat} (hx : x < 2 ^ (f.eb + f.mb + 1)) : x = f.sign (natBit x (f.eb + f.mb)) + x % 2 ^ (f.eb + f.mb) := by
  have hsplit : x % 2 ^ (f.eb + f.mb) + 2 ^ (f.eb + f.mb) * (x / 2 ^ (f.eb + f.mb) % 2) = x := by
    rw [← Nat.mod_pow_succ, Nat.mod_eq_of_lt hx]
  rcases Nat.mod_two_eq_zero_or_one (x / 2 ^ (f.eb + f.mb)) with h | h <;> simp only [natBit, FFmt.sign, h] at hsplit ⊢ <;> simp <;> omega

theorem maxCode_lt : f.maxCode < 2 ^ (f.eb + f.mb) := by
  have h1 : 2 ^ (f.eb + f.mb) = 2 ^ f.eb * 2 ^ f.mb := pow_add ..
  have h2 := Nat.two_pow_pos f.mb
  have h3 := Nat.two_pow_pos f.eb
  have h4 : (2 ^ f.eb - 1) * 2 ^ f.mb ≤ 2 ^ f.eb * 2 ^ f.mb := Nat.mul_le_mul_right _ (Nat.sub_le ..)
  have h5 : 0 < 2 ^ f.eb * 2 ^ f.mb := by positivity
  unfold FFmt.maxCode
  split <;> omega

theorem infCode_lt : f.infCode < 2 ^ (f.eb + f.mb) := by
  rw [FFmt.infCode, pow_add]
  exact Nat.mul_lt_mul_of_pos_right (Nat.sub_lt (Nat.two_pow_pos _) one_pos) (Nat.two_pow_pos _)

/-- With infinities, the codes up to the greatest finite one are those whose exponent field is not all ones. -/
theorem le_maxCode_iff (h : f.hasInf = true) (he : 0 < f.eb) (c : Nat) : c ≤ f.maxCode ↔ c / 2 ^ f.mb < 2 ^ f.eb - 1 := by
  have h2 : 2 ^ 1 ≤ 2 ^ f.eb := Nat.pow_le_pow_right two_pos he
  have hpos : 0 < (2 ^ f.eb - 1) * 2 ^ f.mb := Nat.mul_pos (by omega) (Nat.two_pow_pos _)
  rw [Nat.div_lt_iff_lt_mul (Nat.two_pow_pos _), FFmt.maxCode, if_pos h]
  omega

theorem parts_fin {c : Nat} (he : 0 < f.eb) (hc : c ≤ f.maxCode) (neg : Bool) : f.parts neg c = .fin neg (f.mant c) (f.expo c) := by
  have hlt := maxCode_lt f
  unfold FFmt.parts
  cases hinf : f.hasInf
  · have hne : c ≠ 2 ^ (f.eb + f.mb) - 1 := by
      simp only [FFmt.maxCode, hinf, Bool.false_eq_true, if_false] at hc
      have : 2 ^ 1 ≤ 2 ^ (f.eb + f.mb) := Nat.pow_le_pow_right two_pos (by omega)
      omega
    simp [hne]
  · have hdiv := (le_maxCode_iff f hinf he c).mp hc
    have hne : c ≠ 2 ^ (f.eb + f.mb) - 1 := by
      rintro rfl
      have : (2 ^ f.eb - 1) * 2 ^ f.mb ≤ 2 ^ (f.eb + f.mb) - 1 := by
        have := infCode_lt f
        unfold FFmt.infCode at this
        omega
      exact absurd ((Nat.le_div_iff_mul_le (Nat.two_pow_pos _)).mpr this) (by omega)
    simp [hne, hdiv.ne]

theorem parts_isFin {c : Nat} (he : 0 < f.eb) (hc : c < 2 ^ (f.eb + f.mb)) {neg : Bool} (h : isFin (f.parts neg c) = true) : c ≤ f.maxCode := by
  unfold FFmt.parts at h
  cases hinf : f.hasInf
  · rw [FFmt.maxCode, hinf, if_neg (by decide)]
    by_contra hgt
    have hones : c = 2 ^ (f.eb + f.mb) - 1 := by omega
    cases neg <;> simp [hones, hinf, isFin] at h
  · rw [le_maxCode_iff f hinf he]
    have hle : c / 2 ^ f.mb < 2 ^ f.eb := by rwa [Nat.div_lt_iff_lt_mul (Nat.two_pow_pos _), ← pow_add]
    by_contra hge
    have hones : c / 2 ^ f.mb = 2 ^ f.eb - 1 := by omega
    simp only [hinf, hones, and_self, if_true] at h
    split_ifs at h <;> simp [isFin] at h

theorem parts_inf (h : f.hasInf = true) (hm : 0 < f.mb) (neg : Bool) : f.parts neg f.infCode = .inf neg := by
  have hlt := infCode_lt f
  have hdiv : f.infCode / 2 ^ f.mb = 2 ^ f.eb - 1 := Nat.mul_div_cancel _ (Nat.two_pow_pos _)
  have hmod : f.infCode % 2 ^ f.mb = 0 := Nat.mul_mod_left ..
  have hne : f.infCode ≠ 2 ^ (f.eb + f.mb) - 1 := by
    intro heq
    have hodd : (2 ^ (f.eb + f.mb) - 1) % 2 = 0 := by
      rw [← heq, ← Nat.dvd_iff_mod_eq_zero]
      exact Dvd.dvd.mul_left (dvd_pow_self 2 hm.ne') _
    have heven : 2 ^ (f.eb + f.mb) = 2 * 2 ^ (f.eb + f.mb - 1) := two_pow_pred (by omega)
    have hpos := Nat.two_pow_pos (f.eb + f.mb - 1)
    omega
  simp [FFmt.parts, h, hdiv, hmod, hne]

/-! ### The value of a magnitude -/

/-- The number that a magnitude code stands for. -/
def FFmt.codeVal (c : Nat) : ℚ := f.mant c * 2 ^ f.expo c

theorem numOf_fin (neg : Bool) (m : Nat) (e : ℤ) : numOf (.fin neg m e) = sgn neg * (m * 2 ^ e) := by
  cases neg <;> simp [numOf, sgn]

theorem numOf_parts {c : Nat} (he : 0 < f.eb) (hc : c ≤ f.maxCode) (neg : Bool) : numOf (f.parts neg c) = sgn neg * f.codeVal c := by
  rw [parts_fin f he hc, numOf_fin, FFmt.codeVal]

/-- The code of `k` steps of 2^(qmin + s), up to twice the significands of a binade. -/
theorem codeVal_add {k s : Nat} (hk : k ≤ 2 ^ (f.mb + 1)) (hs : s = 0 ∨ 2 ^ f.mb ≤ k) : f.codeVal (k + s * 2 ^ f.mb) = k * 2 ^ (f.qmin + s) := by
  have hpos := Nat.two_pow_pos f.mb
  rw [pow_succ] at hk
  unfold FFmt.codeVal FFmt.mant FFmt.expo
  rw [Nat.add_mul_div_right _ _ hpos, Nat.add_mul_mod_self_right]
  rcases lt_or_ge k (2 ^ f.mb) with hlt | hge
  · obtain rfl : s = 0 := hs.resolve_right (by omega)
    simp [Nat.div_eq_of_lt hlt, Nat.mod_eq_of_lt hlt]
  · rcases hk.lt_or_eq with hlt | rfl
    · have hdiv : k / 2 ^ f.mb = 1 := Nat.div_eq_of_lt_le (by omega) (by omega)
      have hmod : 2 ^ f.mb + k % 2 ^ f.mb = k := by rw [Nat.mod_eq_sub_mod hge, Nat.mod_eq_of_lt (by omega)]; omega
      rw [hdiv, if_neg (by omega), hmod, Nat.add_sub_cancel_left]
    · rw [Nat.mul_div_cancel_left _ hpos, Nat.mul_mod_right, if_neg (by omega), Nat.add_zero]
      have hexp : f.qmin + ((2 + s - 1 : Nat) : ℤ) = 1 + (f.qmin + s) := by omega
      rw [hexp, two_zpow_add]
      push_cast
      ring

theorem codeVal_strictMono : StrictMono f.codeVal := by
  refine strictMono_nat_of_lt_succ (fun c => ?_)
  have hpos := Nat.two_pow_pos f.mb
  have hdiv := Nat.div_add_mod c (2 ^ f.mb)
  have hmod := Nat.mod_lt c hpos
  obtain ⟨k, s, rfl, hk, hs⟩ : ∃ k s, c = k + s * 2 ^ f.mb ∧ k + 1 ≤ 2 ^ (f.mb + 1) ∧ (s = 0 ∨ 2 ^ f.mb ≤ k) := by
    rw [mul_comm] at hdiv
    rcases Nat.eq_zero_or_pos (c / 2 ^ f.mb) with h | h
    · exact ⟨c, 0, by simp, by rw [h] at hdiv; rw [pow_succ]; omega, .inl rfl⟩
    · obtain ⟨s, hs⟩ := Nat.exists_eq_succ_of_ne_zero h.ne'
      rw [hs, Nat.succ_mul] at hdiv
      exact ⟨2 ^ f.mb + c % 2 ^ f.mb, s, by omega, by rw [pow_succ]; omega, .inr (by omega)⟩
  rw [codeVal_add f (by omega) hs, show k + s * 2 ^ f.mb + 1 = (k + 1) + s * 2 ^ f.mb by ring, codeVal_add f hk (by omega)]
  have := two_zpow_pos (f.qmin + s)
  push_cast
  nlinarith

theorem codeVal_nonneg (c : Nat) : 0 ≤ f.codeVal c := mul_nonneg (Nat.cast_nonneg _) (two_zpow_pos _).le

end Sys2Proof.Machine
end

section
/-! PROOFS. Exact results and the one place where they are rounded to a float format or to an integer type (spec/04 R92, R99 to R103). -/

namespace Sys2Proof.Machine

open Sys2Proof.Claims

/-! ### A rounded value lies next to the exact one -/

theorem isRounding_near {mode : RMode} {x : ℚ} {k : ℤ} (h : isRounding mode x k) : |x - k| < 1 := by
  cases mode with
  | rne => obtain ⟨h, -⟩ := h; linarith
  | rz =>
    obtain ⟨lo, hi, same⟩ := h
    have hsq : (x - k) ^ 2 = (|x| - |(k : ℚ)|) ^ 2 := by
      rw [sub_sq, sub_sq, sq_abs, sq_abs, mul_assoc, mul_assoc, ← abs_mul, abs_of_nonneg (by rwa [mul_comm])]
    rw [← sq_lt_one_iff_abs_lt_one, hsq, sq_lt_one_iff_abs_lt_one, abs_lt]
    constructor <;> linarith
  | ru => obtain ⟨h1, h2⟩ := h; rw [abs_lt]; constructor <;> linarith
  | rd => obtain ⟨h1, h2⟩ := h; rw [abs_lt]; constructor <;> linarith

theorem roundAt_near (mode : RMode) (neg : Bool) (n : Nat) {d : Nat} (hd : 0 < d) (e q : ℤ) :
    |(n : ℚ) / d * 2 ^ (e - q) - (roundAt mode neg n d e q).1| < 1 := by
  have h := isRounding_near (isRounding_roundAt mode neg n hd e q)
  rwa [Int.cast_mul, ← mul_sub, abs_mul, abs_sgn, one_mul, Int.cast_natCast] at h

/-- A whole number that the value does not exceed is not exceeded by what it is rounded to. -/
theorem isRounding_le {mode : RMode} {x : ℚ} {k N : ℤ} (h : isRounding mode x k) (hx : x ≤ N) : k ≤ N := by
  have hnear := abs_lt.mp (isRounding_near h)
  have : (k : ℚ) < N + 1 := by linarith
  exact Int.lt_add_one_iff.mp (by exact_mod_cast this)

theorem le_isRounding {mode : RMode} {x : ℚ} {k N : ℤ} (h : isRounding mode x k) (hx : (N : ℚ) ≤ x) : N ≤ k := by
  have hnear := abs_lt.mp (isRounding_near h)
  have : (N : ℚ) < k + 1 := by linarith
  exact Int.lt_add_one_iff.mp (by exact_mod_cast this)

/-- A whole number is rounded to itself. -/
theorem isRounding_self (mode : RMode) (k : ℤ) : isRounding mode k k := by
  cases mode <;> simp [isRounding, mul_self_nonneg]

/-! ### Exact results -/

/-- The exact result `x` is the number `v`, and a zero has the sign `zero`. -/
def Ex.Stands (x : Ex) (v : ℚ) (zero : Bool) : Prop :=
  match x with
  | .zero neg => v = 0 ∧ neg = zero
  | .num neg n d e => 0 < n ∧ 0 < d ∧ v = sgn neg * (n / d * 2 ^ e)
  | _ => False

theorem toEx_stands {v : FVal} (h : isFin v = true) : v.toEx.Stands (numOf v) (negOf v) := by
  cases v with
  | fin neg m e =>
    rw [numOf_fin]
    rcases Nat.eq_zero_or_pos m with rfl | hm
    · simp [FVal.toEx, Ex.Stands, negOf]
    · simp [FVal.toEx, Ex.Stands, hm.ne', hm]
  | _ => simp [isFin] at h

theorem eq_sgn_mul_natAbs (x : ℤ) : x = sgn (decide (x < 0)) * (x.natAbs : ℤ) := by
  rcases lt_or_ge x 0 with h | h
  · rw [decide_eq_true h, sgn, if_pos rfl]; omega
  · rw [decide_eq_false (not_lt.mpr h), sgn, if_neg (by decide)]; omega

theorem exOfInt_stands (x : ℤ) : (exOfInt x).Stands x false := by
  rcases eq_or_ne x 0 with rfl | hx
  · simp [exOfInt, Ex.Stands]
  · rw [exOfInt, if_neg hx]
    refine ⟨Int.natAbs_pos.mpr hx, one_pos, ?_⟩
    rw [Nat.cast_one, div_one, zpow_zero, mul_one, ← Int.cast_natCast x.natAbs, ← Int.cast_mul, ← eq_sgn_mul_natAbs]

/-! ### Rounding to a float format (R92, R99, R100) -/

section rounding
variable (f : FFmt) (mode : RMode) (neg : Bool) (n d : Nat) (e : ℤ)

/-- The exponent of a ratio times 2^e, and of the step to whose multiple it is rounded. -/
def Ex.lead : ℤ := flog2 n d + e
def FFmt.step : ℤ := max (Ex.lead n d e - f.mb) f.qmin

/-- The multiple of the step, and the magnitude code that it makes. -/
def FFmt.count : Nat := (roundAt mode neg n d e (f.step n d e)).1
def FFmt.code : Nat := f.count mode neg n d e + (f.step n d e - f.qmin).toNat * 2 ^ f.mb

theorem roundF_num (sat : Bool) :
    roundF f mode sat (.num neg n d e) =
      if f.maxCode < f.code mode neg n d e then (overflowCode f mode neg sat, OF ||| NX)
      else (f.sign neg + f.code mode neg n d e,
        flagIf (roundAt mode neg n d e (f.step n d e)).2 NX |||
          flagIf ((roundAt mode neg n d e (f.step n d e)).2 && tinyAfter f mode neg n d e) UF) := rfl

variable {n d} (hn : 0 < n) (hd : 0 < d)
include hn hd

theorem lead_spec : (2 : ℚ) ^ Ex.lead n d e ≤ n / d * 2 ^ e ∧ (n : ℚ) / d * 2 ^ e < 2 ^ (Ex.lead n d e + 1) := by
  obtain ⟨lo, hi⟩ := flog2_spec hn hd
  have hpos := two_zpow_pos e
  rw [Ex.lead, add_right_comm, two_zpow_add, two_zpow_add]
  exact ⟨by gcongr, by gcongr⟩

/-- The rounded multiple at a step that is no more than 2^p below the leading bit. -/
theorem count_le {q : ℤ} {p : Nat} (h : Ex.lead n d e ≤ q + p) : (roundAt mode neg n d e q).1 ≤ 2 ^ (p + 1) := by
  have hnear := abs_lt.mp (roundAt_near mode neg n hd e q)
  have hy : (n : ℚ) / d * 2 ^ (e - q) < 2 ^ (p + 1) := by
    rw [zpow_sub₀ two_ne_zero, ← mul_div_assoc, div_lt_iff₀ (two_zpow_pos q), ← zpow_natCast, ← two_zpow_add]
    exact (lead_spec e hn hd).2.trans_le (two_zpow_le.mpr (by push_cast; omega))
  have hk : ((roundAt mode neg n d e q).1 : ℚ) < (2 ^ (p + 1) + 1 : Nat) := by push_cast; linarith
  exact Nat.lt_succ_iff.mp (by exact_mod_cast hk)

theorem le_count {q : ℤ} {p : Nat} (h : q + p ≤ Ex.lead n d e) : 2 ^ p ≤ (roundAt mode neg n d e q).1 := by
  have hnear := abs_lt.mp (roundAt_near mode neg n hd e q)
  have hy : (2 : ℚ) ^ p ≤ n / d * 2 ^ (e - q) := by
    rw [zpow_sub₀ two_ne_zero, ← mul_div_assoc, le_div_iff₀ (two_zpow_pos q), ← zpow_natCast, ← two_zpow_add]
    exact (two_zpow_le.mpr (by omega)).trans (lead_spec e hn hd).1
  have hk : ((2 ^ p : Nat) : ℚ) < ((roundAt mode neg n d e q).1 + 1 : Nat) := by push_cast; linarith
  exact Nat.lt_succ_iff.mp (by exact_mod_cast hk)

/-- The code stands for the rounded multiple. -/
theorem codeVal_code : f.codeVal (f.code mode neg n d e) = f.count mode neg n d e * 2 ^ f.step n d e := by
  have hle : f.qmin ≤ f.step n d e := le_max_right ..
  have hexp : f.qmin + ((f.step n d e - f.qmin).toNat : ℤ) = f.step n d e := by omega
  rw [FFmt.code, codeVal_add, hexp]
  · exact count_le mode neg e hn hd (by unfold FFmt.step; omega)
  · rcases eq_or_ne (f.step n d e) f.qmin with h | h
    · exact .inl (by omega)
    · exact .inr (le_count mode neg e hn hd (by unfold FFmt.step at h ⊢; omega))

/-- Tiny: rounded to the precision of the format alone, the value lies below the least normal number (R92). -/
theorem tinyAfter_iff : tinyAfter f mode neg n d e = true ↔
    ((roundAt mode neg n d e (Ex.lead n d e - f.mb)).1 : ℚ) * 2 ^ (Ex.lead n d e - (f.mb : ℤ)) < 2 ^ (1 - (f.bias : ℤ)) := by
  have hpos : 0 < (roundAt mode neg n d e (Ex.lead n d e - f.mb)).1 :=
    lt_of_lt_of_le (Nat.two_pow_pos f.mb) (le_count mode neg e hn hd (by omega))
  have heq : tinyAfter f mode neg n d e =
      decide (flog2 (max (roundAt mode neg n d e (Ex.lead n d e - f.mb)).1 1) 1 + (Ex.lead n d e - f.mb) < 1 - (f.bias : ℤ)) := rfl
  rw [heq, decide_eq_true_iff, max_eq_left (Nat.succ_le_of_lt hpos)]
  generalize (roundAt mode neg n d e (Ex.lead n d e - f.mb)).1 = k at *
  generalize Ex.lead n d e - f.mb = q
  have hle := flog2_le_iff hpos one_pos (-(f.bias : ℤ) - q)
  have hexp : -(f.bias : ℤ) - q + 1 = 1 - (f.bias : ℤ) - q := by ring
  rw [Nat.cast_one, div_one, hexp] at hle
  rw [← lt_div_iff₀ (two_zpow_pos q), ← zpow_sub₀ two_ne_zero, ← hle]
  omega

end rounding

/-! ### What the rounded codes stand for -/

section codes
variable {t : Ty} (neg : Bool)

theorem fval_code {c : Nat} (hc : c ≤ (ffmt t).maxCode) : fval t ((ffmt t).sign neg + c) = .fin neg ((ffmt t).mant c) ((ffmt t).expo c) := by
  rw [fval_sign_add (hc.trans_lt (maxCode_lt _)), parts_fin _ (ffmt_eb_pos t) hc]

theorem numOf_code {c : Nat} (hc : c ≤ (ffmt t).maxCode) : numOf (fval t ((ffmt t).sign neg + c)) = sgn neg * (ffmt t).codeVal c := by
  rw [fval_code neg hc, numOf_fin, FFmt.codeVal]

theorem fval_infCode (h : (ffmt t).hasInf = true) : fval t ((ffmt t).sign neg + (ffmt t).infCode) = .inf neg := by
  rw [fval_sign_add (infCode_lt _), parts_inf _ h (ffmt_mb_pos t)]

/-- The largest number of a float type (R90). -/
theorem numOf_maxCode (t : Ty) : numOf (fval t (ffmt t).maxCode) = (ffmt t).codeVal (ffmt t).maxCode := by
  simpa [FFmt.sign, sgn] using numOf_code (t := t) false le_rfl

end codes

/-- Whether a number beyond the largest one becomes an infinity (R100). -/
def toInf (mode : RMode) (neg : Bool) : Bool :=
  match mode with
  | .rne => true
  | .rz => false
  | .ru => !neg
  | .rd => neg

theorem overflowCode_eq (f : FFmt) (mode : RMode) (neg sat : Bool) :
    overflowCode f mode neg sat = f.sign neg + if f.hasInf = true ∧ sat = false ∧ toInf mode neg = true then f.infCode else f.maxCode := by
  have h : overflowCode f mode neg sat = f.sign neg + if f.hasInf && !sat && toInf mode neg then f.infCode else f.maxCode := rfl
  simp only [h, Bool.and_eq_true, Bool.not_eq_true', and_assoc]

theorem abs_sgn_mul (neg : Bool) (c : Nat) (q : ℤ) : |((sgn neg * c : ℤ) : ℚ) * 2 ^ q| = c * 2 ^ q := by
  rw [Int.cast_mul, mul_assoc, abs_mul, abs_sgn, one_mul, Int.cast_natCast, abs_of_nonneg]
  have := two_zpow_pos q
  positivity

theorem fval_overflowCode {t : Ty} (mode : RMode) (neg sat : Bool) :
    ((ffmt t).hasInf = true ∧ sat = false ∧ toInf mode neg = true → fval t (overflowCode (ffmt t) mode neg sat) = .inf neg) ∧
    (¬ ((ffmt t).hasInf = true ∧ sat = false ∧ toInf mode neg = true) →
      numOf (fval t (overflowCode (ffmt t) mode neg sat)) = sgn neg * (ffmt t).codeVal (ffmt t).maxCode) := by
  rw [overflowCode_eq]
  exact ⟨fun h => by rw [if_pos h, fval_infCode neg h.1], fun h => by rw [if_neg h, numOf_code neg le_rfl]⟩

/-- The flags of a result that does not overflow (R92). -/
theorem roundFlags_eq (inexact tiny : Bool) :
    flagIf inexact NX ||| flagIf (inexact && tiny) UF = if inexact = false then 0 else if tiny = true then NX ||| UF else NX := by
  cases inexact <;> cases tiny <;> rfl

section once
variable {t : Ty} (ht : tyKind t = .flt) (mode : RMode) (sat neg : Bool) {n d : Nat} (e : ℤ) (hn : 0 < n) (hd : 0 < d)
include ht hn hd

omit hn hd in
theorem roundF_lt : (roundF (ffmt t) mode sat (.num neg n d e)).1 < 2 ^ tyWidth t := by
  rw [roundF_num, tyWidth_flt ht, overflowCode_eq]
  split_ifs with h1
  all_goals refine sign_add_lt ?_ neg
  · exact infCode_lt _
  · exact maxCode_lt _
  · exact (not_lt.mp h1).trans_lt (maxCode_lt _)

omit ht in
/-- A result in range is inexact where rounding changed the value, and then raises underflow where it is tiny too (R92). -/
theorem roundFlags_spec (f : FFmt) {x : ℚ} (hx : x = sgn neg * (n / d * 2 ^ e)) :
    (flagIf (roundAt mode neg n d e (f.step n d e)).2 NX |||
      flagIf ((roundAt mode neg n d e (f.step n d e)).2 && tinyAfter f mode neg n d e) UF : Flags) =
    if ((sgn neg * (f.count mode neg n d e : ℕ) : ℤ) : ℚ) * 2 ^ f.step n d e = x then 0
    else if |((sgn neg * ((roundAt mode neg n d e (Ex.lead n d e - f.mb)).1 : ℕ) : ℤ) : ℚ) * 2 ^ (Ex.lead n d e - (f.mb : ℤ))| <
      2 ^ (1 - (f.bias : ℤ)) then NX ||| UF
    else NX := by
  rw [roundFlags_eq, abs_sgn_mul]
  refine if_congr ?_ rfl (if_congr (tinyAfter_iff f mode neg e hn hd) rfl rfl)
  rw [roundAt_exact mode neg n hd, zpow_sub₀ two_ne_zero, ← mul_div_assoc, eq_div_iff (two_zpow_pos _).ne', hx, Int.cast_mul, mul_assoc,
    mul_right_inj' (sgn_ne_zero neg)]
  rfl

/-- A number other than 0, rounded once (R92, R99, R100). -/
theorem roundsTo_roundF {x : ℚ} (hx : x = sgn neg * (n / d * 2 ^ e)) : roundsTo t mode sat x (roundF (ffmt t) mode sat (.num neg n d e)) := by
  obtain ⟨lo, hi⟩ := lead_spec e hn hd
  have hpos : (0 : ℚ) < n / d * 2 ^ e := by have := two_zpow_pos e; positivity
  have habs : |x| = n / d * 2 ^ e := by rw [hx, abs_mul, abs_sgn, one_mul, abs_of_pos hpos]
  have hneg : decide (x < 0) = neg := by cases neg <;> simp [hx, sgn, hpos, hpos.le]
  have hquot (q : ℤ) : x / 2 ^ q = sgn neg * (n / d * 2 ^ (e - q)) := by rw [hx, zpow_sub₀ two_ne_zero]; ring
  have hround (q : ℤ) : isRounding mode (x / 2 ^ q) (sgn neg * (roundAt mode neg n d e q).1) := hquot q ▸ isRounding_roundAt mode neg n hd e q
  have hv : |((sgn neg * (FFmt.count (ffmt t) mode neg n d e : ℕ) : ℤ) : ℚ) * 2 ^ (ffmt t).step n d e| =
      (ffmt t).codeVal ((ffmt t).code mode neg n d e) :=
    (abs_sgn_mul ..).trans (codeVal_code (ffmt t) mode neg e hn hd).symm
  refine ⟨roundF_lt ht mode sat neg e, Ex.lead n d e, sgn neg * (ffmt t).count mode neg n d e,
    sgn neg * (roundAt mode neg n d e (Ex.lead n d e - (ffmt t).mb)).1, habs ▸ lo, habs ▸ hi, hround _, hround _, fun hle => ?_, fun hgt => ?_⟩
  · have hc : (ffmt t).code mode neg n d e ≤ (ffmt t).maxCode := by
      rwa [← (codeVal_strictMono _).le_iff_le, ← hv, ← numOf_maxCode]
    rw [roundF_num, if_neg (not_lt.mpr hc), numOf_code neg hc, codeVal_code _ mode neg e hn hd, fval_code neg hc]
    refine ⟨rfl, ?_, hneg.symm, roundFlags_spec mode neg e hn hd (ffmt t) hx⟩
    push_cast
    rw [mul_assoc]
    rfl
  · have hc : (ffmt t).maxCode < (ffmt t).code mode neg n d e := by
      rwa [← (codeVal_strictMono _).lt_iff_lt, ← hv, ← numOf_maxCode]
    have htoInf : toInf mode neg = true ↔ mode = .rne ∨ (mode = .ru ∧ 0 < x) ∨ (mode = .rd ∧ x < 0) := by
      have hx0 : x ≠ 0 := abs_pos.mp (habs ▸ hpos)
      have hx1 : 0 < x ↔ ¬ x < 0 := by rw [not_lt, lt_iff_le_and_ne, and_iff_left hx0.symm]
      cases mode <;> simp [toInf, ← hneg, hx1]
    obtain ⟨toInfinity, toLargest⟩ := fval_overflowCode (t := t) mode neg sat
    rw [htoInf] at toInfinity toLargest
    rw [roundF_num, if_pos hc]
    refine ⟨rfl, fun h => (toInfinity h).trans (by rw [hneg]), fun h => (toLargest h).trans ?_⟩
    rw [numOf_maxCode, ← hneg]
    split_ifs with h0
    · simp [h0, sgn]
    · simp [h0, sgn]

end once

end Sys2Proof.Machine
end

section
/-! PROOFS. Exact sums and products, and what rounding once to a float or an integer type makes of them (spec/04 R92, R99 to R103; spec/06 R152). -/

namespace Sys2Proof.Machine

open Sys2Proof.Claims

/-! ### Exact results, rounded once -/

/-- An exact number, rounded to a float type (R92, R99, R100). -/
theorem roundsOnce_roundF {t : Ty} (ht : tyKind t = .flt) (mode : RMode) (sat : Bool) {x : Ex} {v : ℚ} {zero : Bool} (hx : x.Stands v zero) :
    roundsOnce t mode sat v zero (roundF (ffmt t) mode sat x) := by
  cases x with
  | zero neg =>
    obtain ⟨rfl, rfl⟩ := hx
    refine ⟨fun h => absurd rfl h, fun _ => ?_⟩
    rw [tyWidth_flt ht]
    rfl
  | num neg n d e =>
    obtain ⟨hn, hd, hv⟩ := hx
    have hne : v ≠ 0 := by
      have := two_zpow_pos e
      rw [hv]
      exact mul_ne_zero (sgn_ne_zero neg) (by positivity)
    exact ⟨fun _ => roundsTo_roundF ht mode sat neg e hn hd hv, fun h => absurd h hne⟩
  | nan | inf neg => exact hx.elim

section integers
variable {t : Ty} (hk : tyKind t = .int ∨ tyKind t = .nat) (mode : RMode)
include hk

theorem intMin_le_zero : intMin t ≤ 0 ∧ 0 ≤ intMax t := by
  revert hk
  cases t <;> simp [tyKind] <;> decide

omit hk in
theorem intMin_eq : intMin t = if tyKind t = .int then 1 - 2 ^ (tyWidth t - 1) else 0 := by unfold intMin; push_cast; rfl

omit hk in
theorem intMax_eq : intMax t = if tyKind t = .int then 2 ^ (tyWidth t - 1) - 1 else 2 ^ tyWidth t - 2 := by unfold intMax; push_cast; rfl

omit hk in
/-- A result rounded to `k` and clamped, by the flags of either (R101, R103). -/
theorem roundsToInt_of {v : ℚ} {k : ℤ} (hround : isRounding mode v k) {inexact : Bool} (hex : inexact = false ↔ (k : ℚ) = v) :
    roundsToInt t mode v (intCode t (clampInt (intMin t) (intMax t) k),
      if clampInt (intMin t) (intMax t) k = k then flagIf inexact NX else NV) := by
  refine ⟨k, hround, ?_⟩
  have hflag : flagIf inexact NX = if (k : ℚ) ≠ v then NX else 0 := by
    rw [ite_not, if_congr hex.symm rfl rfl]
    cases inexact <;> rfl
  rw [← intMin_eq, ← intMax_eq, intCode, wrapInt_eq_ofInt, hflag]
  exact congrArg (Prod.mk _) (ite_not ..).symm

theorem convEx_num (sat neg : Bool) (n d : Nat) (e : ℤ) :
    convEx t mode sat (.num neg n d e) =
      let k := sgn neg * (roundAt mode neg n d e 0).1
      (intCode t (clampInt (intMin t) (intMax t) k),
        if clampInt (intMin t) (intMax t) k = k then flagIf (roundAt mode neg n d e 0).2 NX else NV) := by
  have hsgn (k : Nat) : (if neg then -(k : ℤ) else k) = sgn neg * k := by cases neg <;> simp [sgn]
  rcases hk with hk | hk <;> simp only [convEx, hk, roundI, hsgn]

theorem convEx_zero (sat neg : Bool) : convEx t mode sat (.zero neg) = (0, 0) := by
  rcases hk with hk | hk <;> simp only [convEx, hk]

/-- An exact number, rounded to an integer and clamped to the range of its type (R103). -/
theorem roundsToInt_convEx (sat : Bool) {x : Ex} {v : ℚ} {zero : Bool} (hx : x.Stands v zero) : roundsToInt t mode v (convEx t mode sat x) := by
  cases x with
  | zero neg =>
    obtain ⟨rfl, -⟩ := hx
    obtain ⟨hlo, hhi⟩ := intMin_le_zero hk
    have hclamp : clampInt (intMin t) (intMax t) 0 = 0 := by unfold clampInt; omega
    have hcode : intCode t 0 = 0 := by simp [intCode, wrapInt]
    have h := roundsToInt_of (t := t) mode (isRounding_self mode 0) (inexact := false) (by simp)
    rw [hclamp, if_pos rfl, hcode] at h
    rw [convEx_zero hk]
    exact_mod_cast h
  | num neg n d e =>
    obtain ⟨-, hd, rfl⟩ := hx
    have hround := isRounding_roundAt mode neg n hd e 0
    have hexact := roundAt_exact mode neg n hd e 0
    rw [sub_zero] at hround hexact
    rw [convEx_num hk]
    refine roundsToInt_of mode hround (hexact.trans ?_)
    rw [Int.cast_mul, mul_right_inj' (sgn_ne_zero neg), Int.cast_natCast]
  | nan | inf neg => exact hx.elim

omit hk in
/-- An integer, clamped to the range of another integer type (R103). -/
theorem roundsToInt_satInt (n : ℤ) : roundsToInt t mode n ((satInt t n).1, flagIf (satInt t n).2 NV) := by
  have h := roundsToInt_of (t := t) mode (isRounding_self mode n) (inexact := false) (by simp)
  have hflag : flagIf (satInt t n).2 NV = if clampInt (intMin t) (intMax t) n = n then flagIf false NX else NV := by
    by_cases hc : clampInt (intMin t) (intMax t) n = n <;> simp [satInt, flagIf, hc]
  rw [hflag]
  exact h

end integers

/-! ### Exact sums and products (R99, R152) -/

theorem minExp_le (xs : List FVal) (k : ℤ) : minExp xs k ≤ k ∧ ∀ neg m e, FVal.fin neg m e ∈ xs → minExp xs k ≤ e := by
  induction xs generalizing k with
  | nil => simp [minExp]
  | cons x xs ih =>
    cases x with
    | fin neg m e =>
      obtain ⟨hk, hxs⟩ := ih (min k e)
      refine ⟨hk.trans (min_le_left ..), fun neg' m' e' h => ?_⟩
      rcases List.mem_cons.mp h with heq | h
      · cases heq
        exact hk.trans (min_le_right ..)
      · exact hxs _ _ _ h
    | _ => simpa [minExp] using ih k

/-- The sum at 2^k is exact where no addend has a lower exponent. -/
theorem sumAt_eq {k : ℤ} {xs : List FVal} (h : ∀ neg m e, FVal.fin neg m e ∈ xs → k ≤ e) : (sumAt k xs : ℚ) * 2 ^ k = (xs.map numOf).sum := by
  induction xs with
  | nil => simp [sumAt]
  | cons x xs ih =>
    have ih := ih (fun neg m e hmem => h neg m e (List.mem_cons_of_mem _ hmem))
    cases x with
    | fin neg m e =>
      have hke : 0 ≤ e - k := sub_nonneg.mpr (h neg m e List.mem_cons_self)
      have hterm : ((if neg then -(shiftUp m (e - k) : ℤ) else shiftUp m (e - k) : ℤ) : ℚ) * 2 ^ k = numOf (.fin neg m e) := by
        rw [numOf_fin, ← two_zpow_sub_mul e k, ← mul_assoc (m : ℚ), ← shiftUp_cast hke]
        cases neg <;> simp [sgn]
      rw [sumAt, Int.cast_add, add_mul, hterm, ih, List.map_cons, List.sum_cons]
    | _ => simpa [sumAt, numOf] using ih

theorem numOf_eq_zero_iff {neg : Bool} {m : Nat} {e : ℤ} : numOf (.fin neg m e) = 0 ↔ m = 0 := by
  rw [numOf_fin, mul_eq_zero, mul_eq_zero, or_iff_right (sgn_ne_zero neg), or_iff_left (two_zpow_pos e).ne', Nat.cast_eq_zero]

theorem sgn_mul_numOf_nonneg (v : FVal) : 0 ≤ (sgn (negOf v) : ℚ) * numOf v := by
  cases v with
  | fin neg m e =>
    have := two_zpow_pos e
    rw [numOf_fin, ← mul_assoc, negOf, ← Int.cast_mul, show sgn neg * sgn neg = 1 by cases neg <;> rfl]
    positivity
  | _ => simp [numOf]

/-- Numbers of one sign whose sum is 0 are all 0. -/
theorem numOf_eq_zero_of_sum {xs : List FVal} {b : Bool} (hsign : ∀ v ∈ xs, negOf v = b) (hsum : (xs.map numOf).sum = 0) :
    ∀ v ∈ xs, numOf v = 0 := by
  have hscaled : (xs.map (fun v => (sgn b : ℚ) * numOf v)).sum = 0 := by rw [List.sum_map_mul_left, hsum, mul_zero]
  have hnonneg : ∀ y ∈ xs.map (fun v => (sgn b : ℚ) * numOf v), 0 ≤ y := by
    rintro y hy
    obtain ⟨v, hv, rfl⟩ := List.mem_map.mp hy
    exact hsign v hv ▸ sgn_mul_numOf_nonneg v
  intro v hv
  have := List.all_zero_of_le_zero_le_of_sum_eq_zero hnonneg hscaled (List.mem_map_of_mem hv)
  exact (mul_eq_zero.mp this).resolve_left (sgn_ne_zero b)

/-- A finite addend that is a zero of sign `b`. -/
def isZeroOf (b : Bool) (x : FVal) : Bool :=
  match x with
  | .fin g m _ => m == 0 && g == b
  | _ => false

theorem isZeroOf_iff {b : Bool} {x : FVal} (h : isFin x = true) : isZeroOf b x = true ↔ numOf x = 0 ∧ negOf x = b := by
  cases x with
  | fin neg m e => rw [numOf_eq_zero_iff, isZeroOf, Bool.and_eq_true, beq_iff_eq, beq_iff_eq, negOf]
  | _ => simp [isFin] at h

/-- Where numbers add to 0, all are zeros of a sign just where all have that sign. -/
theorem all_isZeroOf {xs : List FVal} (hfin : ∀ v ∈ xs, isFin v = true) (hsum : (xs.map numOf).sum = 0) (b : Bool) :
    xs.all (isZeroOf b) = (xs.map negOf).all (· == b) := by
  rw [Bool.eq_iff_iff, List.all_map, List.all_eq_true, List.all_eq_true]
  constructor
  · exact fun h v hv => beq_iff_eq.mpr ((isZeroOf_iff (hfin v hv)).mp (h v hv)).2
  · intro h v hv
    have hsign : ∀ v ∈ xs, negOf v = b := fun v hv => beq_iff_eq.mp (h v hv)
    exact (isZeroOf_iff (hfin v hv)).mpr ⟨numOf_eq_zero_of_sum hsign hsum v hv, hsign v hv⟩

/-- The sum of numbers, in the model's own terms. -/
theorem sumV_of_fin {mode : RMode} {xs : List FVal} (hfin : ∀ v ∈ xs, isFin v = true) :
    sumV mode xs =
      let k := minExp xs 0
      if sumAt k xs ≠ 0 then (.num (sumAt k xs < 0) (sumAt k xs).natAbs 1 k, 0)
      else if xs.all (isZeroOf false) then (.zero false, 0)
      else if xs.all (isZeroOf true) then (.zero true, 0)
      else (.zero (mode == .rd), 0) := by
  have hnan : xs.any FVal.isNan = false := by
    refine List.any_eq_false.mpr (fun v hv => ?_)
    have := hfin v hv
    cases v <;> simp [isFin, FVal.isNan] at this ⊢
  have hinf (b : Bool) : xs.any (fun x => x == .inf b) = false := by
    refine List.any_eq_false.mpr (fun v hv => ?_)
    have := hfin v hv
    cases v <;> simp [isFin] at this ⊢

  simp only [sumV, hnan, hinf]
  rfl

theorem zeroSum_eq (mode : RMode) (negs : List Bool) :
    zeroSum mode negs = if negs.all (· == false) then false else if negs.all (· == true) then true else mode == .rd := by
  simp [zeroSum]

/-- The exact sum of numbers; the sign of an exact zero goes by the signs of its terms (R99). -/
theorem sumV_stands (mode : RMode) {xs : List FVal} (hfin : ∀ v ∈ xs, isFin v = true) :
    (sumV mode xs).2 = 0 ∧ (sumV mode xs).1.Stands (xs.map numOf).sum (zeroSum mode (xs.map negOf)) := by
  have hsum := sumAt_eq (minExp_le xs 0).2
  rw [sumV_of_fin hfin]
  generalize minExp xs 0 = k at *
  have hpos := two_zpow_pos k
  by_cases hzero : sumAt k xs = 0
  · have hnull : (xs.map numOf).sum = 0 := by rw [← hsum, hzero, Int.cast_zero, zero_mul]
    simp only [hzero, ne_eq, not_true_eq_false, if_false, all_isZeroOf hfin hnull, zeroSum_eq]
    split_ifs <;> exact ⟨rfl, hnull, rfl⟩
  · simp only [ne_eq, hzero, not_false_eq_true, if_true, true_and]
    refine ⟨Int.natAbs_pos.mpr hzero, one_pos, ?_⟩
    rw [← hsum, Nat.cast_one, div_one, ← mul_assoc, ← Int.cast_natCast (sumAt k xs).natAbs, ← Int.cast_mul, ← eq_sgn_mul_natAbs]



theorem zeroSum_pair (mode : RMode) (a b : Bool) : zeroSum mode [a, b] = zeroSign mode a b := by
  cases a <;> cases b <;> rfl

theorem mulV_stands {x y : FVal} (hx : isFin x = true) (hy : isFin y = true) :
    ∃ z, mulV x y = (z, 0) ∧ isFin z = true ∧ numOf z = numOf x * numOf y ∧ negOf z = (negOf x != negOf y) := by
  cases x with
  | fin a m e =>
    cases y with
    | fin b n k =>
      refine ⟨_, rfl, rfl, ?_, rfl⟩
      rw [numOf_fin, numOf_fin, numOf_fin, two_zpow_add, show (sgn (a != b) : ℚ) = sgn a * sgn b by cases a <;> cases b <;> simp [sgn]]
      push_cast
      ring
    | _ => simp [isFin] at hy
  | _ => simp [isFin] at hx

theorem negate_stands {x : FVal} (hx : isFin x = true) : isFin x.negate = true ∧ numOf x.negate = -numOf x ∧ negOf x.negate = !negOf x := by
  cases x with
  | fin a m e => exact ⟨rfl, by cases a <;> simp [FVal.negate, numOf], rfl⟩
  | _ => simp [isFin] at hx

/-! ### FADD, FSUB, FMUL and FFMA (R152) -/

section arithmetic
variable {t : Ty} (ht : tyKind t = .flt) (mode : RMode) (sat ai : Bool)
include ht

theorem fval_absentOf : fval t (absentOf t) = .absent := by
  have hw := tyWidth_flt ht
  have habs : absentOf t = 2 ^ ((ffmt t).eb + (ffmt t).mb + 1) - 1 := by simp only [absentOf, ht, hw]
  have hmod : (2 ^ ((ffmt t).eb + (ffmt t).mb + 1) - 1) % 2 ^ ((ffmt t).eb + (ffmt t).mb + 1) = 2 ^ ((ffmt t).eb + (ffmt t).mb + 1) - 1 :=
    Nat.mod_eq_of_lt (Nat.sub_lt (Nat.two_pow_pos _) one_pos)
  rw [habs, fval_eq_parts, FFmt.parts, if_pos ((mod_succ_ones_iff _ _).mp hmod)]

theorem isAbsent_flt (a : Nat) : isAbsent t a = (a == absentOf t) := by simp only [isAbsent, ht]

theorem isAbsent_of_isFin {a : Nat} (h : isFin (fval t a) = true) : isAbsent t a = false := by
  rw [isAbsent_flt ht, beq_eq_false_iff_ne]
  rintro rfl
  simp [fval_absentOf ht, isFin] at h

omit ht in
theorem roundRes_zero (x : Ex) : roundRes t mode sat x 0 = roundF (ffmt t) mode sat x := Prod.ext rfl BitVec.zero_or

/-- A sum of numbers, rounded once. -/
theorem roundsOnce_sumV {xs : List FVal} (hfin : ∀ v ∈ xs, isFin v = true) :
    roundsOnce t mode sat (xs.map numOf).sum (zeroSum mode (xs.map negOf)) (roundRes t mode sat (sumV mode xs).1 (sumV mode xs).2) := by
  obtain ⟨hflag, hstands⟩ := sumV_stands mode hfin
  rw [hflag, roundRes_zero]
  exact roundsOnce_roundF ht mode sat hstands

theorem roundsOnce_pair {x y : FVal} (hx : isFin x = true) (hy : isFin y = true) :
    roundsOnce t mode sat (numOf x + numOf y) (zeroSign mode (negOf x) (negOf y))
      (roundRes t mode sat (sumV mode [x, y]).1 (sumV mode [x, y]).2) := by
  simpa [zeroSum_pair] using roundsOnce_sumV ht mode sat (xs := [x, y]) (by simp [hx, hy])

variable {a b c : Nat} (ha : isFin (fval t a) = true) (hb : isFin (fval t b) = true)
include ha hb

theorem faddVal_once : roundsOnce t mode sat (numOf (fval t a) + numOf (fval t b)) (zeroSign mode (negOf (fval t a)) (negOf (fval t b)))
    (faddVal t mode sat ai a b) := by
  rw [faddVal, withAbsent_present (by simp [isAbsent_of_isFin ht ha, isAbsent_of_isFin ht hb])]
  exact roundsOnce_pair ht mode sat ha hb

theorem fsubVal_once : roundsOnce t mode sat (numOf (fval t a) - numOf (fval t b)) (zeroSign mode (negOf (fval t a)) (!negOf (fval t b)))
    (fsubVal t mode sat ai a b) := by
  obtain ⟨hfin, hnum, hneg⟩ := negate_stands hb
  rw [fsubVal, withAbsent_present (by simp [isAbsent_of_isFin ht ha, isAbsent_of_isFin ht hb]), sub_eq_add_neg, ← hnum, ← hneg]
  exact roundsOnce_pair ht mode sat ha hfin

theorem fmulVal_once : roundsOnce t mode sat (numOf (fval t a) * numOf (fval t b)) (negOf (fval t a) != negOf (fval t b))
    (fmulVal t mode sat ai a b) := by
  obtain ⟨z, hz, hfin, hnum, hneg⟩ := mulV_stands ha hb
  rw [fmulVal, withAbsent_present (by simp [isAbsent_of_isFin ht ha, isAbsent_of_isFin ht hb]), ← hnum, ← hneg]
  show roundsOnce t mode sat (numOf z) (negOf z) (fmulPre t mode sat a b)
  simp only [fmulPre, hz, roundRes_zero]
  exact roundsOnce_roundF ht mode sat (toEx_stands hfin)

theorem ffmaVal_once (hc : isFin (fval t c) = true) :
    roundsOnce t mode sat (numOf (fval t a) * numOf (fval t b) + numOf (fval t c))
      (zeroSign mode (negOf (fval t a) != negOf (fval t b)) (negOf (fval t c))) (ffmaVal t mode sat ai a b c) := by
  obtain ⟨z, hz, hfin, hnum, hneg⟩ := mulV_stands ha hb
  have hflag := (sumV_stands mode (xs := [z, fval t c]) (by simp [hfin, hc])).1
  rw [ffmaVal, withAbsent_present (by simp [isAbsent_of_isFin ht ha, isAbsent_of_isFin ht hb, isAbsent_of_isFin ht hc]), ← hnum, ← hneg]
  have h := roundsOnce_pair ht mode sat hfin hc
  show roundsOnce t mode sat (numOf z + numOf (fval t c)) (zeroSign mode (negOf z) (negOf (fval t c))) (ffmaPre t mode sat a b c)
  rw [hflag] at h
  simp only [ffmaPre, hz, hflag]
  exact h

end arithmetic

end Sys2Proof.Machine
end

section
/-! PROOFS. Rounding follows its mode: widening conversions, CVT, and the obligation (spec/04 R100, R102, R103; spec/06 R157). -/

namespace Sys2Proof.Machine

open Sys2Proof.Claims

/-! ### Widening conversions (R102) -/

/-- The largest numbers of the float types (R90). -/
theorem largest_values :
    (ffmt .f32).codeVal (ffmt .f32).maxCode = (2 ^ 24 - 1) * 2 ^ 104 ∧ (ffmt .f16).codeVal (ffmt .f16).maxCode = 65504 ∧
    (ffmt .bf16).codeVal (ffmt .bf16).maxCode = (2 ^ 8 - 1) * 2 ^ 120 ∧ (ffmt .e4m3).codeVal (ffmt .e4m3).maxCode = 448 ∧
    (ffmt .e5m2).codeVal (ffmt .e5m2).maxCode = 57344 := by
  have value {t : Ty} (m : Nat) (e : ℤ) (hm : (ffmt t).mant (ffmt t).maxCode = m) (he : (ffmt t).expo (ffmt t).maxCode = e) :
      (ffmt t).codeVal (ffmt t).maxCode = m * 2 ^ e := by rw [FFmt.codeVal, hm, he]
  refine ⟨?_, ?_, ?_, ?_, ?_⟩
  · rw [value (2 ^ 24 - 1) 104 rfl rfl]; norm_num
  · rw [value 2047 5 rfl rfl]; norm_num
  · rw [value 255 120 rfl rfl]; norm_num
  · rw [value 14 5 rfl rfl]; norm_num
  · rw [value 7 13 rfl rfl]; norm_num

/-- A number of a float type lies within its largest one. -/
theorem abs_numOf_le {t : Ty} {x : Nat} (h : isFin (fval t x) = true) : |numOf (fval t x)| ≤ numOf (fval t (ffmt t).maxCode) := by
  have hlt := Nat.mod_lt x (Nat.two_pow_pos ((ffmt t).eb + (ffmt t).mb))
  rw [fval_eq_parts] at h ⊢
  have hc := parts_isFin _ (ffmt_eb_pos t) hlt h
  rw [numOf_parts _ (ffmt_eb_pos t) hc, numOf_maxCode, abs_mul, abs_sgn, one_mul, abs_of_nonneg (codeVal_nonneg ..)]
  exact (codeVal_strictMono _).monotone hc

theorem widens_largest {src dst : Ty} (h : widens src dst = true) : numOf (fval src (ffmt src).maxCode) ≤ numOf (fval dst (ffmt dst).maxCode) := by
  obtain ⟨f32, f16, bf16, e4m3, e5m2⟩ := largest_values
  have hpairs : dst = .f32 ∧ (src = .f16 ∨ src = .bf16 ∨ src = .e4m3 ∨ src = .e5m2) ∨
      (dst = .f16 ∨ dst = .bf16) ∧ (src = .e4m3 ∨ src = .e5m2) := by
    cases dst <;> simp [widens, or_assoc] at h ⊢ <;> exact h
  rw [numOf_maxCode, numOf_maxCode]
  rcases hpairs with ⟨rfl, rfl | rfl | rfl | rfl⟩ | ⟨rfl | rfl, rfl | rfl⟩
  all_goals norm_num [f32, f16, bf16, e4m3, e5m2]

theorem mant_lt (f : FFmt) (c : Nat) : f.mant c < 2 ^ (f.mb + 1) := by
  have hmod := Nat.mod_lt c (Nat.two_pow_pos f.mb)
  rw [pow_succ]
  unfold FFmt.mant
  split <;> omega

/-- A number within a type's range is rounded within it, so that SAT does not bear on it (R100). -/
theorem roundsTo_of_le {t : Ty} {mode : RMode} {x : ℚ} {r : Res} {sat : Bool} (hx : |x| ≤ numOf (fval t (ffmt t).maxCode))
    (h : roundsTo t mode sat x r) (sat' : Bool) : roundsTo t mode sat' x r := by
  obtain ⟨hlt, ex, k, j, lo, hi, hk, hj, inside, -⟩ := h
  refine ⟨hlt, ex, k, j, lo, hi, hk, hj, inside, fun hgt => absurd ?_ (not_le.mpr hgt)⟩
  rw [numOf_maxCode, FFmt.codeVal] at hx ⊢
  have hm := mant_lt (ffmt t) (ffmt t).maxCode
  have hE : (ffmt t).qmin ≤ (ffmt t).expo (ffmt t).maxCode := le_add_of_nonneg_right (Int.natCast_nonneg _)
  generalize (ffmt t).mant (ffmt t).maxCode = m at *
  generalize (ffmt t).expo (ffmt t).maxCode = E at *
  have hex : ex < (ffmt t).mb + 1 + E := by
    refine two_zpow_lt.mp (lo.trans_lt (hx.trans_lt ?_))
    rw [two_zpow_add]
    exact mul_lt_mul_of_pos_right (by exact_mod_cast hm) (two_zpow_pos E)
  generalize hq : max (ex - ((ffmt t).mb : ℤ)) (ffmt t).qmin = q at *
  obtain ⟨i, hi⟩ : ∃ i : Nat, E = i + q := ⟨(E - q).toNat, by omega⟩
  have hN : (m : ℚ) * 2 ^ E = (m * 2 ^ i : ℤ) * 2 ^ q := by rw [hi, two_zpow_add]; push_cast; rw [zpow_natCast, mul_assoc]
  have hquot : |x / 2 ^ q| ≤ (m * 2 ^ i : ℤ) := by rwa [abs_div, abs_of_pos (two_zpow_pos q), div_le_iff₀ (two_zpow_pos q), ← hN]
  obtain ⟨hlo, hhi⟩ := abs_le.mp hquot
  have hle : k ≤ m * 2 ^ i := isRounding_le hk hhi
  have hge : -(m * 2 ^ i : ℤ) ≤ k := le_isRounding hk (by exact_mod_cast hlo)
  rw [abs_mul, abs_of_pos (two_zpow_pos q), hN]
  exact mul_le_mul_of_nonneg_right (by exact_mod_cast abs_le.mpr ⟨hge, hle⟩) (two_zpow_pos q).le

theorem roundsOnce_of_le {t : Ty} {mode : RMode} {x : ℚ} {r : Res} {sat zero : Bool} (hx : |x| ≤ numOf (fval t (ffmt t).maxCode))
    (h : roundsOnce t mode sat x zero r) (sat' : Bool) : roundsOnce t mode sat' x zero r :=
  ⟨fun hne => roundsTo_of_le hx (h.1 hne) sat', h.2⟩

/-! ### CVT (R102, R103, R157) -/

section convert
variable {src dst : Ty} {mode : RMode} {sat : Bool} {a : Nat}

theorem convEx_flt (hd : tyKind dst = .flt) (x : Ex) : convEx dst mode sat x = roundF (ffmt dst) mode (sat || dst == .e4m3 || dst == .e5m2) x := by
  simp only [convEx, hd]

theorem scale_stands {v : FVal} (h : isFin v = true) (k : ℤ) :
    isFin (v.scale k) = true ∧ numOf (v.scale k) = numOf v * 2 ^ k ∧ negOf (v.scale k) = negOf v := by
  cases v with
  | fin neg m e => exact ⟨rfl, by rw [FVal.scale, numOf_fin, numOf_fin, two_zpow_add]; ring, rfl⟩
  | _ => simp [isFin] at h

theorem isNan_of_isFin {v : FVal} (h : isFin v = true) : v.isNan = false := by
  cases v <;> simp [isFin, FVal.isNan] at h ⊢

section float
variable (hs : tyKind src = .flt) (hv : isFin (fval src a) = true)
include hs hv

theorem convert_flt : convert src dst mode sat a none =
    if src = dst then (a, 0) else convEx dst mode (sat && !widens src dst) (fval src a).toEx := by
  simp [convert, isAbsent_of_isFin hs hv, hs, isNan_of_isFin hv]

theorem convert_scaled {b : Nat} (hb : b ≠ 0xFF) :
    convert src dst mode sat a (some b) = convEx dst mode sat ((fval src a).scale (127 - (b : Int))).toEx := by
  simp [convert, isAbsent_of_isFin hs hv, hs, isNan_of_isFin hv, hb]

end float

theorem convert_scale_absent : convert src dst mode sat a (some 0xFF) = (absentOf dst, 0) := by simp [convert]

/-- An exact number, converted to a float or an integer type (R102, R103). -/
theorem convEx_once {x : Ex} {v : ℚ} {zero : Bool} (hx : x.Stands v zero) :
    (tyKind dst = .flt → roundsOnce dst mode (sat || dst == .e4m3 || dst == .e5m2) v zero (convEx dst mode sat x)) ∧
    (tyKind dst = .int ∨ tyKind dst = .nat → roundsToInt dst mode v (convEx dst mode sat x)) := by
  refine ⟨fun hd => ?_, fun hd => roundsToInt_convEx hd mode sat hx⟩
  rw [convEx_flt hd]
  exact roundsOnce_roundF hd mode _ hx

/-- The exact widening of a float number stays within its new type, whether under SAT or not (R102). -/
theorem convert_flt_once (hs : tyKind src = .flt) (hv : isFin (fval src a) = true) (hne : src ≠ dst) :
    (tyKind dst = .flt → roundsOnce dst mode (sat || dst == .e4m3 || dst == .e5m2) (numOf (fval src a)) (negOf (fval src a))
      (convert src dst mode sat a none)) ∧
    (tyKind dst = .int ∨ tyKind dst = .nat → roundsToInt dst mode (numOf (fval src a)) (convert src dst mode sat a none)) := by
  rw [convert_flt hs hv, if_neg hne]
  obtain ⟨toFlt, toInt⟩ := convEx_once (dst := dst) (mode := mode) (sat := sat && !widens src dst) (toEx_stands hv)
  refine ⟨fun hd => ?_, toInt⟩
  by_cases hw : widens src dst = true
  · exact roundsOnce_of_le ((abs_numOf_le hv).trans (widens_largest hw)) (toFlt hd) _
  · simpa [hw] using toFlt hd

/-- CVT of an integer. -/
theorem convert_int (hs : tyKind src = .int ∨ tyKind src = .nat) (ha : isAbsent src a = false) (hne : src ≠ dst) :
    convert src dst mode sat a none =
      if tyKind dst = .flt then convEx dst mode sat (exOfInt (intVal src a))
      else ((satInt dst (intVal src a)).1, flagIf (satInt dst (intVal src a)).2 NV) := by
  rcases hs with hs | hs <;> simp [convert, ha, hs, hne]

/-- An integer converted to a float or an integer type (R103). -/
theorem convert_int_once (hs : tyKind src = .int ∨ tyKind src = .nat) (ha : isAbsent src a = false) (hne : src ≠ dst) :
    (tyKind dst = .flt → roundsOnce dst mode (sat || dst == .e4m3 || dst == .e5m2) (intVal src a) false (convert src dst mode sat a none)) ∧
    (tyKind dst = .int ∨ tyKind dst = .nat → roundsToInt dst mode (intVal src a) (convert src dst mode sat a none)) := by
  rw [convert_int hs ha hne]
  refine ⟨fun hd => ?_, fun hd => ?_⟩
  · rw [if_pos hd]
    exact (convEx_once (exOfInt_stands _)).1 hd
  · rw [if_neg (by rcases hd with hd | hd <;> simp [hd])]
    exact roundsToInt_satInt mode _

/-- The integer that a code of an iN or nN type stands for, as the statements name it. -/
theorem intVal_eq (hs : tyKind src = .int ∨ tyKind src = .nat) :
    intVal src a = if tyKind src = .int then (BitVec.ofNat (tyWidth src) a).toInt else a := by
  have hw : 0 < tyWidth src := by
    revert hs
    cases src <;> simp [tyKind, tyWidth]
  rw [intVal, sext_eq_toInt hw]

end convert

/-- The row of CVT without a block exponent and with one (R157). -/
theorem cvtRow_plain {w : IWord} (hb : w.b = .none) (l : Lane) (a b c : Nat) : (conversionRow (.cvt w)).map (fun row => row.f l a b c) =
    some (convert (cvtSrc w) w.t (RMode.ofCode (fld w.x 2 0) l.rm) (flg w.x 3) a none) := by
  simp [conversionRow, cvtScale, hb]

theorem cvtRow_scaled {w : IWord} (hb : w.b ≠ .none) (l : Lane) (a b c : Nat) : (conversionRow (.cvt w)).map (fun row => row.f l a b c) =
    some (convert (cvtSrc w) w.t (RMode.ofCode (fld w.x 2 0) l.rm) (flg w.x 3) a (some (b % 256))) := by
  simp [conversionRow, cvtScale, hb]

/-- Settles O16: `roundAt` by the integer ratio it compares, and each operation by the exact value that its operands give, rounded once. -/
theorem roundingFollowsItsMode : Obligations.RoundingFollowsItsMode := by
  unfold Obligations.RoundingFollowsItsMode
  refine ⟨fun mode neg n d e q hd => roundAt_spec mode neg n hd e q, fun w l a b c => ⟨?_, ?_, ?_⟩⟩
  · intro x y z mode once hx hy
    exact ⟨⟨_, rfl, faddVal_once rfl mode _ _ hx hy⟩, ⟨_, rfl, fsubVal_once rfl mode _ _ hx hy⟩,
      ⟨_, rfl, fmulVal_once rfl mode _ _ hx hy⟩, fun hz => ⟨_, rfl, ffmaVal_once rfl mode _ _ hx hy hz⟩⟩
  · intro hs hv
    refine ⟨fun hb => ⟨fun heq => ⟨_, cvtRow_plain hb l a b c, ?_⟩, fun hne => ?_⟩,
      fun hb => ⟨fun habs => ⟨_, cvtRow_scaled hb l a b c, ?_⟩, fun hscale => ?_⟩⟩
    · exact (convert_flt hs hv).trans (if_pos heq)
    · obtain ⟨toFlt, toInt⟩ := convert_flt_once (mode := RMode.ofCode (fld w.x 2 0) l.rm) (sat := flg w.x 3) hs hv hne
      exact ⟨fun hd => ⟨_, cvtRow_plain hb l a b c, toFlt hd⟩, fun hd => ⟨_, cvtRow_plain hb l a b c, toInt hd⟩⟩
    · rw [habs]
      exact convert_scale_absent
    · obtain ⟨hfin, hnum, hneg⟩ := scale_stands hv (127 - (b % 256 : Nat) : ℤ)
      have hstands := toEx_stands hfin
      rw [hnum, hneg] at hstands
      obtain ⟨toFlt, toInt⟩ := convEx_once (dst := w.t) (mode := RMode.ofCode (fld w.x 2 0) l.rm) (sat := flg w.x 3) hstands
      rw [← convert_scaled hs hv hscale] at toFlt toInt
      exact ⟨fun hd => ⟨_, cvtRow_scaled hb l a b c, toFlt hd⟩, fun hd => ⟨_, cvtRow_scaled hb l a b c, toInt hd⟩⟩
  · intro hb ha hs hne
    obtain ⟨toFlt, toInt⟩ := convert_int_once (mode := RMode.ofCode (fld w.x 2 0) l.rm) (sat := flg w.x 3) hs ha hne
    rw [intVal_eq hs] at toFlt toInt
    exact ⟨fun hd => ⟨_, cvtRow_plain hb l a b c, toFlt hd⟩, fun hd => ⟨_, cvtRow_plain hb l a b c, toInt hd⟩⟩

end Sys2Proof.Machine
end

section
/-! PROOFS. Order, selection, comparison, class and sign of floats (spec/04 R90, R94, R95; spec/06 R152 to R155). -/

namespace Sys2Proof.Machine

open Sys2Proof.Claims

/-! ### Patterns of each kind (R90, R94) -/

theorem parts_absent {f : FFmt} {neg : Bool} {mag : Nat} : f.parts neg mag = .absent ↔ neg = true ∧ mag = 2 ^ (f.eb + f.mb) - 1 := by
  unfold FFmt.parts
  split_ifs <;> simp_all

/-- The absent code is the one pattern of its width that stands for absent (R90). -/
theorem fval_absent_iff {t : Ty} (ht : tyKind t = .flt) {x : Nat} (hx : x < 2 ^ tyWidth t) : fval t x = .absent ↔ isAbsent t x = true := by
  have habs : absentOf t = 2 ^ tyWidth t - 1 := by simp only [absentOf, ht]
  rw [tyWidth_flt ht] at hx habs
  rw [fval_eq_parts, parts_absent, ← mod_succ_ones_iff, isAbsent_flt ht, beq_iff_eq, habs, Nat.mod_eq_of_lt hx]

theorem parts_inf_eq {f : FFmt} {neg n : Bool} {mag : Nat} (h : f.parts neg mag = .inf n) : neg = n ∧ mag = f.infCode := by
  unfold FFmt.parts at h
  split_ifs at h with h1 h2 h3 h4
  all_goals cases h
  refine ⟨rfl, ?_⟩
  have := Nat.div_add_mod mag (2 ^ f.mb)
  rw [h2.2, h3, add_zero, mul_comm] at this
  exact this.symm

/-- The one pattern of each infinity (R90). -/
theorem eq_of_fval_inf {t : Ty} {x : Nat} (hx : x < 2 ^ ((ffmt t).eb + (ffmt t).mb + 1)) {n : Bool} (h : fval t x = .inf n) :
    x = (ffmt t).sign n + (ffmt t).infCode := by
  rw [fval_eq_parts] at h
  obtain ⟨hneg, hmag⟩ := parts_inf_eq h
  rw [← hneg, ← hmag]
  exact eq_sign_add _ hx

/-! ### Order (R94) -/

/-- A value that has a place in the order of numbers: an infinity, or a number below all that `rankOf` gives an infinity. -/
def Ranked (x : FVal) : Prop := (isFin x = true ∧ |numOf x| < (2 : ℚ) ^ (200 : ℤ)) ∨ ∃ neg, x = .inf neg

theorem Ranked.isNan {x : FVal} (h : Ranked x) : x.isNan = false := by
  rcases h with ⟨h, -⟩ | ⟨neg, rfl⟩
  · exact isNan_of_isFin h
  · rfl

theorem rankOf_of_isFin {x : FVal} (h : isFin x = true) : rankOf x = numOf x := by
  cases x <;> simp [isFin, rankOf] at h ⊢

theorem ranked_f32 {n : Nat} (habs : fval .f32 n ≠ .absent) (hnan : (fval .f32 n).isNan = false) : Ranked (fval .f32 n) := by
  cases h : fval .f32 n with
  | absent => exact absurd h habs
  | nan b => simp [h, FVal.isNan] at hnan
  | inf neg => exact .inr ⟨neg, rfl⟩
  | fin neg m e =>
    refine .inl ⟨rfl, ?_⟩
    have hfin : isFin (fval .f32 n) = true := by rw [h]; rfl
    rw [← h]
    refine (abs_numOf_le hfin).trans_lt ?_
    rw [numOf_maxCode, largest_values.1]
    norm_num

/-- The sign of a − b for numbers. -/
theorem cmpV_fin {x y : FVal} (hx : isFin x = true) (hy : isFin y = true) :
    cmpV x y = if numOf x < numOf y then -1 else if numOf x = numOf y then 0 else 1 := by
  have hsum := sumAt_eq (minExp_le [x, y.negate] 0).2
  have hpos := two_zpow_pos (minExp [x, y.negate] 0)
  have hkey : cmpV x y = if sumAt (minExp [x, y.negate] 0) [x, y.negate] < 0 then -1
      else if sumAt (minExp [x, y.negate] 0) [x, y.negate] = 0 then 0 else 1 := by
    cases x <;> simp [isFin] at hx
    cases y <;> simp [isFin] at hy
    rfl
  rw [hkey]
  generalize minExp [x, y.negate] 0 = k at *
  generalize sumAt k [x, y.negate] = s at *
  rw [List.map_cons, List.map_cons, List.map_nil, List.sum_cons, List.sum_cons, List.sum_nil, (negate_stands hy).2.1, add_zero] at hsum
  have hlt : s < 0 ↔ numOf x < numOf y := by
    rw [← Int.cast_lt_zero (R := ℚ), ← mul_lt_mul_iff_of_pos_right hpos, zero_mul, hsum, ← sub_eq_add_neg, sub_neg]
  have heq : s = 0 ↔ numOf x = numOf y := by
    rw [← sub_eq_zero (a := numOf x), sub_eq_add_neg, ← hsum, mul_eq_zero, or_iff_left hpos.ne', Int.cast_eq_zero]
  simp only [hlt, heq]

/-- The sign of a − b, by the places of the values. -/
theorem cmpV_eq {x y : FVal} (hx : Ranked x) (hy : Ranked y) :
    cmpV x y = if rankOf x < rankOf y then -1 else if rankOf x = rankOf y then 0 else 1 := by
  rcases hx with ⟨hx, hxb⟩ | ⟨a, rfl⟩
  · rcases hy with ⟨hy, -⟩ | ⟨b, rfl⟩
    · rw [rankOf_of_isFin hx, rankOf_of_isFin hy, cmpV_fin hx hy]
    · obtain ⟨hlo, hhi⟩ := abs_lt.mp hxb
      have hcmp : cmpV x (.inf b) = if b then 1 else -1 := by cases x <;> simp [isFin] at hx; rfl
      cases b
      · rw [hcmp, rankOf_of_isFin hx, if_pos (show numOf x < rankOf (.inf false) from hhi)]; rfl
      · rw [hcmp, rankOf_of_isFin hx, if_neg (show ¬ numOf x < rankOf (.inf true) from hlo.le.not_gt),
          if_neg (show ¬ numOf x = rankOf (.inf true) from hlo.ne')]; rfl
  · rcases hy with ⟨hy, hyb⟩ | ⟨b, rfl⟩
    · obtain ⟨hlo, hhi⟩ := abs_lt.mp hyb
      have hcmp : cmpV (.inf a) y = if a then -1 else 1 := by cases y <;> simp [isFin] at hy; rfl
      cases a
      · rw [hcmp, rankOf_of_isFin hy, if_neg (show ¬ rankOf (.inf false) < numOf y from hhi.le.not_gt),
          if_neg (show ¬ rankOf (.inf false) = numOf y from hhi.ne')]; rfl
      · rw [hcmp, rankOf_of_isFin hy, if_pos (show rankOf (.inf true) < numOf y from hlo)]; rfl
    · cases a <;> cases b <;> norm_num [cmpV, rankOf]

theorem cmpV_neg_iff {x y : FVal} (hx : Ranked x) (hy : Ranked y) : cmpV x y < 0 ↔ rankOf x < rankOf y := by
  rw [cmpV_eq hx hy]
  split_ifs <;> simp_all

theorem cmpV_zero_iff {x y : FVal} (hx : Ranked x) (hy : Ranked y) : cmpV x y = 0 ↔ rankOf x = rankOf y := by
  rw [cmpV_eq hx hy]
  split_ifs with h
  · simp [h.ne]
  · simpa
  · simpa

theorem cmpV_pos_iff {x y : FVal} (hx : Ranked x) (hy : Ranked y) : 0 < cmpV x y ↔ rankOf y < rankOf x := by
  rw [← not_le, ← not_le, le_iff_lt_or_eq, le_iff_lt_or_eq, cmpV_neg_iff hx hy, cmpV_zero_iff hx hy]

theorem lessV_of_lt {x y : FVal} (hx : Ranked x) (hy : Ranked y) (h : rankOf x < rankOf y) : lessV x y = true := by
  simp only [lessV, (cmpV_neg_iff hx hy).mpr h, decide_true, Bool.true_or]

theorem lessV_of_gt {x y : FVal} (hx : Ranked x) (hy : Ranked y) (h : rankOf y < rankOf x) : lessV x y = false := by
  have hpos := (cmpV_pos_iff hx hy).mpr h
  have h1 : decide (cmpV x y < 0) = false := decide_eq_false hpos.le.not_gt
  have h2 : (cmpV x y == 0) = false := beq_eq_false_iff_ne.mpr hpos.ne'
  simp only [lessV, h1, h2, Bool.false_and, Bool.or_false]

/-! ### FMIN and FMAX (R95, R153) -/

section select
variable {a b : Nat} (up : Bool)

theorem isSig_of_isNan {x : FVal} (h : x.isNan = false) : x.isSig = false := by
  cases x <;> simp [FVal.isNan, FVal.isSig] at h ⊢

theorem fminPre_numbers (ha : (fval .f32 a).isNan = false) (hb : (fval .f32 b).isNan = false) :
    fminPre .f32 up a b =
      (if up then (if lessV (fval .f32 a) (fval .f32 b) then b else a) else (if lessV (fval .f32 b) (fval .f32 a) then b else a), 0) := by
  simp [fminPre, ha, hb, isSig_of_isNan, flagIf]

theorem fminPre_flags : (fminPre .f32 up a b).2 = if (fval .f32 a).isSig || (fval .f32 b).isSig then NV else 0 := by
  unfold fminPre
  simp only
  split <;> rfl

section ranked
variable (ha : Ranked (fval .f32 a)) (hb : Ranked (fval .f32 b))
include ha hb

theorem fminPre_lt (h : rankOf (fval .f32 a) < rankOf (fval .f32 b)) : fminPre .f32 up a b = (if up then b else a, 0) := by
  rw [fminPre_numbers up ha.isNan hb.isNan, lessV_of_lt ha hb h, lessV_of_gt hb ha h]
  rfl

theorem fminPre_gt (h : rankOf (fval .f32 b) < rankOf (fval .f32 a)) : fminPre .f32 up a b = (if up then a else b, 0) := by
  rw [fminPre_numbers up ha.isNan hb.isNan, lessV_of_gt ha hb h, lessV_of_lt hb ha h]
  rfl

end ranked

theorem fminPre_same (ha : (fval .f32 a).isNan = false) : fminPre .f32 up a a = (a, 0) := by
  rw [fminPre_numbers up ha ha]
  simp

theorem fminVal_present (ai : Bool) (ha : isAbsent .f32 a = false) (hb : isAbsent .f32 b = false) : fminVal .f32 up ai a b = fminPre .f32 up a b := by
  rw [fminVal, withAbsent_present (by simp [ha, hb])]
  rfl

/-- The infinity that no number is beyond, which stands for an absent operand under `.ai` (R95). -/
def farCode (up : Bool) : Nat := if up then 0xFF800000 else 0x7F800000

theorem fminId_eq : fminId .f32 up = farCode up := by cases up <;> rfl

theorem fval_farCode : fval .f32 (farCode up) = .inf up := by cases up <;> decide

theorem isAbsent_farCode : isAbsent .f32 (farCode up) = false := by cases up <;> rfl

variable {ai : Bool}

theorem fminVal_absents (ha : isAbsent .f32 a = true) (hb : isAbsent .f32 b = true) : fminVal .f32 up ai a b = (0xFFFFFFFF, 0) := withAbsent_both ha hb

theorem fminVal_absent_left (ha : isAbsent .f32 a = true) (hb : isAbsent .f32 b = false) :
    fminVal .f32 up ai a b = if ai then fminPre .f32 up (farCode up) b else (0xFFFFFFFF, AP) := by
  rw [fminVal, withAbsent_left ha hb]
  simp only [List.zip_cons_cons, List.map_cons, ha, hb, fminId_eq]
  rfl

theorem fminVal_absent_right (ha : isAbsent .f32 a = false) (hb : isAbsent .f32 b = true) :
    fminVal .f32 up ai a b = if ai then fminPre .f32 up a (farCode up) else (0xFFFFFFFF, AP) := by
  rw [fminVal, withAbsent_right ha hb]
  simp only [List.zip_cons_cons, List.map_cons, ha, hb, fminId_eq]
  rfl

/-- A value other than the far infinity lies on the near side of it. -/
theorem rankOf_far {x : FVal} (hx : Ranked x) (hne : x ≠ .inf up) :
    if up then rankOf (.inf up) < rankOf x else rankOf x < rankOf (.inf up) := by
  rcases hx with ⟨hx, hxb⟩ | ⟨n, rfl⟩
  · obtain ⟨hlo, hhi⟩ := abs_lt.mp hxb
    rw [rankOf_of_isFin hx]
    cases up
    · exact hhi
    · exact hlo
  · obtain rfl : n = !up := by cases up <;> cases n <;> simp at hne ⊢
    cases up <;> norm_num [rankOf]

/-- The far infinity leaves the other operand as it is, on either side, and takes the place of a NaN (R95). -/
theorem fminPre_far {a : Word} (habs : fval .f32 a.toNat ≠ .absent) :
    fminPre .f32 up a.toNat (farCode up) = fminPre .f32 up (farCode up) a.toNat ∧
    ((fval .f32 a.toNat).isNan = false → fminPre .f32 up (farCode up) a.toNat = (a.toNat, 0)) ∧
    ((fval .f32 a.toNat).isNan = true →
      fminPre .f32 up (farCode up) a.toNat = (farCode up, if (fval .f32 a.toNat).isSig then NV else 0)) := by
  have hfar := fval_farCode up
  cases hnan : (fval .f32 a.toNat).isNan
  · by_cases hinf : fval .f32 a.toNat = .inf up
    · have heq : a.toNat = farCode up := (eq_of_fval_inf (t := .f32) a.isLt hinf).trans (by cases up <;> rfl)
      have hsame := fminPre_same up (a := farCode up) (by rw [hfar]; rfl)
      rw [heq, hsame]
      simp
    · have hx := ranked_f32 habs hnan
      have hy : Ranked (fval .f32 (farCode up)) := hfar ▸ .inr ⟨up, rfl⟩
      have hrank := rankOf_far up hx hinf
      rw [← hfar] at hrank
      cases up
      · simp [fminPre_lt false hx hy hrank, fminPre_gt false hy hx hrank]
      · simp [fminPre_gt true hx hy hrank, fminPre_lt true hy hx hrank]
  · have hinf : FVal.isNan (.inf up) = false := rfl
    have hsig : FVal.isSig (.inf up) = false := rfl
    simp [fminPre, hnan, hfar, hinf, hsig, flagIf]

end select

/-! ### FSET (R154) -/

/-- The conditions of FSET on two values that are no NaN, by their places. -/
def placeHolds (x y : ℚ) (cnd : Nat) : Bool :=
  match cnd with
  | 0 => decide (x = y)
  | 1 => decide (x ≠ y)
  | 2 => decide (x < y)
  | 3 => decide (x ≤ y)
  | 4 => decide (y < x)
  | 5 => decide (y ≤ x)
  | 6 => true
  | _ => false

/-- FSET of present values: by whether one is a NaN or a signalling one, and the sign of the difference. -/
def setBy (nan sig : Bool) (c : Int) (cnd : Nat) : Res :=
  match cnd with
  | 0 => (b2n (!nan && c == 0), flagIf sig NV)
  | 1 => (b2n (nan || c != 0), flagIf sig NV)
  | 2 => (b2n (!nan && c < 0), flagIf nan NV)
  | 3 => (b2n (!nan && c ≤ 0), flagIf nan NV)
  | 4 => (b2n (!nan && 0 < c), flagIf nan NV)
  | 5 => (b2n (!nan && 0 ≤ c), flagIf nan NV)
  | 6 => (b2n (!nan), flagIf sig NV)
  | _ => (b2n nan, flagIf sig NV)

theorem fsetVal_absent {t : Ty} {a b : Nat} (h : fval t a = .absent ∨ fval t b = .absent) (cnd : Nat) : fsetVal t cnd a b = (0, 0) := by
  unfold fsetVal
  split
  · rfl
  · rfl
  · next ha hb => exact (h.elim ha hb).elim

theorem fsetVal_present {t : Ty} {a b : Nat} (ha : fval t a ≠ .absent) (hb : fval t b ≠ .absent) (cnd : Nat) :
    fsetVal t cnd a b = setBy ((fval t a).isNan || (fval t b).isNan) ((fval t a).isSig || (fval t b).isSig) (cmpV (fval t a) (fval t b)) cnd := by
  unfold fsetVal
  split
  · exact absurd ‹_› ha
  · exact absurd ‹_› hb
  · rfl

theorem setBy_ranked {x y : FVal} (hx : Ranked x) (hy : Ranked y) (cnd : Nat) :
    setBy false false (cmpV x y) cnd = (b2n (placeHolds (rankOf x) (rankOf y) cnd), 0) := by
  have hneg := cmpV_neg_iff hx hy
  have hzero := cmpV_zero_iff hx hy
  have hpos := cmpV_pos_iff hx hy
  match cnd with
  | 0 => simp [setBy, placeHolds, hzero, flagIf, beq_eq_decide]
  | 1 => simp [setBy, placeHolds, hzero, flagIf, bne, beq_eq_decide]
  | 2 => simp [setBy, placeHolds, hneg, flagIf]
  | 3 => simp [setBy, placeHolds, ← not_lt, hpos, flagIf]
  | 4 => simp [setBy, placeHolds, hpos, flagIf]
  | 5 => simp [setBy, placeHolds, ← not_lt, hneg, flagIf]
  | 6 | _ + 7 => rfl

theorem setBy_nan (sig : Bool) (c : Int) {cnd : Nat} (h : cnd < 8) :
    setBy true sig c cnd = (b2n (cnd == 1 || cnd == 7), if sig || (decide (2 ≤ cnd) && decide (cnd ≤ 5)) then NV else 0) := by
  interval_cases cnd <;> cases sig <;> rfl

/-! ### FCLASS (R155) -/

/-- The class of a value as its one bit's number. -/
def classOf (f : FFmt) : FVal → Nat
  | .inf n => if n then 0 else 7
  | .nan sg => if sg then 8 else 9
  | .absent => 10
  | .fin n m _ =>
    if m = 0 then (if n then 3 else 4)
    else if m < 2 ^ f.mb then (if n then 2 else 5)
    else (if n then 1 else 6)

theorem fclassVal_eq (t : Ty) (n : Nat) : fclassVal t n = 2 ^ classOf (ffmt t) (fval t n) := by
  unfold fclassVal classOf
  cases fval t n <;> simp only <;> split_ifs <;> rfl

/-- The class by the fields of a pattern. -/
theorem classOf_parts (f : FFmt) (neg : Bool) (mag : Nat) :
    let ex := mag / 2 ^ f.mb
    let fr := mag % 2 ^ f.mb
    classOf f (f.parts neg mag) =
      if neg = true ∧ mag = 2 ^ (f.eb + f.mb) - 1 then 10
      else if f.hasInf = true ∧ ex = 2 ^ f.eb - 1 then (if fr = 0 then (if neg then 0 else 7) else if natBit fr (f.mb - 1) then 9 else 8)
      else if f.hasInf = false ∧ mag = 2 ^ (f.eb + f.mb) - 1 then 9
      else if ex = 0 then (if fr = 0 then (if neg then 3 else 4) else if neg then 2 else 5)
      else if neg then 1 else 6 := by
  have hfr := Nat.mod_lt mag (Nat.two_pow_pos f.mb)
  simp only [FFmt.parts, Bool.not_eq_true]
  by_cases habs : neg = true ∧ mag = 2 ^ (f.eb + f.mb) - 1
  · rw [if_pos habs, if_pos habs]; rfl
  rw [if_neg habs, if_neg habs]
  by_cases hinf : f.hasInf = true ∧ mag / 2 ^ f.mb = 2 ^ f.eb - 1
  · rw [if_pos hinf, if_pos hinf]
    split_ifs <;> simp_all [classOf]
  rw [if_neg hinf, if_neg hinf]
  by_cases hnan : f.hasInf = false ∧ mag = 2 ^ (f.eb + f.mb) - 1
  · rw [if_pos hnan, if_pos hnan]; rfl
  rw [if_neg hnan, if_neg hnan, classOf, FFmt.mant]
  by_cases hex : mag / 2 ^ f.mb = 0
  · rw [if_pos hex, if_pos hex, if_pos hfr]
  · rw [if_neg hex, if_neg hex, if_neg (by omega), if_neg (by omega)]

/-- A float type, with the widths of its exponent and its fraction. -/
theorem format_of_mem {t : Ty} {eb mb : Nat} (h : (t, eb, mb) ∈ [(Ty.f32, 8, 23), (.f16, 5, 10), (.bf16, 8, 7), (.e4m3, 4, 3), (.e5m2, 5, 2)]) :
    tyKind t = .flt ∧ (ffmt t).eb = eb ∧ (ffmt t).mb = mb ∧ (ffmt t).hasInf = (t != .e4m3) ∧ (t = .e4m3 → eb = 4 ∧ mb = 3) ∧
      (ffmt t).qmin = 2 - 2 ^ (eb - 1) - mb := by
  simp only [List.mem_cons, Prod.mk.injEq, List.not_mem_nil, or_false] at h
  rcases h with ⟨rfl, rfl, rfl⟩ | ⟨rfl, rfl, rfl⟩ | ⟨rfl, rfl, rfl⟩ | ⟨rfl, rfl, rfl⟩ | ⟨rfl, rfl, rfl⟩ <;> decide

/-- A magnitude's exponent and fraction, as fields of the whole pattern. -/
theorem magnitude_fields (n eb mb : Nat) : n % 2 ^ (eb + mb) / 2 ^ mb = n / 2 ^ mb % 2 ^ eb ∧ n % 2 ^ (eb + mb) % 2 ^ mb = n % 2 ^ mb := by
  rw [add_comm eb mb, pow_add]
  exact ⟨Nat.mod_mul_right_div_self .., Nat.mod_mul_right_mod ..⟩

/-- Where the exponent field leaves the numbers: all ones, and of e4m3 with a fraction of all ones too (R90). -/
theorem topField_iff {t : Ty} {eb mb : Nat} (hinf : (ffmt t).hasInf = (t != .e4m3)) (he4 : t = .e4m3 → eb = 4 ∧ mb = 3) (mag : Nat) :
    (decide (mag / 2 ^ mb = 2 ^ eb - 1) && (t != .e4m3 || mag % 2 ^ mb == 7)) = true ↔
      ((ffmt t).hasInf = true ∧ mag / 2 ^ mb = 2 ^ eb - 1) ∨ ((ffmt t).hasInf = false ∧ mag = 2 ^ (eb + mb) - 1) := by
  rw [hinf]
  by_cases ht : t = .e4m3
  · obtain ⟨rfl, rfl⟩ := he4 ht
    simp [ht]
    omega
  · simp [ht]

theorem numOf_of_fields {f : FFmt} {mag : Nat} (neg : Bool) : numOf (.fin neg (f.mant mag) (f.expo mag)) =
    let magnitude : ℚ := if mag / 2 ^ f.mb = 0 then ((mag % 2 ^ f.mb : Nat) : ℚ) * 2 ^ f.qmin
      else (2 ^ f.mb + (mag % 2 ^ f.mb : Nat) : ℚ) * 2 ^ ((mag / 2 ^ f.mb : Nat) - 1 + f.qmin)
    if neg then -magnitude else magnitude := by
  rw [numOf_fin, FFmt.mant, FFmt.expo]
  have hsgn (x : ℚ) : (sgn neg : ℚ) * x = if neg then -x else x := by cases neg <;> simp [sgn]
  simp only [hsgn]
  by_cases hex : mag / 2 ^ f.mb = 0
  · simp [hex]
  · have hexp : f.qmin + ((mag / 2 ^ f.mb - 1 : Nat) : ℤ) = (mag / 2 ^ f.mb : Nat) - 1 + f.qmin := by
      generalize mag / 2 ^ f.mb = q at hex ⊢
      omega
    rw [if_neg hex, if_neg hex, hexp]
    push_cast
    rfl

/-- FCLASS and the value of a pattern, by its fields (R90, R155). -/
theorem fclass_by_fields {t : Ty} {eb mb n : Nat}
    (hmem : (t, eb, mb) ∈ [(Ty.f32, 8, 23), (.f16, 5, 10), (.bf16, 8, 7), (.e4m3, 4, 3), (.e5m2, 5, 2)]) (hn : n < 2 ^ (1 + eb + mb)) :
    let neg := natBit n (eb + mb)
    let ex := n / 2 ^ mb % 2 ^ eb
    let fr := n % 2 ^ mb
    let top := decide (ex = 2 ^ eb - 1) && (t != .e4m3 || fr == 7)
    let magnitude : ℚ := if ex = 0 then (fr : ℚ) * 2 ^ (2 - 2 ^ (eb - 1) - mb : ℤ) else (2 ^ mb + fr : ℚ) * 2 ^ (ex + 1 - 2 ^ (eb - 1) - mb : ℤ)
    fclassVal t n = 2 ^ (
      if n = 2 ^ (1 + eb + mb) - 1 then 10
      else if top then (if fr = 0 then (if neg then 0 else 7) else if natBit fr (mb - 1) then 9 else 8)
      else if ex = 0 then (if fr = 0 then (if neg then 3 else 4) else if neg then 2 else 5)
      else if neg then 1 else 6) ∧
    (top = false → isFin (fval t n) = true ∧ negOf (fval t n) = neg ∧ numOf (fval t n) = if neg then -magnitude else magnitude) := by
  obtain ⟨hk, rfl, rfl, hinf, he4, hqmin⟩ := format_of_mem hmem
  obtain ⟨hex, hfr⟩ := magnitude_fields n (ffmt t).eb (ffmt t).mb
  have hlt := Nat.mod_lt n (Nat.two_pow_pos ((ffmt t).eb + (ffmt t).mb))
  have hones : n = 2 ^ (1 + (ffmt t).eb + (ffmt t).mb) - 1 ↔
      natBit n ((ffmt t).eb + (ffmt t).mb) = true ∧ n % 2 ^ ((ffmt t).eb + (ffmt t).mb) = 2 ^ ((ffmt t).eb + (ffmt t).mb) - 1 := by
    rw [← mod_succ_ones_iff, Nat.mod_eq_of_lt (by rwa [add_comm, ← add_assoc]), add_comm _ 1, add_assoc]
  have htop := topField_iff hinf he4 (n % 2 ^ ((ffmt t).eb + (ffmt t).mb))
  simp only [← hex, ← hfr, hones]
  rw [fclassVal_eq, fval_eq_parts]
  generalize n % 2 ^ ((ffmt t).eb + (ffmt t).mb) = mag at *
  generalize natBit n ((ffmt t).eb + (ffmt t).mb) = neg at *
  refine ⟨?_, fun hnum => ?_⟩
  · rw [classOf_parts]
    congr 1
    refine if_congr Iff.rfl rfl ?_
    by_cases ht : (decide (mag / 2 ^ (ffmt t).mb = 2 ^ (ffmt t).eb - 1) && (t != .e4m3 || mag % 2 ^ (ffmt t).mb == 7)) = true
    · rw [if_pos ht]
      rcases htop.mp ht with h | h
      · rw [if_pos h]
      · obtain ⟨heb, hmb⟩ := he4 (by simpa [hinf] using h.1)
        rw [heb, hmb] at h ⊢
        simp [h, natBit]
    · obtain ⟨h1, h2⟩ := not_or.mp (mt htop.mpr ht)
      rw [if_neg ht, if_neg h1, if_neg h2]
  · obtain ⟨h1, h2⟩ := not_or.mp (mt htop.mpr (by rw [hnum]; decide))
    have hc : mag ≤ (ffmt t).maxCode := by
      cases hi : (ffmt t).hasInf
      · have hne : mag ≠ 2 ^ ((ffmt t).eb + (ffmt t).mb) - 1 := fun h => h2 ⟨hi, h⟩
        rw [FFmt.maxCode, hi, if_neg (by decide)]
        omega
      · have hne : mag / 2 ^ (ffmt t).mb ≠ 2 ^ (ffmt t).eb - 1 := fun h => h1 ⟨hi, h⟩
        have hle : mag / 2 ^ (ffmt t).mb < 2 ^ (ffmt t).eb := by rwa [Nat.div_lt_iff_lt_mul (Nat.two_pow_pos _), ← pow_add]
        rw [le_maxCode_iff _ hi (ffmt_eb_pos t)]
        omega
    rw [parts_fin _ (ffmt_eb_pos t) hc]
    refine ⟨rfl, rfl, (numOf_of_fields neg).trans ?_⟩
    simp only [hqmin]
    have hexp : ((mag / 2 ^ (ffmt t).mb : Nat) : ℤ) - 1 + (2 - 2 ^ ((ffmt t).eb - 1) - (ffmt t).mb) =
        (mag / 2 ^ (ffmt t).mb : Nat) + 1 - 2 ^ ((ffmt t).eb - 1) - (ffmt t).mb := by ring
    rw [hexp]

/-! ### FABS and FNEG (R152) -/

theorem fsignVal_number {t : Ty} {a : Nat} (habs : fval t a ≠ .absent) (hnan : (fval t a).isNan = false) (neg : Bool) :
    fsignVal t neg a = (if neg then (if natBit a ((ffmt t).eb + (ffmt t).mb) then a % 2 ^ ((ffmt t).eb + (ffmt t).mb)
      else a + 2 ^ ((ffmt t).eb + (ffmt t).mb)) else a % 2 ^ ((ffmt t).eb + (ffmt t).mb), 0) := by
  unfold fsignVal
  split
  · exact absurd ‹_› habs
  · next sg h => simp [h, FVal.isNan] at hnan
  · rfl

/-- The sign bit alone, cleared and turned over. -/
theorem clear_sign (a : Word) : (a &&& 0x7FFFFFFF#32).toNat = a.toNat % 2 ^ 31 := by
  rw [BitVec.toNat_and]
  exact Nat.and_two_pow_sub_one_eq_mod a.toNat 31

theorem flip_sign (a : Word) : (a ^^^ 0x80000000#32).toNat = if natBit a.toNat 31 then a.toNat % 2 ^ 31 else a.toNat + 2 ^ 31 := by
  have hlt := a.isLt
  have hsplit := Nat.div_add_mod (a.toNat ^^^ 2 ^ 31) (2 ^ 31)
  rw [Nat.xor_mod_two_pow, Nat.xor_div_two_pow, Nat.mod_self, Nat.xor_zero, Nat.div_self (Nat.two_pow_pos 31)] at hsplit
  rw [BitVec.toNat_xor, show (0x80000000#32).toNat = 2 ^ 31 from rfl, ← hsplit]
  have hbit : a.toNat / 2 ^ 31 = 0 ∨ a.toNat / 2 ^ 31 = 1 := by omega
  rcases hbit with h | h
  · simp only [natBit, h]
    simp
    omega
  · simp only [natBit, h]
    simp

section words
variable {a b : Word}

theorem isAbsent_of_present (h : fval .f32 a.toNat ≠ .absent) : isAbsent .f32 a.toNat = false :=
  Bool.eq_false_iff.mpr (mt (fval_absent_iff rfl a.isLt).mpr h)

/-- FMIN and FMAX of present operands: the lesser and the greater one, the other one beside a NaN, and the canonical NaN of two (R153). -/
theorem fminVal_selects (ha : fval .f32 a.toNat ≠ .absent) (hb : fval .f32 b.toNat ≠ .absent) (up ai : Bool) :
    let x := fval .f32 a.toNat
    let y := fval .f32 b.toNat
    let m := fminVal .f32 up ai a.toNat b.toNat
    (x.isNan = false → y.isNan = false → (rankOf x < rankOf y → m = ((if up then b else a).toNat, 0)) ∧
      (rankOf y < rankOf x → m = ((if up then a else b).toNat, 0)) ∧ (a = b → m = (a.toNat, 0))) ∧
    (x.isNan = true → y.isNan = false → m.1 = b.toNat) ∧
    (x.isNan = false → y.isNan = true → m.1 = a.toNat) ∧
    (x.isNan = true → y.isNan = true → m.1 = 0x7FC00000) ∧
    m.2 = if x.isSig || y.isSig then NV else 0 := by
  intro x y m
  have hm : m = fminPre .f32 up a.toNat b.toNat := fminVal_present up ai (isAbsent_of_present ha) (isAbsent_of_present hb)
  rw [hm, apply_ite BitVec.toNat, apply_ite BitVec.toNat]
  refine ⟨fun nx ny => ?_, fun nx ny => ?_, fun nx ny => ?_, fun nx ny => ?_, fminPre_flags up⟩
  · have rx : Ranked x := ranked_f32 ha nx
    have ry : Ranked y := ranked_f32 hb ny
    exact ⟨fminPre_lt up rx ry, fminPre_gt up rx ry, fun h => h ▸ fminPre_same up nx⟩
  · simp only [fminPre, x, y, nx, ny]
  · simp only [fminPre, x, y, nx, ny]
  · simp only [fminPre, x, y, nx, ny]; rfl

/-- FSET of present operands that are no NaN tests its condition on their places (R154). -/
theorem fsetVal_numbers (ha : fval .f32 a.toNat ≠ .absent) (hb : fval .f32 b.toNat ≠ .absent) (na : (fval .f32 a.toNat).isNan = false)
    (nb : (fval .f32 b.toNat).isNan = false) (cnd : Nat) :
    fsetVal .f32 cnd a.toNat b.toNat = (b2n (placeHolds (rankOf (fval .f32 a.toNat)) (rankOf (fval .f32 b.toNat)) cnd), 0) := by
  rw [fsetVal_present ha hb, na, nb, isSig_of_isNan na, isSig_of_isNan nb]
  exact setBy_ranked (ranked_f32 ha na) (ranked_f32 hb nb) cnd

/-- FMIN and FMAX of an absent operand and a present one (R95, R98). -/
theorem fminVal_beside_absent (ha : fval .f32 a.toNat ≠ .absent) (up : Bool) :
    let far := fminVal .f32 up false (farCode up)
    (fminVal .f32 up false 0xFFFFFFFF a.toNat = (0xFFFFFFFF, AP) ∧ fminVal .f32 up false a.toNat 0xFFFFFFFF = (0xFFFFFFFF, AP)) ∧
    (fminVal .f32 up true 0xFFFFFFFF a.toNat = far a.toNat ∧ fminVal .f32 up true a.toNat 0xFFFFFFFF = far a.toNat) ∧
    ((fval .f32 a.toNat).isNan = false → far a.toNat = (a.toNat, 0)) ∧
    ((fval .f32 a.toNat).isNan = true → far a.toNat = (farCode up, if (fval .f32 a.toNat).isSig then NV else 0)) := by
  have gone : isAbsent .f32 0xFFFFFFFF = true := rfl
  have here := isAbsent_of_present ha
  obtain ⟨hcomm, hnum, hnan⟩ := fminPre_far up ha
  have hfar := fminVal_present (a := farCode up) up false (isAbsent_farCode up) here
  exact ⟨⟨fminVal_absent_left up gone here, fminVal_absent_right up here gone⟩,
    ⟨(fminVal_absent_left up gone here).trans hfar.symm, (fminVal_absent_right up here gone).trans (hcomm.trans hfar.symm)⟩,
    fun na => hfar.trans (hnum na), fun na => hfar.trans (hnan na)⟩

end words

/-- Settles O17: selections and comparisons by the places of the values, classes and values by the fields of a pattern, and the sign bit. -/
theorem floatSelectionsAndSigns : Obligations.FloatSelectionsAndSigns := by
  unfold Obligations.FloatSelectionsAndSigns
  intro a b x y sig
  refine ⟨fun hx hy up ai => fminVal_selects hx hy up ai, by decide, fun cnd hcnd => ⟨fun h => fsetVal_absent h cnd, fun hx hy => ⟨?_, ?_⟩⟩,
    fun up => ⟨fminVal_absents up rfl rfl, fminVal_absents up rfl rfl, fun hx => fminVal_beside_absent hx up⟩,
    fun t eb mb n hmem hn => fclass_by_fields hmem hn, fun hx nx => ⟨?_, ?_⟩⟩
  · exact fun nx ny => fsetVal_numbers hx hy nx ny cnd
  · intro hnan
    have hor : (x.isNan || y.isNan) = true := Bool.or_eq_true_iff.mpr hnan
    rw [fsetVal_present hx hy, hor]
    exact setBy_nan sig _ hcnd
  · exact (fsignVal_number hx nx true).trans (by rw [flip_sign]; rfl)
  · exact (fsignVal_number hx nx false).trans (by rw [clear_sign]; rfl)

end Sys2Proof.Machine
end

section
/-! PROOFS. The shared exponent of a block and the scale of a record (spec/04 R109 to R112; spec/06 R159, R160). -/

namespace Sys2Proof.Machine

open Sys2Proof.Claims

/-! ### The shared exponent of a block (R109) -/

/-- The exponent of a number's leading bit. -/
def leadOf : FVal → ℤ
  | .fin _ m e => flog2 m 1 + e
  | _ => 0

/-- A float value that is a number other than 0. -/
def isNonzero (x : FVal) : Bool := isFin x && decide (numOf x ≠ 0)

theorem leadOf_le_iff {x : FVal} (h : isNonzero x = true) (c : ℤ) : leadOf x ≤ c ↔ |numOf x| < (2 : ℚ) ^ (c + 1) := by
  cases x with
  | fin neg m e =>
    have hm : 0 < m := Nat.pos_of_ne_zero (mt numOf_eq_zero_iff.mpr (by simpa [isNonzero, isFin] using h))
    have hle := flog2_le_iff hm one_pos (c - e)
    have habs : |numOf (.fin neg m e)| = m * 2 ^ e := by
      have := two_zpow_pos e
      rw [numOf_fin, abs_mul, abs_sgn, one_mul, abs_of_nonneg (by positivity)]
    rw [habs, ← lt_div_iff₀ (two_zpow_pos e), ← zpow_sub₀ two_ne_zero, leadOf, ← le_sub_iff_add_le, hle, Nat.cast_one, div_one]
    ring_nf
  | _ => simp [isNonzero, isFin] at h

/-- The exponents of the numbers other than 0 among the patterns of a block. -/
def blockExponents (t : Ty) (xs : List Nat) : List ℤ := (xs.filter (fun n => isNonzero (fval t n))).map (fun n => leadOf (fval t n))

theorem filterMap_blockExponents {t : Ty} {g : Nat → Option ℤ} (hg : ∀ x, g x = if isNonzero (fval t x) then some (leadOf (fval t x)) else none)
    (xs : List Nat) : xs.filterMap g = blockExponents t xs := by
  rw [blockExponents, ← List.filterMap_eq_map, List.filterMap_filter]
  exact List.filterMap_congr (fun x _ => hg x)

/-- The target formats' greatest exponents (R109). -/
def targetExp (target : Nat) : ℤ := if target = 0 then 8 else if target = 1 then 15 else 6

theorem bexpVal_eq (t : Ty) (xs : List Nat) (p target : Nat) :
    bexpVal t xs p target =
      if (blockExponents t xs).isEmpty then 0xFF
      else (clampInt (-127) 127 (((blockExponents t xs).mergeSort (fun a b => a ≤ b)).getD (ceilDiv ((blockExponents t xs).length * p) 64 - 1) 0
        - targetExp target) + 127).toNat := by
  simp only [bexpVal]
  rw [filterMap_blockExponents]
  · match target with
    | 0 | 1 | _ + 2 => rfl
  · intro x
    cases h : fval t x with
    | fin neg m e =>
      by_cases hm : m = 0 <;> simp [isNonzero, isFin, numOf_eq_zero_iff, hm, leadOf]
    | _ => simp [isNonzero, isFin]

/-- Of a list in ascending order, more than `i` members do not exceed its `i`-th one, and at most `i` lie below it. -/
theorem count_of_sorted {l : List ℤ} (hs : l.Pairwise (· ≤ ·)) {i : Nat} (hi : i < l.length) :
    i < l.countP (· ≤ l[i]) ∧ l.countP (· ≤ l[i] - 1) ≤ i := by
  rw [List.pairwise_iff_getElem] at hs
  constructor
  · have hall : ∀ x ∈ l.take (i + 1), decide (x ≤ l[i]) = true := by
      intro x hx
      obtain ⟨j, hj, rfl⟩ := List.mem_take_iff_getElem.mp hx
      rcases (show j ≤ i by omega).lt_or_eq with h | rfl
      · exact decide_eq_true (hs j i (by omega) hi h)
      · exact decide_eq_true le_rfl
    calc i < (l.take (i + 1)).length := by simp; omega
      _ = (l.take (i + 1)).countP (· ≤ l[i]) := (List.countP_eq_length.mpr hall).symm
      _ ≤ l.countP (· ≤ l[i]) := (List.take_sublist ..).countP_le
  · have hnone : (l.drop i).countP (· ≤ l[i] - 1) = 0 := by
      refine List.countP_eq_zero.mpr (fun x hx => ?_)
      obtain ⟨j, hj, rfl⟩ := List.getElem_of_mem hx
      rw [List.length_drop] at hj
      rw [List.getElem_drop, decide_eq_true_iff]
      have hle : l[i] ≤ l[i + j] := by
        rcases Nat.eq_zero_or_pos j with rfl | hpos
        · exact le_rfl
        · exact hs i (i + j) hi (by omega) (by omega)
      omega
    calc l.countP (· ≤ l[i] - 1) = (l.take i ++ l.drop i).countP (· ≤ l[i] - 1) := by rw [List.take_append_drop]
      _ = (l.take i).countP (· ≤ l[i] - 1) := by rw [List.countP_append, hnone, add_zero]
      _ ≤ (l.take i).length := List.countP_le_length
      _ ≤ i := by simp

/-- The share of a block of `n` numbers that a clip of p/64 asks for, rounded up. -/
theorem ceilDiv_clip {n p : Nat} (hn : 0 < n) (h1 : 1 ≤ p) (h64 : p ≤ 64) :
    1 ≤ ceilDiv (n * p) 64 ∧ ceilDiv (n * p) 64 ≤ n ∧ n * p ≤ 64 * ceilDiv (n * p) 64 ∧ 64 * (ceilDiv (n * p) 64 - 1) < n * p := by
  have hpos : 1 * 1 ≤ n * p := Nat.mul_le_mul hn h1
  have hle : n * p ≤ n * 64 := Nat.mul_le_mul_left n h64
  unfold ceilDiv
  omega

/-- How many numbers of a block have a magnitude below 2^(c+1). -/
theorem countP_blockExponents (t : Ty) (xs : List Nat) (c : ℤ) :
    (blockExponents t xs).countP (· ≤ c) =
      ((xs.filter (fun n => isNonzero (fval t n))).filter (fun n => decide (|numOf (fval t n)| < (2 : ℚ) ^ (c + 1)))).length := by
  rw [blockExponents, List.countP_map, List.countP_eq_length_filter]
  congr 1
  refine List.filter_congr (fun n hn => ?_)
  exact decide_eq_decide.mpr (leadOf_le_iff (List.mem_filter.mp hn).2 c)

/-- BEXP of a block with a number other than 0 (R109). -/
theorem bexpVal_spec (t : Ty) (xs : List Nat) {p : Nat} (target : Nat) (h1 : 1 ≤ p) (h64 : p ≤ 64) (hne : blockExponents t xs ≠ []) :
    ∃ c : ℤ, (blockExponents t xs).length * p ≤ 64 * (blockExponents t xs).countP (· ≤ c) ∧
      64 * (blockExponents t xs).countP (· ≤ c - 1) < (blockExponents t xs).length * p ∧
      (bexpVal t xs p target : ℤ) = max (-127) (min 127 (c - targetExp target)) + 127 := by
  have hempty : ¬ (blockExponents t xs).isEmpty = true := by simpa using hne
  rw [bexpVal_eq, if_neg hempty]
  generalize blockExponents t xs = es at *
  obtain ⟨hpos, hle, hlo, hhi⟩ := ceilDiv_clip (List.length_pos_iff.mpr hne) h1 h64
  generalize ceilDiv (es.length * p) 64 = need at *
  have hperm := List.mergeSort_perm es (fun a b => decide (a ≤ b))
  have hsorted : (es.mergeSort (fun a b => decide (a ≤ b))).Pairwise (· ≤ ·) := List.pairwise_mergeSort' (· ≤ ·) es
  generalize es.mergeSort (fun a b => decide (a ≤ b)) = l at *
  have hi : need - 1 < l.length := by rw [hperm.length_eq]; omega
  obtain ⟨hmany, hfew⟩ := count_of_sorted hsorted hi
  rw [hperm.countP_eq] at hmany hfew
  refine ⟨l[need - 1], by omega, by omega, ?_⟩
  rw [List.getD_eq_getElem _ _ hi, Int.toNat_of_nonneg (by unfold clampInt; omega)]
  rfl

/-! ### The scale of a record (R110, R112) -/

/-- The entries of a record that are in it, the last one recorded first. -/
def ScaleRec.entries (r : ScaleRec) : List FVal := (List.range r.v).map (fun i => fval .f32 (r.ent.getD ((r.wi + 15 - i) % 16) 0#32).toNat)

/-- The entries as AMXGET collects them, by their places in the record. -/
def ScaleRec.present (r : ScaleRec) : List FVal :=
  (r.ent.drop 0).zipIdx.filterMap (fun p => if (r.wi + 16 - 1 - p.2) % 16 < r.v then some (fval .f32 p.1.toNat) else none)

theorem ScaleRec.mem_present {r : ScaleRec} (hlen : r.ent.length = 16) (hwi : r.wi < 16) (hv : r.v ≤ 16) (x : FVal) :
    x ∈ r.present ↔ x ∈ r.entries := by
  simp only [ScaleRec.present, ScaleRec.entries, List.drop_zero, List.mem_filterMap, List.mem_map, List.mem_range, Prod.exists,
    List.mem_zipIdx_iff_getElem?]
  constructor
  · rintro ⟨w, j, hj, hx⟩
    have hlt : j < 16 := hlen ▸ (List.getElem?_eq_some_iff.mp hj).1
    split at hx
    · next hin =>
      have hback : (r.wi + 15 - (r.wi + 16 - 1 - j) % 16) % 16 = j := by omega
      refine ⟨_, hin, ?_⟩
      rw [hback, List.getD_eq_getElem?_getD, hj]
      exact Option.some.inj hx
    · exact absurd hx (by simp)
  · rintro ⟨i, hi, rfl⟩
    have hlt : (r.wi + 15 - i) % 16 < r.ent.length := by omega
    have hback : (r.wi + 16 - 1 - (r.wi + 15 - i) % 16) % 16 = i := by omega
    refine ⟨r.ent[(r.wi + 15 - i) % 16], (r.wi + 15 - i) % 16, List.getElem?_eq_getElem hlt, ?_⟩
    rw [hback, if_pos hi, List.getD_eq_getElem _ _ hlt]

theorem foldl_max_spec {α : Type} (g : α → Nat) (l : List α) (a : Nat) :
    let m := l.foldl (fun a v => max a (g v)) a
    a ≤ m ∧ (∀ v ∈ l, g v ≤ m) ∧ (m = a ∨ ∃ v ∈ l, m = g v) := by
  induction l generalizing a with
  | nil => simp
  | cons x l ih =>
    obtain ⟨hge, hall, hsome⟩ := ih (max a (g x))
    simp only [List.foldl_cons, List.mem_cons, forall_eq_or_imp, exists_eq_or_imp]
    generalize l.foldl (fun a v => max a (g v)) (max a (g x)) = m at *
    refine ⟨by omega, ⟨by omega, hall⟩, ?_⟩
    rcases hsome with h | h
    · omega
    · exact .inr (.inr h)

/-- The scale's exponent, in terms of the entries present and the greatest of them as a multiple of 2^k (R112). -/
theorem amxScale_eq (r : ScaleRec) (t : Ty) :
    amxScale r t =
      let k := minExp r.present 0
      let m := r.present.foldl (fun a v => max a (sumAt k [v]).toNat) 0
      let q := (targetMax t).2 - k
      if r.present.any (fun v => v == .inf false) then -127
      else if r.v = 0 then 0
      else if m = 0 then 127
      else clampInt (-127) 127 (flog2 (shiftUp (targetMax t).1 q) (shiftDn m q)) := rfl

/-- The greatest entry of a record of numbers that are not negative. -/
theorem greatest_entry {vs : List FVal} (h : ∀ x ∈ vs, isFin x = true ∧ negOf x = false) :
    let k := minExp vs 0
    let m := vs.foldl (fun a v => max a (sumAt k [v]).toNat) 0
    (∀ x ∈ vs, numOf x ≤ m * 2 ^ k) ∧ (m = 0 ∨ ∃ x ∈ vs, numOf x = m * 2 ^ k) := by
  intro k m
  have hval : ∀ x ∈ vs, numOf x = (sumAt k [x]).toNat * 2 ^ k := by
    intro x hx
    have hsum := sumAt_eq (k := k) (xs := [x]) (fun neg m e hmem => (minExp_le vs 0).2 neg m e (by simpa [List.mem_singleton.mp hmem] using hx))
    have hnonneg : 0 ≤ sumAt k [x] := by
      obtain ⟨hfin, hneg⟩ := h x hx
      cases x with
      | fin neg m e =>
        obtain rfl : neg = false := hneg
        simp [sumAt]
      | _ => simp [isFin] at hfin
    rw [List.map_cons, List.map_nil, List.sum_cons, List.sum_nil, add_zero] at hsum
    rw [← hsum, ← Int.cast_natCast, Int.toNat_of_nonneg hnonneg]
  obtain ⟨-, hall, hsome⟩ := foldl_max_spec (fun v => (sumAt k [v]).toNat) vs 0
  have hpos := two_zpow_pos k
  refine ⟨fun x hx => ?_, hsome.imp_right (fun ⟨x, hx, hm⟩ => ⟨x, hx, ?_⟩)⟩
  · rw [hval x hx]
    have := hall x hx
    gcongr
  · rw [hval x hx, ← hm]

/-- The largest number of a target type (R112, R159). -/
theorem targetMax_spec {t : Ty} (ht : t ∈ [Ty.e4m3, .e5m2, .f16, .bf16, .i8]) :
    let most : ℚ := if t = .i8 then 127 else numOf (fval t (ffmt t).maxCode)
    0 < (targetMax t).1 ∧ most = (targetMax t).1 * 2 ^ (targetMax t).2 ∧ 2 ≤ most := by
  obtain ⟨-, f16, bf16, e4m3, e5m2⟩ := largest_values
  simp only [List.mem_cons, List.not_mem_nil, or_false] at ht
  rcases ht with rfl | rfl | rfl | rfl | rfl
  · rw [show targetMax .e4m3 = (14, 5) from rfl, if_neg (by decide), numOf_maxCode, e4m3]; norm_num
  · rw [show targetMax .e5m2 = (7, 13) from rfl, if_neg (by decide), numOf_maxCode, e5m2]; norm_num
  · rw [show targetMax .f16 = (2047, 5) from rfl, if_neg (by decide), numOf_maxCode, f16]; norm_num
  · rw [show targetMax .bf16 = (255, 120) from rfl, if_neg (by decide), numOf_maxCode, bf16]; norm_num
  · rw [show targetMax .i8 = (127, 0) from rfl, if_pos rfl]; norm_num

/-- The pattern of 2^j stands for it. -/
theorem numOf_pow2F32 {j : ℤ} (hlo : -127 ≤ j) (hhi : j ≤ 127) : numOf (fval .f32 (pow2F32 j)) = 2 ^ j := by
  have hcode (k s : Nat) (hk : k ≤ 2 ^ 24) (hs : s = 0 ∨ 2 ^ 23 ≤ k) (hmax : k + s * 2 ^ 23 ≤ (ffmt .f32).maxCode) :
      numOf (fval .f32 (k + s * 2 ^ 23)) = k * 2 ^ (-149 + s : ℤ) := by
    have hval : (ffmt .f32).codeVal (k + s * 2 ^ 23) = k * 2 ^ (-149 + s : ℤ) := codeVal_add (ffmt .f32) hk hs
    have h := numOf_code (t := .f32) false hmax
    rw [hval, FFmt.sign, if_neg (by decide), zero_add] at h
    rw [h, sgn, if_neg (by decide), Int.cast_one, one_mul]
  have hmax : (ffmt .f32).maxCode = 255 * 2 ^ 23 - 1 := rfl
  unfold pow2F32
  split_ifs with hj
  · have h := hcode (2 ^ 22) 0 (by norm_num) (.inl rfl) (by rw [hmax]; norm_num)
    rw [zero_mul, add_zero] at h
    rw [h, hj]
    norm_num
  · obtain ⟨s, rfl⟩ : ∃ s : Nat, j = s - 126 := ⟨(j + 126).toNat, by omega⟩
    have hnat : ((s : ℤ) - 126 + 127).toNat * 2 ^ 23 = 2 ^ 23 + s * 2 ^ 23 := by omega
    rw [hnat, hcode (2 ^ 23) s (by norm_num) (.inr le_rfl) (by rw [hmax]; omega)]
    rw [show ((2 ^ 23 : Nat) : ℚ) = 2 ^ (23 : ℤ) by norm_num, ← two_zpow_add]
    congr 1
    ring

theorem numOf_f32_lt (n : Nat) : numOf (fval .f32 n) < 2 ^ (128 : ℤ) := by
  cases hfin : isFin (fval .f32 n)
  · have hzero : numOf (fval .f32 n) = 0 := by cases h : fval .f32 n <;> simp [h, isFin, numOf] at hfin ⊢
    rw [hzero]
    exact two_zpow_pos _
  · refine (le_abs_self _).trans_lt ((abs_numOf_le hfin).trans_lt ?_)
    rw [numOf_maxCode, largest_values.1]
    norm_num

/-- The quotient of the target's largest number by the greatest entry, as the power of two that it allows (R112). -/
theorem scale_spec {n m : Nat} {e k : ℤ} (hn : 0 < n) (hm : 0 < m) (hmost : (2 : ℚ) ≤ n * 2 ^ e) (hbound : (m : ℚ) * 2 ^ k < 2 ^ (128 : ℤ)) :
    let j := clampInt (-127) 127 (flog2 (shiftUp n (e - k)) (shiftDn m (e - k)))
    j ≤ 127 ∧ -127 ≤ j ∧ (m : ℚ) * 2 ^ k * 2 ^ j ≤ n * 2 ^ e ∧ (j < 127 → (n : ℚ) * 2 ^ e < m * 2 ^ k * 2 ^ (j + 1)) := by
  have hup : 0 < shiftUp n (e - k) := by unfold shiftUp; split <;> positivity
  obtain ⟨lo, hi⟩ := flog2_spec hup (shiftDn_pos hm (e - k))
  have hpos : (0 : ℚ) < m * 2 ^ k := mul_pos (by exact_mod_cast hm) (two_zpow_pos k)
  have hratio : (shiftUp n (e - k) : ℚ) / shiftDn m (e - k) = n * 2 ^ e / (m * 2 ^ k) := by
    rw [shiftUp_div_shiftDn, zpow_sub₀ two_ne_zero]
    ring
  rw [hratio] at lo hi
  rw [le_div_iff₀ hpos, mul_comm] at lo
  rw [div_lt_iff₀ hpos, mul_comm ((2 : ℚ) ^ _)] at hi
  generalize flog2 (shiftUp n (e - k)) (shiftDn m (e - k)) = i at *
  have hlow : -127 ≤ i := by
    have hone : (2 : ℚ) ^ (1 : ℤ) < 2 ^ (128 + (i + 1)) := by
      rw [two_zpow_add]
      calc (2 : ℚ) ^ (1 : ℤ) ≤ n * 2 ^ e := by simpa using hmost
        _ < m * 2 ^ k * 2 ^ (i + 1) := hi
        _ < 2 ^ (128 : ℤ) * 2 ^ (i + 1) := mul_lt_mul_of_pos_right hbound (two_zpow_pos _)
    have := two_zpow_lt.mp hone
    omega
  intro j
  have hj : j = min 127 i := by show clampInt _ _ _ = _; unfold clampInt; omega
  refine ⟨by omega, by omega, ?_, fun hlt => ?_⟩
  · exact (mul_le_mul_of_nonneg_left (two_zpow_le.mpr (by omega)) hpos.le).trans lo
  · rwa [show j = i by omega]

section record
variable {r : ScaleRec} {t : Ty} (hlen : r.ent.length = 16) (hwi : r.wi < 16) (hv : r.v ≤ 16)
include hlen hwi hv

theorem present_of_entries {p : FVal → Prop} (h : ∀ x ∈ r.entries, p x) : ∀ x ∈ r.present, p x :=
  fun x hx => h x ((r.mem_present hlen hwi hv x).mp hx)

omit hlen hwi hv in
theorem entries_lt {x : FVal} (hx : x ∈ r.entries) : numOf x < 2 ^ (128 : ℤ) := by
  obtain ⟨i, -, rfl⟩ := List.mem_map.mp hx
  exact numOf_f32_lt _

theorem any_inf_iff : (r.present.any fun v => v == .inf false) = true ↔ FVal.inf false ∈ r.entries := by
  simp [← r.mem_present hlen hwi hv]

theorem amxScale_inf (h : FVal.inf false ∈ r.entries) : amxScale r t = -127 := by
  rw [amxScale_eq]
  exact if_pos ((any_inf_iff hlen hwi hv).mpr h)

theorem amxScale_empty (h : r.v = 0) : amxScale r t = 0 := by
  have hnone : FVal.inf false ∉ r.entries := by simp [ScaleRec.entries, h]
  rw [amxScale_eq]
  simp only [if_neg (mt (any_inf_iff hlen hwi hv).mp hnone), if_pos h]

/-- The scale of a record of numbers that are not negative (R112). -/
theorem amxScale_numbers (ht : t ∈ [Ty.e4m3, .e5m2, .f16, .bf16, .i8]) (hne : r.v ≠ 0) (h : ∀ x ∈ r.entries, isFin x = true ∧ negOf x = false) :
    let most : ℚ := if t = .i8 then 127 else numOf (fval t (ffmt t).maxCode)
    ((∀ x ∈ r.entries, numOf x = 0) → amxScale r t = 127) ∧
    ((∃ x ∈ r.entries, numOf x ≠ 0) →
      amxScale r t ≤ 127 ∧ -127 ≤ amxScale r t ∧ (∀ x ∈ r.entries, numOf x * (2 : ℚ) ^ amxScale r t ≤ most) ∧
      (amxScale r t < 127 → ∃ x ∈ r.entries, most < numOf x * (2 : ℚ) ^ (amxScale r t + 1))) := by
  have hmem := r.mem_present hlen hwi hv
  have hnone : FVal.inf false ∉ r.entries := fun hinf => absurd (h _ hinf).1 (by decide)
  obtain ⟨hall, hsome⟩ := greatest_entry (present_of_entries hlen hwi hv h)
  obtain ⟨hn, hmost, htwo⟩ := targetMax_spec ht
  rw [amxScale_eq]
  simp only [if_neg (mt (any_inf_iff hlen hwi hv).mp hnone), if_neg hne, hmost]
  generalize minExp r.present 0 = k at *
  generalize r.present.foldl (fun a v => max a (sumAt k [v]).toNat) 0 = m at *
  have hpos := two_zpow_pos k
  constructor
  · intro hzero
    rcases hsome with rfl | ⟨x, hx, hval⟩
    · exact if_pos rfl
    · rw [hzero x ((hmem x).mp hx), eq_comm, mul_eq_zero, or_iff_left hpos.ne'] at hval
      exact if_pos (by exact_mod_cast hval)
  · rintro ⟨x, hx, hxne⟩
    have hm : 0 < m := by
      refine Nat.pos_of_ne_zero (fun hm => hxne (le_antisymm ?_ ?_))
      · simpa [hm] using hall x ((hmem x).mpr hx)
      · simpa [(h x hx).2, sgn] using sgn_mul_numOf_nonneg x
    obtain ⟨y, hy, hval⟩ := hsome.resolve_left hm.ne'
    have hy' := (hmem y).mp hy
    obtain ⟨hhi, hlo, hfits, hnext⟩ := scale_spec hn hm (hmost ▸ htwo) (hval ▸ entries_lt hy')
    rw [if_neg hm.ne']
    refine ⟨hhi, hlo, fun z hz => ?_, fun hlt => ⟨y, hy', hval ▸ hnext hlt⟩⟩
    exact (mul_le_mul_of_nonneg_right (hall z ((hmem z).mpr hz)) (two_zpow_pos _).le).trans hfits

end record

/-! ### BEXP, AMXREC and AMXGET on a lane (R159, R160, R165) -/

section lanes
variable {s u t : State} {k : LaneId} {l : Lane} {w : IWord} {a b c : Nat} (hq : queueTrap s k w = none)
include hq

theorem laneBexp_eq {r : Nat} (ha : w.a = .g r) (hfull : ∀ i < bexpRegs w.t, (l.reg (r + i)).full = true) :
    laneBexp w k l s = finish s k w .b32
      (bexpVal (tyElem w.t) (bexpElems w.t ((List.range (bexpRegs w.t)).map (fun i => (l.reg (r + i)).val))) (fld w.x 31 16) (fld w.x 1 0)) 0 := by
  have hall : ((List.range (bexpRegs w.t)).map (fun i => l.reg (r + i))).all (fun x => x.full) = true := by simpa using hfull
  simp only [laneBexp, hq, ha, hall, Bool.not_true, Bool.false_eq_true, if_false, List.map_map]
  rfl

omit hq in
theorem ownsMatrix_iff : ownsMatrix u k = true ↔ (u.core (laneCore u k)).mx.owner = some (LaneId.wid k) := beq_iff_eq

theorem laneAmxrec_eq (hr : reads s k l w ⟨.f32, .b32, .none, .none⟩ u a b c) :
    laneAmxrec w k l s =
      if ownsMatrix u k then
        let core := u.core (laneCore u k)
        let rec_ := core.mx.recs.getD (b % 32) .clear
        finish (u.setCore (laneCore u k) { core with mx := { core.mx with recs := core.mx.recs.set (b % 32) (rec_.record a) } })
          k w .none 0 (if (if isAbsent .f32 a then false else (fval .f32 a).isNan) then NV else 0)
      else .trapWith u (TrapInfo.plain .matrixNotOwner 0) := by
  obtain ⟨s1, s2, ra, rb, rc⟩ := hr
  have hnan : (!isAbsent .f32 a && (fval .f32 a).isNan) = if isAbsent .f32 a then false else (fval .f32 a).isNan := by cases isAbsent .f32 a <;> rfl
  simp only [laneAmxrec, hq, withSrcs_val ra rb rc, hnan]
  cases ownsMatrix u k <;> rfl

theorem laneAmxget_eq (hr : reads s k l w ⟨.none, .b32, .none, .none⟩ u a b c) :
    laneAmxget w k l s =
      if ownsMatrix u k then finish u k w .f32 (pow2F32 (amxScale ((u.core (laneCore u k)).mx.recs.getD (b % 32) .clear) w.t)) 0
      else .trapWith u (TrapInfo.plain .matrixNotOwner 0) := by
  obtain ⟨s1, s2, ra, rb, rc⟩ := hr
  simp only [laneAmxget, hq, withSrcs_val ra rb rc]
  cases ownsMatrix u k <;> rfl

end lanes

/-- A lane alone whose checks pass and that traps after its sources were read. -/
theorem perLane_trapWith {e : Entry} {w : IWord} {f : IWord → LaneId → Lane → State → LaneOut} {s u : State} {k : LaneId} {l : Lane} {t : TrapInfo}
    (hc : s.cur.lanes = [k]) (hl : s.lane? k = some l) (hg : gate e w k l s = .go) (h : f w k l s = .trapWith u t) :
    perLane e f w s = parkSub u (LaneId.wid k) s.cur.pc s.cur.len [(k.lane, t)] :=
  runLanes_trapWith hc hl (by rw [gated_go hg, h])

/-- Settles O18: BEXP by the order of the block's exponents, a record's scale by its greatest entry, and the three instructions on a lane alone. -/
theorem blockExponentsAndScaleRecords : Obligations.BlockExponentsAndScaleRecords := by
  unfold Obligations.BlockExponentsAndScaleRecords
  refine ⟨fun t xs clip target h1 h64 _ => ⟨fun hns => ?_, fun hns => ?_⟩,
    fun t m ht hlen hwi hv => ⟨fun hz => ?_, fun hinf => ?_, fun hne hnum => ⟨fun hzero => ?_, fun hsome => ?_⟩⟩,
    fun s u t k l w a b c r hal hq => ?_⟩
  · rw [bexpVal_eq, if_pos]
    exact List.isEmpty_iff.mpr (by rw [blockExponents, show xs.filter (fun n => isNonzero (fval t n)) = [] from hns]; rfl)
  · have hne : blockExponents t xs ≠ [] := mt List.map_eq_nil_iff.mp hns
    have hlen : (blockExponents t xs).length = (xs.filter (fun n => isNonzero (fval t n))).length := List.length_map ..
    obtain ⟨c, hmany, hfew, hval⟩ := bexpVal_spec t xs target h1 h64 hne
    rw [hlen, countP_blockExponents] at hmany hfew
    exact ⟨c, hmany, hfew, hval⟩
  · rw [amxScale_empty hlen hwi hv hz, numOf_pow2F32 (by decide) (by decide), zpow_zero]
  · rw [amxScale_inf hlen hwi hv hinf, numOf_pow2F32 (by decide) (by decide)]
  · rw [(amxScale_numbers hlen hwi hv ht hne hnum).1 hzero, numOf_pow2F32 (by decide) (by decide)]
    rfl
  · obtain ⟨hhi, hlo, hfits, hnext⟩ := (amxScale_numbers hlen hwi hv ht hne hnum).2 hsome
    exact ⟨_, hlo, hhi, numOf_pow2F32 hlo hhi, hfits, hnext⟩
  · obtain ⟨hc, hl⟩ := hal
    have step {v v' : State} (h : v = v') : Host.Outcome.next (φ := Fault) (ρ := Refusal) v = .next v' := congrArg _ h
    refine ⟨fun hg ha hfull hd => step ?_, fun hg hr => ⟨fun hown hd => step ?_, fun hown => step ?_⟩,
      fun hg hr => ⟨fun hown hd => step ?_, fun hown => step ?_⟩⟩
    · exact perLane_delivered hc hl hg (laneBexp_eq hq ha hfull) hd
    · exact perLane_delivered hc hl hg ((laneAmxrec_eq hq hr).trans (if_pos (ownsMatrix_iff.mpr hown))) hd
    · exact perLane_trapWith hc hl hg ((laneAmxrec_eq hq hr).trans (if_neg (mt ownsMatrix_iff.mp hown)))
    · exact perLane_delivered hc hl hg ((laneAmxget_eq hq hr).trans (if_pos (ownsMatrix_iff.mpr hown))) hd
    · exact perLane_trapWith hc hl hg ((laneAmxget_eq hq hr).trans (if_neg (mt ownsMatrix_iff.mp hown)))

end Sys2Proof.Machine
end

section
/-! PROOFS. Shifts, rotation, bit fields and LEA as operations on words (spec/06 R147, R148, R150). -/

namespace Sys2Proof.Machine

open Sys2Proof.Claims

/-! ### Bits of a number -/

theorem natBit_eq_testBit (v i : Nat) : natBit v i = v.testBit i := Nat.testBit_eq_decide_div_mod_eq.symm

theorem natBit_toNat {w : Nat} (a : BitVec w) (i : Nat) : natBit a.toNat i = a.getLsbD i := (natBit_eq_testBit ..).trans a.testBit_toNat

/-! ### Shifts and rotation (R147) -/

section shifts
variable {w : Nat} (a : BitVec w) (n : Nat)

theorem shlVal_toNat : shlVal w a.toNat n = (a <<< n).toNat := by
  unfold shlVal
  split_ifs with h
  · rw [BitVec.shiftLeft_eq_zero h, BitVec.toNat_zero]
  · rw [BitVec.toNat_shiftLeft, Nat.shiftLeft_eq]

theorem shrVal_toNat : shrVal w a.toNat n = (a >>> n).toNat := by
  rw [BitVec.toNat_ushiftRight, Nat.shiftRight_eq_div_pow]
  unfold shrVal
  split_ifs with h
  · exact (Nat.div_eq_of_lt (a.isLt.trans_le (Nat.pow_le_pow_right two_pos h))).symm
  · rfl

/-- A shift by the width or more leaves the sign alone. -/
theorem toInt_div_min : a.toInt / (2 ^ min n w : Nat) = a.toInt / (2 ^ n : Nat) := by
  have hsign {p : Nat} (hp : 2 ^ w ≤ p) : a.toInt / (p : Int) = if a.toInt < 0 then -1 else 0 := by
    have hlo := BitVec.le_two_mul_toInt (x := a)
    have hhi := BitVec.two_mul_toInt_lt (x := a)
    have hp' : (2 : Int) ^ w ≤ p := by exact_mod_cast hp
    split_ifs with hneg
    · exact Int.ediv_eq_neg_one_of_neg_of_le hneg (by omega)
    · exact Int.ediv_eq_zero_of_lt (by omega) (by omega)
  rcases le_total n w with h | h
  · rw [min_eq_left h]
  · rw [min_eq_right h, hsign le_rfl, hsign (Nat.pow_le_pow_right two_pos h)]

theorem sarVal_toNat (hw : 0 < w) : sarVal w a.toNat n = (a.sshiftRight n).toNat := by
  rw [sarVal, sext_toNat hw, toInt_div_min, wrapInt_eq_ofInt, ← Int.shiftRight_eq_div_pow]
  rfl

theorem rotVal_toNat (hw : 0 < w) : rotVal w a.toNat n = (a.rotateLeft (n % w)).toNat := by
  have hm := Nat.mod_lt n hw
  rw [BitVec.toNat_rotateLeft, Nat.mod_mod, Nat.shiftLeft_eq, Nat.shiftRight_eq_div_pow, rotVal]
  generalize n % w = m at hm ⊢
  have hsplit : 2 ^ w = 2 ^ m * 2 ^ (w - m) := by rw [← pow_add, Nat.add_sub_cancel' hm.le]
  have hlow : a.toNat / 2 ^ (w - m) < 2 ^ m := (Nat.div_lt_iff_lt_mul (Nat.two_pow_pos _)).mpr (hsplit ▸ a.isLt)
  rw [hsplit, mul_comm a.toNat, Nat.mul_mod_mul_left, Nat.two_pow_add_eq_or_of_lt hlow]

end shifts

/-! ### Bit fields (R148) -/

/-- The length of a field that fits into a width. -/
def fieldLen (w pos len : Nat) : Nat := if w ≤ pos then 0 else min len (w - pos)

section fields
variable {n pos len : Nat} (hi : Nat) (hpos : pos < 256) (hlen : len < 256)
include hpos hlen

theorem bfField_ctl (w : Nat) : bfField w (pos + 256 * len + 65536 * hi) = (pos, fieldLen w pos len) := by
  have h1 : (pos + 256 * len + 65536 * hi) % 256 = pos := by omega
  have h2 : (pos + 256 * len + 65536 * hi) / 256 % 256 = len := by omega
  simp only [bfField, h1, h2, fieldLen]
  split <;> rfl

theorem bfxVal_ctl {t : Ty} (ht : tyWidth t = n) {m : Nat} (hm : fieldLen n pos len = m) (a : Nat) :
    bfxVal t a (pos + 256 * len + 65536 * hi) =
      if m = 0 then 0
      else if tyKind t = .int then (BitVec.signExtend n (BitVec.ofNat m (a / 2 ^ pos % 2 ^ m))).toNat
      else a / 2 ^ pos % 2 ^ m := by
  simp only [bfxVal, bfField_ctl hi hpos hlen, ht, hm]
  split_ifs with hzero hk
  · rfl
  · rw [sext_eq_toInt (Nat.pos_of_ne_zero hzero), wrapInt_eq_ofInt]
    rfl
  · rfl

theorem bfiVal_ctl {m : Nat} (hm : fieldLen n pos len = m) (a b : Nat) :
    bfiVal n a b (pos + 256 * len + 65536 * hi) = 2 ^ pos * (2 ^ m * (a / 2 ^ pos / 2 ^ m) + b % 2 ^ m) + a % 2 ^ pos := by
  have hlow := Nat.div_add_mod a (2 ^ pos)
  have hmid := Nat.div_add_mod (a / 2 ^ pos) (2 ^ m)
  simp only [bfiVal, bfField_ctl hi hpos hlen, hm]
  split_ifs with hzero
  · simp [hzero, Nat.mod_one, hlow]
  · have hfield := congrArg (2 ^ pos * ·) hmid
    simp only [mul_add] at hfield ⊢
    rw [mul_comm _ (2 ^ pos), mul_comm _ (2 ^ pos)]
    omega

end fields

/-- Bits `pos` and up of a pattern, `m` of them. -/
theorem testBit_field {n : Nat} (a : BitVec n) (pos m i : Nat) :
    (a.toNat / 2 ^ pos % 2 ^ m).testBit i = (decide (i < m) && a.getLsbD (pos + i)) := by
  rw [Nat.testBit_mod_two_pow, Nat.testBit_div_two_pow, BitVec.testBit_toNat, Nat.add_comm]

section bits
variable {n : Nat} (a : BitVec n) {pos len m i : Nat} (hi : Nat) (hpos : pos < 256) (hlen : len < 256) (hm : fieldLen n pos len = m)
include hpos hlen hm

/-- BFX: the field, and above it zeros or for iN the field's highest bit. -/
theorem natBit_bfxVal {t : Ty} (ht : tyWidth t = n) (hin : i < n) :
    natBit (bfxVal t a.toNat (pos + 256 * len + 65536 * hi)) i =
      if i < m then a.getLsbD (pos + i) else decide (tyKind t = .int ∧ 0 < m ∧ a.getLsbD (pos + m - 1) = true) := by
  rw [natBit_eq_testBit, bfxVal_ctl hi hpos hlen ht hm]
  rcases Nat.eq_zero_or_pos m with hzero | hsome
  · simp [hzero]
  have hlast : m - 1 < m := by omega
  have htop : pos + (m - 1) = pos + m - 1 := by omega
  rw [if_neg hsome.ne']
  by_cases hk : tyKind t = .int
  · rw [if_pos hk, BitVec.testBit_toNat, BitVec.getLsbD_signExtend, BitVec.msb_eq_getLsbD_last, BitVec.getLsbD_ofNat, BitVec.getLsbD_ofNat,
      testBit_field, testBit_field, htop]
    split_ifs with him
    · simp [hin, him]
    · simp [hin, hk, hsome]
  · rw [if_neg hk, testBit_field]
    split_ifs with him
    · simp [him]
    · simp [him, hk]

/-- BFI: B's low bits in the field's place, the others as they are. -/
theorem natBit_bfiVal (b : BitVec n) :
    natBit (bfiVal n a.toNat b.toNat (pos + 256 * len + 65536 * hi)) i =
      if pos ≤ i ∧ i < pos + m then b.getLsbD (i - pos) else a.getLsbD i := by
  rw [natBit_eq_testBit, bfiVal_ctl hi hpos hlen hm, Nat.testBit_two_pow_mul_add _ (Nat.mod_lt _ (Nat.two_pow_pos _)),
    Nat.testBit_two_pow_mul_add _ (Nat.mod_lt _ (Nat.two_pow_pos _)), Nat.testBit_mod_two_pow, Nat.testBit_mod_two_pow, Nat.testBit_div_two_pow,
    Nat.testBit_div_two_pow, BitVec.testBit_toNat, BitVec.testBit_toNat, BitVec.testBit_toNat]
  rcases lt_or_ge i pos with hbelow | hfrom
  · rw [if_pos hbelow, if_neg (by omega), decide_eq_true hbelow, Bool.true_and]
  · rw [if_neg (by omega)]
    rcases lt_or_ge i (pos + m) with hin | habove
    · rw [if_pos (by omega), if_pos ⟨hfrom, hin⟩, decide_eq_true (by omega), Bool.true_and]
    · rw [if_neg (by omega), if_neg (by omega), show i - pos - m + m + pos = i by omega]

end bits

/-! ### LEA (R150) -/

theorem leaVal_toNat (a : Addr) (b : Word) (imm ux : Bool) (sh : Nat) :
    leaVal imm ux sh a.toNat b.toNat = (a + ((if ux && !imm then b.setWidth 64 else b.signExtend 64) <<< sh)).toNat := by
  have hindex : BitVec.ofInt 64 (if ux && !imm then (b.toNat : Int) else sext 32 b.toNat) = if ux && !imm then b.setWidth 64 else b.signExtend 64 := by
    split
    · rw [BitVec.ofInt_natCast, BitVec.ofNat_toNat]
    · rw [sext_toNat (by decide)]; rfl
  have hscale : BitVec.ofNat 64 (2 ^ sh) = BitVec.twoPow 64 sh := BitVec.eq_of_toNat_eq (BitVec.toNat_twoPow ..).symm
  rw [leaVal, wrapInt_eq_ofInt, BitVec.ofInt_add, BitVec.ofInt_mul, hindex, BitVec.ofInt_natCast, BitVec.ofInt_natCast, BitVec.ofNat_toNat,
    BitVec.setWidth_eq, hscale, BitVec.shiftLeft_eq_mul_twoPow]

/-- Settles O15: each shift as the operation on words, each field bit by bit, and LEA as a sum of words. -/
theorem bitsShiftsAndAddresses : Obligations.BitsShiftsAndAddresses := by
  unfold Obligations.BitsShiftsAndAddresses
  intro w l z gives shifts
  have hshifts {n : Nat} (ht : tyWidth w.t = n) (hn : 0 < n) (a : BitVec n) (k : Nat) :
      shifts k a.toNat (a <<< k).toNat (a >>> k).toNat (a.sshiftRight k).toNat (a.rotateLeft (k % n)).toNat := by
    subst ht
    rw [← shlVal_toNat, ← shrVal_toNat, ← sarVal_toNat a k hn, ← rotVal_toNat a k hn]
    exact ⟨rfl, rfl, rfl, rfl⟩
  refine ⟨fun ht => hshifts (by rw [ht]; rfl) (by decide), fun ht => hshifts (by rw [ht]; rfl) (by decide),
    fun n a b pos len hi ht hmem hpos hlen => ⟨⟨_, rfl, fun i hin => ?_⟩, fun _ => ⟨_, rfl, fun i _ => ?_⟩⟩, fun a b sh _ hsh => ?_⟩
  · have hsigned : tyKind w.t = .int ↔ w.t = .i32 ∨ w.t = .i64 := by
      simp only [List.mem_cons, List.not_mem_nil, or_false] at hmem
      rcases hmem with h | h | h | h <;> simp [h, tyKind]
    rw [natBit_bfxVal a hi hpos hlen rfl ht hin]
    simp only [hsigned]
    rfl
  · rw [ht]
    exact natBit_bfiVal a hi hpos hlen rfl b
  · have hlea := leaVal_toNat a b (w.b == .imm) (flg (modsOf w) 3) sh
    simp only [Bool.and_eq_true, Bool.not_eq_true', beq_eq_false_iff_ne] at hlea
    exact congrArg (fun v => some (v, (0 : Flags))) (hsh ▸ hlea)

end Sys2Proof.Machine
end

section
/-! PROOFS. The arithmetic groups deliver their rows' results, and IDIV and IREM theirs or trap (spec/06 R142 to R145, R165). -/

namespace Sys2Proof.Machine

open Sys2Proof.Claims

/-! ### The rows -/

/-- The row of an instruction of the arithmetic groups. -/
def arithmeticRow (i : Instr) : Option Row := integerRow i <|> floatRow i <|> conversionRow i <|> specialRow i <|> pixelRow i

/-- What a lane computes depends on the word's own types and result alone. -/
theorem perLane_laneAlu (e : Entry) (ty : IWord → Tys) (f : IWord → Lane → Nat → Nat → Nat → Res) (w : IWord) (s : State) :
    Host.Outcome.next (φ := Fault) (ρ := Refusal) (perLane e (laneAlu ty f) w s) =
      .next (perLane e (laneAlu (fun _ => ty w) (fun _ => f w)) w s) := rfl

/-- An instruction of the arithmetic groups computes its row's result lane by lane. -/
theorem exec_of_row {i : Instr} {r : Row} (h : arithmeticRow i = some r) (s : State) :
    exec i s = .next (perLane r.e (laneAlu (fun _ => r.ts) (fun _ => r.f)) r.w s) := by
  cases i
  all_goals cases h
  all_goals exact perLane_laneAlu ..

theorem laneAlu_eq {s u : State} {k : LaneId} {l : Lane} {w : IWord} {ts : Tys} {f : Lane → Nat → Nat → Nat → Res} {a b c : Nat}
    (hq : queueTrap s k w = none) (hr : reads s k l w ts u a b c) :
    laneAlu (fun _ => ts) (fun _ => f) w k l s = finish u k w ts.d (f l a b c).1 (f l a b c).2 := by
  obtain ⟨s1, s2, ra, rb, rc⟩ := hr
  simp only [laneAlu, hq, withSrcs_val ra rb rc]

theorem delivers_arithmeticRow : delivers arithmeticRow := by
  intro i r s u t k l a b c hrow ⟨hc, hl⟩ hg hq hr hd
  rw [exec_of_row hrow, perLane_delivered hc hl hg (laneAlu_eq hq hr) hd]

/-! ### What a source can hold (R48, R51) -/

/-- A source's value has no more bits than its type. -/
theorem readSrc_lt {s u : State} {k : LaneId} {l : Lane} {w : IWord} {o : Operand} {wait : Bool} {t : Ty} {v : Nat}
    (h : readSrc s k l w o wait t = .val u v) : v < 2 ^ tyWidth t := by
  have hcut (n : Nat) : n % 2 ^ tyWidth t < 2 ^ tyWidth t := Nat.mod_lt _ (Nat.two_pow_pos _)
  have himm (x : Word) : immOf t x < 2 ^ tyWidth t := by
    unfold immOf
    split
    · exact (x.signExtend 64).isLt
    · exact x.isLt.trans (by decide)
    · exact x.isLt.trans (by decide)
    · exact (Nat.mod_lt _ (Nat.two_pow_pos _)).trans_le (Nat.pow_le_pow_right two_pos (min_le_left ..))
  cases o <;> simp only [readSrc] at h
  case g r => split at h <;> [(cases h; exact hcut _); (split at h <;> cases h)]
  case q n => split at h <;> [(cases h; exact hcut _); (simp_all)]
  case lc | sr | absent => cases h; exact hcut _
  case imm => cases h; exact himm _
  all_goals cases h; exact Nat.two_pow_pos _

theorem type_of_gate {e : Entry} {w : IWord} {k : LaneId} {l : Lane} {s : State} (h : gate e w k l s = .go) : e.tOk w = true := by
  by_contra hbad
  have hword := wordTrap_type (n := laneRegs s k) (handler := l.inHandler) (Bool.eq_false_iff.mpr hbad)
  unfold gate at h
  simp only [hword] at h
  split_ifs at h
  split at h <;> cases h

/-! ### Quotients and remainders stay in range (R90, R101, R145) -/

section range
variable {t : Ty} (hk : tyKind t = .int ∨ tyKind t = .nat)
include hk

theorem intRes_of_range {x : Int} (hlo : intMin t ≤ x) (hhi : x ≤ intMax t) : intRes t x = (intCode t x, 0) := by
  have hraw : tyKind t ≠ .raw := by rcases hk with h | h <;> simp [h]
  have hclamp : clampInt (intMin t) (intMax t) x = x := by unfold clampInt; omega
  simp only [intRes, if_neg hraw, satInt, hclamp, bne_self_eq_false]
  rfl

/-- A present code of an integer type stands for a number of its range. -/
theorem intVal_range {a : Nat} (ha : a < 2 ^ tyWidth t) (hp : isAbsent t a = false) : intMin t ≤ intVal t a ∧ intVal t a ≤ intMax t := by
  have hw : 0 < tyWidth t := by
    revert hk
    cases t <;> simp [tyKind, tyWidth]
  have hpow := two_pow_pred hw
  have hpos := Nat.two_pow_pos (tyWidth t - 1)
  rcases hk with hk | hk
  · simp only [isAbsent, absentOf, hk, beq_eq_false_iff_ne] at hp
    simp only [intMin, intMax, intVal, hk, if_true, sext, Nat.mod_eq_of_lt ha]
    split_ifs <;> omega
  · have hint : tyKind t ≠ .int := by simp [hk]
    simp only [isAbsent, absentOf, hk, beq_eq_false_iff_ne] at hp
    simp only [intMin, intMax, intVal, if_neg hint]
    omega

/-- A result that is no greater in magnitude than A, nor negative where both are not, needs no clamping. -/
theorem intRes_within {f : Int → Int → Int} (habs : ∀ x y, (f x y).natAbs ≤ x.natAbs) (hpos : ∀ x y, 0 ≤ x → 0 ≤ y → 0 ≤ f x y) {a b : Nat}
    (ha : a < 2 ^ tyWidth t) (hpa : isAbsent t a = false) :
    intRes t (f (intVal t a) (intVal t b)) = (intCode t (f (intVal t a) (intVal t b)), 0) := by
  obtain ⟨hlo, hhi⟩ := intVal_range hk ha hpa
  have habs := habs (intVal t a) (intVal t b)
  rcases hk with hk | hk
  · have hsym : intMin t = -intMax t := by simp [intMin, intMax, hk]
    exact intRes_of_range (.inl hk) (by omega) (by omega)
  · have hint : tyKind t ≠ .int := by simp [hk]
    have hmin : intMin t = 0 := if_neg hint
    have := hpos (intVal t a) (intVal t b) (by omega) (by rw [intVal_of_ne_int hint]; exact Int.natCast_nonneg _)
    exact intRes_of_range (.inr hk) (by omega) (by omega)

end range

theorem idivVal_eq {t : Ty} (hk : tyKind t = .int ∨ tyKind t = .nat) {a b : Nat} (ha : a < 2 ^ tyWidth t) (hpa : isAbsent t a = false) :
    idivVal t a b = (intCode t (Int.tdiv (intVal t a) (intVal t b)), 0) :=
  intRes_within hk (fun x y => by rw [Int.natAbs_tdiv]; exact Nat.div_le_self ..) (fun _ _ => Int.tdiv_nonneg) ha hpa

theorem iremVal_eq {t : Ty} (hk : tyKind t = .int ∨ tyKind t = .nat) {a b : Nat} (ha : a < 2 ^ tyWidth t) (hpa : isAbsent t a = false) :
    iremVal t a b = (intCode t (Int.tmod (intVal t a) (intVal t b)), 0) :=
  intRes_within hk (fun x y => by rw [Int.natAbs_tmod]; exact Nat.mod_le ..) (fun x y hx _ => Int.tmod_nonneg y hx) ha hpa

/-! ### IDIV and IREM on a lane (R144, R145) -/

/-- The result of a division by the rule of absent operands (R95). -/
def divided (t : Ty) (f : Int → Int → Int) (a b : Nat) : Res :=
  if isAbsent t a ∧ isAbsent t b then (absentOf t, (0 : Flags))
  else if isAbsent t a ∨ isAbsent t b then (absentOf t, AP)
  else (intCode t (f (intVal t a) (intVal t b)), 0)

section division
variable {s u t : State} {k : LaneId} {l : Lane} {w : IWord} {a b c : Nat} {g : Ty → Nat → Nat → Res}
  (hq : queueTrap s k w = none) (hr : reads s k l w (tysT w) u a b c)
include hq hr

theorem laneDiv_eq : laneDiv g w k l s =
    if isAbsent w.t a && isAbsent w.t b then finish u k w w.t (absentOf w.t) 0
    else if isAbsent w.t a || isAbsent w.t b then finish u k w w.t (absentOf w.t) AP
    else if b = 0 then .trapWith u (TrapInfo.plain .intDivZero 0)
    else finish u k w w.t (g w.t a b).1 (g w.t a b).2 := by
  obtain ⟨s1, s2, ra, rb, rc⟩ := hr
  simp only [laneDiv, hq, withSrcs_val (ta := w.t) (tb := w.t) (tc := w.t) ra rb rc]

/-- A division by a number other than 0, or of absent, delivers its result. -/
theorem laneDiv_delivers {f : Int → Int → Int}
    (hg : ∀ a b, a < 2 ^ tyWidth w.t → isAbsent w.t a = false → g w.t a b = (intCode w.t (f (intVal w.t a) (intVal w.t b)), 0))
    (hok : b ≠ 0 ∨ isAbsent w.t a = true ∨ isAbsent w.t b = true) :
    laneDiv g w k l s = finish u k w w.t (divided w.t f a b).1 (divided w.t f a b).2 := by
  have ha : a < 2 ^ tyWidth w.t := by
    obtain ⟨s1, s2, ra, -, -⟩ := hr
    exact readSrc_lt ra
  rw [laneDiv_eq hq hr, divided]
  cases hpa : isAbsent w.t a <;> cases hpb : isAbsent w.t b
  case false.false =>
    have hne : b ≠ 0 := by simpa [hpa, hpb] using hok
    simp [hne, hg a b ha hpa]
  all_goals simp

/-- A division by 0 traps. -/
theorem laneDiv_traps (hok : ¬ (b ≠ 0 ∨ isAbsent w.t a = true ∨ isAbsent w.t b = true)) :
    laneDiv g w k l s = .trapWith u (TrapInfo.plain .intDivZero 0) := by
  simp only [not_or, not_not, Bool.not_eq_true] at hok
  obtain ⟨hb, hpa, hpb⟩ := hok
  rw [laneDiv_eq hq hr, hpa, hpb, if_pos hb]
  rfl

end division

/-- A division of a lane alone: the result by R95 delivered, or INT_DIV_ZERO once the sources are read. -/
theorem divides {i : Instr} {e : Entry} {w : IWord} {g : Ty → Nat → Nat → Res} {f : Int → Int → Int}
    (hexec : ∀ s, exec i s = .next (perLane e (laneDiv g) w s))
    (htype : e.tOk w = true → tyKind w.t = .int ∨ tyKind w.t = .nat)
    (hval : tyKind w.t = .int ∨ tyKind w.t = .nat → ∀ a b, a < 2 ^ tyWidth w.t → isAbsent w.t a = false →
      g w.t a b = (intCode w.t (f (intVal w.t a) (intVal w.t b)), 0))
    {s u t : State} {k : LaneId} {l : Lane} {a b c : Nat} (hal : alone s k l) (hq : queueTrap s k w = none)
    (hr : reads s k l w (tysT w) u a b c) (hg : gate e w k l s = .go) :
    let ok := b ≠ 0 ∨ isAbsent w.t a = true ∨ isAbsent w.t b = true
    (ok → delivered u k w w.t (divided w.t f a b).1 (divided w.t f a b).2 = some t → exec i s = .next t) ∧
    (¬ ok → exec i s = .next (parkSub u (LaneId.wid k) s.cur.pc s.cur.len [(k.lane, TrapInfo.plain .intDivZero 0)])) := by
  obtain ⟨hc, hl⟩ := hal
  rw [hexec]
  refine ⟨fun hok hd => congrArg _ ?_, fun hok => congrArg _ ?_⟩
  · exact perLane_delivered hc hl hg (laneDiv_delivers hq hr (hval (htype (type_of_gate hg))) hok) hd
  · exact perLane_trapWith hc hl hg (laneDiv_traps hq hr hok)

theorem kind_of_tIn {w : IWord} (h : tIn [.i32, .i64, .n32, .n64] w = true) : tyKind w.t = .int ∨ tyKind w.t = .nat := by
  simp only [tIn, List.contains_eq_mem, List.mem_cons, List.not_mem_nil, or_false, decide_eq_true_eq] at h
  rcases h with h | h | h | h <;> simp [h, tyKind]

end Sys2Proof.Machine
end

section
/-! PROOFS. Counts and orders of bits: POPC, CLZ, CTZ, BREV and PRMB (spec/06 R144, R149). -/

namespace Sys2Proof.Machine

open Sys2Proof.Claims

theorem popcount_eq_length (w v : Nat) : popcount w v = ((List.range w).filter (fun i => v.testBit i)).length := by
  induction w generalizing v with
  | zero => rfl
  | succ w ih =>
    rw [popcount, ih, List.range_succ_eq_map, List.filter_cons, List.filter_map, Nat.testBit_zero]
    have hsucc : ((fun i => v.testBit i) ∘ Nat.succ) = fun i => (v / 2).testBit i := funext (fun i => Nat.testBit_succ ..)
    rw [hsucc]
    rcases Nat.mod_two_eq_zero_or_one v with h | h <;> simp [h, Nat.add_comm]

/-- CLZ: above the highest one, or everywhere where there is none, all bits are 0. -/
theorem clzVal_spec {w : Nat} (a : BitVec w) :
    clzVal w a.toNat ≤ w ∧ (∀ i < w, w - clzVal w a.toNat ≤ i → a.getLsbD i = false) ∧
      (clzVal w a.toNat < w → a.getLsbD (w - 1 - clzVal w a.toNat) = true) := by
  simp only [← BitVec.testBit_toNat]
  unfold clzVal
  split_ifs with h
  · simp [h]
  · have hlog : a.toNat.log2 < w := (Nat.log2_lt h).mpr a.isLt
    refine ⟨by omega, fun i _ hi => ?_, fun _ => ?_⟩
    · exact Nat.testBit_lt_two_pow ((Nat.log2_lt h).mp (by omega))
    · rw [show w - 1 - (w - 1 - a.toNat.log2) = a.toNat.log2 by omega]
      exact Nat.testBit_log2 h

/-- CTZ: below the lowest one, or everywhere where there is none, all bits are 0. -/
theorem ctzVal_spec {w : Nat} (a : BitVec w) :
    ctzVal w a.toNat ≤ w ∧ (∀ i < ctzVal w a.toNat, a.getLsbD i = false) ∧ (ctzVal w a.toNat < w → a.getLsbD (ctzVal w a.toNat) = true) := by
  simp only [← natBit_toNat]
  unfold ctzVal
  cases h : (List.range w).find? (fun i => natBit a.toNat i) with
  | none => simpa using h
  | some i =>
    obtain ⟨hbit, hmem, hbelow⟩ := List.find?_range_eq_some.mp h
    simp only [List.mem_range] at hmem
    exact ⟨hmem.le, fun j hj => by simpa using hbelow j hj, fun _ => hbit⟩

/-! ### Numbers from their bits -/

/-- The number below 2^w whose bits are given. -/
def bitSum (w : Nat) (p : Nat → Bool) : Nat := ((List.range w).map (fun i => b2n (p i) * 2 ^ i)).foldl (· + ·) 0

theorem bitSum_succ (w : Nat) (p : Nat → Bool) : bitSum (w + 1) p = 2 ^ w * b2n (p w) + bitSum w p := by
  simp [bitSum, List.range_succ, Nat.add_comm, Nat.mul_comm]

theorem bitSum_spec (w : Nat) (p : Nat → Bool) : bitSum w p < 2 ^ w ∧ ∀ i < w, (bitSum w p).testBit i = p i := by
  induction w with
  | zero => simp [bitSum]
  | succ w ih =>
    obtain ⟨hlt, hbits⟩ := ih
    have hb : b2n (p w) < 2 := by cases p w <;> decide
    rw [bitSum_succ]
    refine ⟨?_, fun i hi => ?_⟩
    · have : b2n (p w) = 0 ∨ b2n (p w) = 1 := by omega
      rcases this with h | h <;> rw [h, pow_succ] <;> omega
    · rw [Nat.testBit_two_pow_mul_add _ hlt]
      split_ifs with hiw
      · exact hbits i hiw
      · obtain rfl : i = w := by omega
        rw [Nat.sub_self]
        cases p i <;> rfl

/-! ### Bytes (R149) -/

theorem testBit_byte (x : Nat) {i j : Nat} (hj : j < 8) : (x / 2 ^ (8 * i) % 256).testBit j = x.testBit (8 * i + j) := by
  rw [show 256 = 2 ^ 8 from rfl, Nat.testBit_mod_two_pow, Nat.testBit_div_two_pow, decide_eq_true hj, Bool.true_and, Nat.add_comm]

theorem fld_nibble (c : Word) (i : Nat) : fld c (4 * i + 3) (4 * i) = c.toNat / 2 ^ (4 * i) % 16 := by
  rw [fld, Nat.shiftRight_eq_div_pow, show 4 * i + 3 + 1 - 4 * i = 4 by omega]
  rfl

/-- The byte that PRMB's nibble `n` takes from `x`. -/
def permByte (x n : Nat) : Nat := if n < 8 then x / 2 ^ (8 * (n % 8)) % 256 else if 128 ≤ x / 2 ^ (8 * (n % 8)) % 256 then 255 else 0

theorem permByte_lt (x n : Nat) : permByte x n < 256 := by
  unfold permByte
  split_ifs <;> omega

theorem testBit_seven {v : Nat} (hv : v < 256) : v.testBit 7 = decide (128 ≤ v) := by
  rw [← natBit_eq_testBit, natBit]
  exact decide_eq_decide.mpr (by omega)

theorem testBit_permByte (x n : Nat) {j : Nat} (hj : j < 8) : (permByte x n).testBit j = x.testBit (8 * (n % 8) + if n < 8 then j else 7) := by
  have hv : x / 2 ^ (8 * (n % 8)) % 256 < 256 := Nat.mod_lt _ (by decide)
  unfold permByte
  split_ifs with hn hbit
  · exact testBit_byte x hj
  · rw [← testBit_byte x (show 7 < 8 by decide), testBit_seven hv, decide_eq_true hbit]
    exact (Nat.testBit_two_pow_sub_one 8 j).trans (decide_eq_true hj)
  · rw [← testBit_byte x (show 7 < 8 by decide), testBit_seven hv, decide_eq_false hbit, Nat.zero_testBit]

theorem prmbVal_eq (a b c : Nat) :
    let pick := fun (i : Nat) => permByte (a + b * 2 ^ 32) (c / 2 ^ (4 * i) % 16)
    prmbVal a b c = pick 0 + pick 1 * 2 ^ 8 + pick 2 * 2 ^ 16 + pick 3 * 2 ^ 24 := rfl

theorem byte_prmbVal (a b c : Nat) {i : Nat} (hi : i < 4) :
    prmbVal a b c / 2 ^ (8 * i) % 256 = permByte (a + b * 2 ^ 32) (c / 2 ^ (4 * i) % 16) := by
  have hlt (i : Nat) : permByte (a + b * 2 ^ 32) (c / 2 ^ (4 * i) % 16) < 256 := permByte_lt ..
  rw [prmbVal_eq]
  have h0 := hlt 0
  have h1 := hlt 1
  have h2 := hlt 2
  have h3 := hlt 3
  interval_cases i <;> simp only <;> omega

theorem prmbVal_lt (a b c : Nat) : prmbVal a b c < 2 ^ 32 := by
  have hlt (i : Nat) : permByte (a + b * 2 ^ 32) (c / 2 ^ (4 * i) % 16) < 256 := permByte_lt ..
  rw [prmbVal_eq]
  have h0 := hlt 0
  have h1 := hlt 1
  have h2 := hlt 2
  have h3 := hlt 3
  simp only
  omega

theorem toNat_append_words (a b : Word) : (b ++ a).toNat = a.toNat + b.toNat * 2 ^ 32 := by
  rw [BitVec.toNat_append, ← Nat.shiftLeft_add_eq_or_of_lt a.isLt, Nat.shiftLeft_eq, Nat.add_comm]

theorem bits_values : bitValues := by
  intro w l
  refine ⟨fun n a b c hn => ?_, fun a b c => ⟨_, rfl, rfl, prmbVal_lt .., fun i hi j hj => ?_⟩⟩
  · subst hn
    obtain ⟨clzLe, clzAbove, clzOne⟩ := clzVal_spec a
    obtain ⟨ctzLe, ctzBelow, ctzOne⟩ := ctzVal_spec a
    refine ⟨⟨_, rfl, ?_⟩, ⟨_, rfl, rfl, clzLe, clzAbove, clzOne⟩, ⟨_, rfl, rfl, ctzLe, ctzBelow, ctzOne⟩, ⟨_, rfl, rfl, ?_, fun i hi => ?_⟩⟩
    · simp only [popcount_eq_length, BitVec.testBit_toNat]
    · exact (bitSum_spec _ _).1
    · rw [natBit_eq_testBit]
      exact ((bitSum_spec _ _).2 i hi).trans (natBit_toNat ..)
  · rw [natBit_eq_testBit, ← testBit_byte _ hj, byte_prmbVal _ _ _ hi, testBit_permByte _ _ hj, fld_nibble, ← toNat_append_words, BitVec.testBit_toNat]

end Sys2Proof.Machine
end

section
/-! PROOFS. Absent operands of lists, and values packed from two elements of 16 bits (spec/04 R91, R95). -/

namespace Sys2Proof.Machine

open Sys2Proof.Claims

/-- Without `.ai` an absent operand makes the result absent, with the flag of that where another is present (R95, R98). -/
theorem withAbsent_plain {t : Ty} {ids ops : List Nat} {f : List Nat → Res} (hne : ops ≠ []) :
    withAbsent t false ids ops f =
      if ops.all (isAbsent t) then (absentOf t, 0) else if ops.any (isAbsent t) then (absentOf t, AP) else f ops := by
  simp only [withAbsent, List.any_map, List.all_map, Function.id_comp]
  cases hany : ops.any (isAbsent t) <;> cases hall : ops.all (isAbsent t)
  case false.true =>
    obtain ⟨x, hx⟩ := List.exists_mem_of_ne_nil ops hne
    have h1 := List.all_eq_true.mp hall x hx
    have h2 := List.any_eq_false.mp hany x hx
    exact absurd h1 h2
  all_goals rfl

/-! ### Two elements of 16 bits -/

/-- An element with its flags as a result. -/
def halfRes (x : BitVec 16 × Flags) : Res := (x.1.toNat, x.2)

section halves
variable {t : Ty} (ht : tyWidth (tyElem t) = 16)
include ht

theorem elemOf_pixel (i : Nat) (a : Word) : elemOf t i a.toNat = (pixel a i).toNat := by
  rw [elemOf, ht, pixel, BitVec.extractLsb'_toNat, Nat.shiftRight_eq_div_pow]

theorem packElems_pair (x y : BitVec 16) : packElems t [x.toNat, y.toNat] = (y ++ x).toNat := by
  rw [BitVec.toNat_append, ← Nat.shiftLeft_add_eq_or_of_lt x.isLt, Nat.shiftLeft_eq]
  simp only [packElems, ht]
  omega

/-- An operation on both elements. -/
theorem packed_pixels (hc : tyCount t = 2) {f : Nat → Res} {g : Nat → BitVec 16 × Flags} (h : ∀ i < 2, f i = halfRes (g i)) :
    packed t f = pixels g := by
  have hpair : packElems t [(g 0).1.toNat, (g 1).1.toNat] = ((g 1).1 ++ (g 0).1).toNat := packElems_pair ht ..
  have hzero : 0 ||| (g 0).2 = (g 0).2 := BitVec.zero_or
  simp only [packed, hc, List.range_succ, List.range_zero, List.nil_append, List.cons_append, List.map_cons, List.map_nil,
    h 0 two_pos, h 1 one_lt_two, halfRes, hpair, List.foldl_cons, List.foldl_nil, hzero, pixels]

end halves

theorem pixels_of_values (g : Nat → BitVec 16) : pixels (fun i => (g i, 0)) = ((g 1 ++ g 0).toNat, 0) := Prod.ext rfl BitVec.zero_or

end Sys2Proof.Machine
end

section
/-! PROOFS. The pixel group (spec/06 R163, R164). -/

namespace Sys2Proof.Machine

open Sys2Proof.Claims

theorem elemOf_px2 (i : Nat) (a : Word) : elemOf .px2 i a.toNat = (pixel a i).toNat := elemOf_pixel rfl i a

/-- The code of an absent pixel. -/
def noData : BitVec 16 := 0xFFFF#16

theorem isAbsent_pixel (x : BitVec 16) : isAbsent .n16 x.toNat = (x == noData) := isAbsent_nat (t := .n16) (w := 16) rfl rfl x

theorem isAbsent_word (x : Word) : isAbsent .n32 x.toNat = (x == 0xFFFFFFFF#32) := isAbsent_nat (t := .n32) (w := 32) rfl rfl x

theorem intRes_pixel (z : Int) : intRes .n16 z = halfRes (pixelSat z) := by
  have h := intRes_nat (t := .n16) (w := 16) rfl (by decide) rfl z
  have hhi : (2 : Int) ^ 16 - 2 = 0xFFFE := rfl
  rw [hhi] at h
  rw [h, pixelSat]
  split_ifs
  · rfl
  · rfl
  · have hz : (BitVec.ofInt 16 z).toNat = z.toNat := by rw [← wrapInt_eq_ofInt, wrapInt_of_range] <;> omega
    rw [halfRes, hz]

theorem intVal_pixel (n : Nat) : intVal .n16 n = n := intVal_of_ne_int (by decide) n

/-- A pixel operation of two operands by the rule of absent ones. -/
theorem intBin_pixel (ai : Bool) (x y ix iy : BitVec 16) (f : Int → Int → Int) :
    intBin .n16 ai [ix.toNat, iy.toNat] f x.toNat y.toNat = halfRes (pixelTwo ai x y ix iy f) := by
  have habs (v : BitVec 16) {b : Bool} (h : isAbsent .n16 v.toNat = b) : (v = 0xFFFF#16) ↔ b = true := by
    rw [← h, isAbsent_pixel, beq_iff_eq]; rfl
  have hgone : absentOf .n16 = (0xFFFF#16).toNat := rfl
  unfold pixelTwo
  cases hx : isAbsent .n16 x.toNat <;> cases hy : isAbsent .n16 y.toNat <;> simp only [habs x hx, habs y hy]
  case false.false =>
    rw [intBin_present hx hy, intRes_pixel, intVal_pixel, intVal_pixel]
    rfl
  case false.true =>
    rw [intBin, withAbsent_right hx hy]
    cases ai <;> simp [hx, hy, intRes_pixel, intVal_pixel, hgone, halfRes]
  case true.false =>
    rw [intBin, withAbsent_left hx hy]
    cases ai <;> simp [hx, hy, intRes_pixel, intVal_pixel, hgone, halfRes]
  case true.true =>
    rw [intBin, withAbsent_both hx hy]
    rfl

/-- PADD to PABD: an operation on both pixels. -/
theorem pixBin_eq (ai : Bool) (ix iy : Nat → BitVec 16) (f : Int → Int → Int) (a b : Word) :
    packed .px2 (fun i => intBin .n16 ai [(ix i).toNat, (iy i).toNat] f (elemOf .px2 i a.toNat) (elemOf .px2 i b.toNat)) =
      pixels (fun i => pixelTwo ai (pixel a i) (pixel b i) (ix i) (iy i) f) :=
  packed_pixels rfl rfl (fun i _ => by rw [elemOf_px2, elemOf_px2, intBin_pixel])

theorem pixPair_eq (ai : Bool) (f : Int → Int → Int) (a b : Word) :
    pixPair ai f a.toNat b.toNat = pixels (fun i => pixelTwo ai (pixel a i) (pixel b i) (pixel b i) (pixel a i) f) := by
  rw [← pixBin_eq]
  simp only [pixPair, elemOf_px2]

theorem foldl_add_eq_sum (xs : List Int) (n : Int) : xs.foldl (· + ·) n = xs.sum + n := by
  induction xs generalizing n with
  | nil => simp
  | cons x xs ih => rw [List.foldl_cons, ih, List.sum_cons]; ring

/-- PSAD (R164). -/
theorem psadVal_eq (a b c : Word) :
    let both := (List.range 2).filter (fun i => pixel a i != noData && pixel b i != noData)
    psadVal a.toNat b.toNat c.toNat =
      if both = [] ∧ c = 0xFFFFFFFF#32 then (0xFFFFFFFF, 0)
      else
        let sum := (both.map (fun i => |((pixel a i).toNat : Int) - (pixel b i).toNat|)).sum + if c = 0xFFFFFFFF#32 then 0 else (c.toNat : Int)
        if 0xFFFFFFFE < sum then (0xFFFFFFFE, OF) else (sum.toNat, 0) := by
  intro both
  have hres (x : Int) (hx : 0 ≤ x) : intRes .n32 x = if 0xFFFFFFFE < x then (0xFFFFFFFE, OF) else (x.toNat, 0) := by
    rw [intRes_nat (t := .n32) (w := 32) rfl (by decide) rfl x, if_neg (not_lt.mpr hx)]
    rfl
  have hsum : 0 ≤ (both.map (fun i => |((pixel a i).toNat : Int) - (pixel b i).toNat|)).sum + if c = 0xFFFFFFFF#32 then 0 else (c.toNat : Int) := by
    refine add_nonneg (List.sum_nonneg fun x hx => ?_) (by split <;> omega)
    obtain ⟨i, -, rfl⟩ := List.mem_map.mp hx
    exact abs_nonneg _
  rw [← hres _ hsum]
  simp only [psadVal, elemOf_px2, isAbsent_pixel, isAbsent_word, foldl_add_eq_sum, List.isEmpty_iff, beq_iff_eq, Int.natCast_natAbs]
  rfl

/-- PMAD (R164). -/
theorem pmadVal_eq (a b c : Word) :
    pmadVal a.toNat b.toNat c.toNat = pixels (fun i =>
      if pixel a i = noData ∧ pixel b i = noData ∧ pixel c i = noData then (noData, 0)
      else if pixel a i = noData ∨ pixel b i = noData ∨ pixel c i = noData then (noData, AP)
      else pixelSat (((pixel a i).toNat * (pixel b i).toNat + 128) / 256 + (pixel c i).toNat)) := by
  refine packed_pixels rfl rfl (fun i _ => ?_)
  rw [withAbsent_plain (by simp), elemOf_px2, elemOf_px2, elemOf_px2]
  simp only [List.all_cons, List.all_nil, List.any_cons, List.any_nil, isAbsent_pixel, Bool.and_true, Bool.or_false, Bool.and_eq_true, Bool.or_eq_true,
    beq_iff_eq, intRes_pixel]
  split_ifs
  · rfl
  · rfl
  · simp

/-- PSHR (R163). -/
theorem pshrVal_eq (a : Word) (n : Nat) :
    (pshrVal a.toNat n, 0) = pixels (fun i => (if pixel a i = noData then noData else pixel a i >>> (n % 16), 0)) := by
  have hshift (x : BitVec 16) : (if (x == noData) = true then x.toNat else x.toNat / 2 ^ (n % 16)) = (if x = noData then noData else x >>> (n % 16)).toNat := by
    simp only [beq_iff_eq]
    split_ifs with h
    · rw [h]
    · rw [BitVec.toNat_ushiftRight, Nat.shiftRight_eq_div_pow]
  rw [pixels_of_values, ← packElems_pair (t := .px2) rfl]
  simp only [pshrVal, elemOf_px2, isAbsent_pixel, hshift]
  rfl

/-- PCLMP (R163). -/
theorem pclmpVal_eq (a b c : Word) :
    (pclmpVal a.toNat b.toNat c.toNat, 0) = pixels (fun i =>
      let low := if pixel b i = noData then (pixel a i).toNat else max (pixel a i).toNat (pixel b i).toNat
      (if pixel a i = noData then noData else BitVec.ofNat 16 (if pixel c i = noData then low else min low (pixel c i).toNat), 0)) := by
  have hclamp (x l h : BitVec 16) :
      (if (x == noData) = true then x.toNat
        else if (h == noData) = true then (if (l == noData) = true then x.toNat else max x.toNat l.toNat)
        else min (if (l == noData) = true then x.toNat else max x.toNat l.toNat) h.toNat) =
      (if x = noData then noData
        else BitVec.ofNat 16 (if h = noData then (if l = noData then x.toNat else max x.toNat l.toNat)
          else min (if l = noData then x.toNat else max x.toNat l.toNat) h.toNat)).toNat := by
    have hx := x.isLt
    have hl := l.isLt
    have hlow : (if l = noData then x.toNat else max x.toNat l.toNat) < 2 ^ 16 := by split <;> omega
    simp only [beq_iff_eq]
    split_ifs with h1
    · rw [h1]
    all_goals rw [BitVec.toNat_ofNat, Nat.mod_eq_of_lt (by omega)]
  rw [pixels_of_values, ← packElems_pair (t := .px2) rfl]
  simp only [pclmpVal, elemOf_px2, isAbsent_pixel, hclamp]
  rfl

/-- The pixel that a n32 number is converted to, clamped (R103, R163). -/
def narrowed (x : Word) : BitVec 16 × Flags :=
  if x = 0xFFFFFFFF#32 then (noData, 0) else if 0xFFFE < x.toNat then (0xFFFE, NV) else (x.setWidth 16, 0)

theorem intVal_word (n : Nat) : intVal .n32 n = n := intVal_of_ne_int (by decide) n

theorem convert_narrow (x : Word) : convert .n32 .n16 .rne false x.toNat none = halfRes (narrowed x) := by
  have hmax : intMax .n16 = 0xFFFE := rfl
  have hmin : intMin .n16 = 0 := rfl
  cases hx : isAbsent .n32 x.toNat
  · have hne : x ≠ 0xFFFFFFFF#32 := by rwa [isAbsent_word, beq_eq_false_iff_ne] at hx
    rw [convert_int (.inr rfl) hx (by decide), if_neg (by decide), intVal_word, narrowed, if_neg hne]
    split_ifs with hbig
    · have hclamp : clampInt 0 0xFFFE x.toNat = 0xFFFE := by unfold clampInt; omega
      have hchanged : ((0xFFFE : Int) != x.toNat) = true := by rw [bne_iff_ne]; omega
      simp only [satInt, hmax, hmin, hclamp, hchanged]
      rfl
    · have hclamp : clampInt 0 0xFFFE x.toNat = x.toNat := by unfold clampInt; omega
      have hcode : intCode .n16 x.toNat = (x.setWidth 16).toNat := by
        rw [intCode, wrapInt_eq_ofInt, BitVec.ofInt_natCast, BitVec.ofNat_toNat]; rfl
      simp only [satInt, hmax, hmin, hclamp, bne_self_eq_false, hcode]
      rfl
  · have heq : x = 0xFFFFFFFF#32 := by rwa [isAbsent_word, beq_iff_eq] at hx
    rw [narrowed, if_pos heq, convert, if_pos (.inl hx)]
    rfl

theorem convert_widen (x : BitVec 16) : (convert .n16 .n32 .rne false x.toNat none).1 = if x = noData then 0xFFFFFFFF else x.toNat := by
  have hmax : intMax .n32 = 0xFFFFFFFE := rfl
  have hmin : intMin .n32 = 0 := rfl
  cases hx : isAbsent .n16 x.toNat
  · have hne : x ≠ noData := by rwa [isAbsent_pixel, beq_eq_false_iff_ne] at hx
    have hlt := x.isLt
    have hclamp : clampInt 0 0xFFFFFFFE x.toNat = x.toNat := by unfold clampInt; omega
    rw [convert_int (.inr rfl) hx (by decide), if_neg (by decide), intVal_pixel, if_neg hne]
    simp only [satInt, hmax, hmin, hclamp, intCode]
    rw [wrapInt_of_range (Int.natCast_nonneg _) (by show _ < (2 : Int) ^ 32; omega), Int.toNat_natCast]
  · have heq : x = noData := by rwa [isAbsent_pixel, beq_iff_eq] at hx
    rw [if_pos heq, convert, if_pos (.inl hx)]
    rfl

theorem ppackVal_eq (a b : Word) : ppackVal a.toNat b.toNat = pixels (fun i => narrowed (if i = 0 then a else b)) := by
  have hpair : packElems .px2 [(narrowed a).1.toNat, (narrowed b).1.toNat] = ((narrowed b).1 ++ (narrowed a).1).toNat := packElems_pair rfl ..
  simp only [ppackVal, convert_narrow, halfRes, hpair]
  rfl

theorem punpkVal_eq (a : Word) (i : Nat) : punpkVal a.toNat i = if pixel a (i % 2) = noData then 0xFFFFFFFF else (pixel a (i % 2)).toNat := by
  rw [punpkVal, elemOf_px2, convert_widen]

/-- Every instruction of the pixel group by its rule. -/
theorem pixels_values : pixelValues := by
  intro w l a b c
  refine ⟨⟨_, rfl, ?_⟩, ⟨_, rfl, ?_⟩, ⟨_, rfl, ?_⟩, ⟨_, rfl, ?_⟩, ⟨_, rfl, ?_⟩, ⟨_, rfl, ?_⟩, ⟨_, rfl, psadVal_eq a b c⟩, ⟨_, rfl, pmadVal_eq a b c⟩,
    ⟨_, rfl, ?_⟩, ⟨_, rfl, ppackVal_eq a b⟩, ⟨_, rfl, ?_⟩, ⟨_, rfl, ?_⟩⟩
  · exact pixBin_eq (aiOf w) (fun _ => 0) (fun _ => 0) (· + ·) a b
  · exact pixBin_eq (aiOf w) (fun _ => 0) (fun _ => 0) (· - ·) a b
  · exact pixBin_eq (aiOf w) (fun _ => 0xFFFE) (fun _ => 0xFFFE) min a b
  · exact pixBin_eq (aiOf w) (fun _ => 0) (fun _ => 0) max a b
  · exact pixPair_eq ..
  · have habs : (fun x y : Int => ((x - y).natAbs : Int)) = fun x y => |x - y| := funext₂ (fun _ _ => Int.natCast_natAbs _)
    exact habs ▸ pixPair_eq ..
  · exact pshrVal_eq a b.toNat
  · exact Prod.ext (punpkVal_eq a b.toNat) rfl
  · exact pclmpVal_eq a b c

end Sys2Proof.Machine
end

section
/-! PROOFS. Results that rounding leaves as they are, and the patterns of f32 (spec/04 R90, R99, R100). -/

namespace Sys2Proof.Machine

open Sys2Proof.Claims

/-! ### Numbers that a type holds are not changed by rounding -/

theorem isRounding_int {mode : RMode} {x : ℚ} {k K : ℤ} (h : isRounding mode x k) (hx : x = K) : k = K :=
  le_antisymm (isRounding_le h hx.le) (le_isRounding h hx.ge)

/-- A number with no more bits than the type's significand, within its range, is rounded to itself (R99). -/
theorem roundsTo_exact {t : Ty} {mode : RMode} {sat : Bool} {x : ℚ} {r : Res} (h : roundsTo t mode sat x r) {K p : ℤ} (hx : x = K * 2 ^ p)
    (hK : |K| < 2 ^ ((ffmt t).mb + 1)) (hp : (ffmt t).qmin ≤ p) (hle : |x| ≤ numOf (fval t (ffmt t).maxCode)) :
    r.1 < 2 ^ tyWidth t ∧ isFin (fval t r.1) = true ∧ numOf (fval t r.1) = x ∧ negOf (fval t r.1) = decide (x < 0) ∧ r.2 = 0 := by
  obtain ⟨hlt, ex, k, j, lo, -, hk, -, inside, -⟩ := h
  have hex : ex < (ffmt t).mb + 1 + p := by
    refine two_zpow_lt.mp (lo.trans_lt ?_)
    rw [hx, abs_mul, abs_of_pos (two_zpow_pos p), two_zpow_add]
    exact mul_lt_mul_of_pos_right (by exact_mod_cast hK) (two_zpow_pos p)
  have hq : max (ex - ((ffmt t).mb : ℤ)) (ffmt t).qmin ≤ p := max_le (by omega) hp
  generalize max (ex - ((ffmt t).mb : ℤ)) (ffmt t).qmin = q at *
  obtain ⟨i, rfl⟩ : ∃ i : Nat, p = i + q := ⟨(p - q).toNat, by omega⟩
  have hpos := two_zpow_pos q
  have hmul : x = (K * 2 ^ i : ℤ) * 2 ^ q := by rw [hx, two_zpow_add]; push_cast; rw [zpow_natCast, mul_assoc]
  have hkK := isRounding_int hk (by rw [hmul, mul_div_assoc, div_self hpos.ne', mul_one])
  have hv : (k : ℚ) * 2 ^ q = x := by rw [hkK, hmul]
  simp only [hv, if_true] at inside
  obtain ⟨hfin, hnum, hneg, hflags⟩ := inside hle
  exact ⟨hlt, hfin, hnum, hneg, hflags⟩

/-! ### The numbers of f32 -/

/-- A number of f32 by its sign, its significand and its exponent (R90). -/
theorem fval_f32_fin {a : Word} (h : isFin (fval .f32 a.toNat) = true) :
    ∃ m e, fval .f32 a.toNat = .fin (a.getLsbD 31) m e ∧ m < 2 ^ 24 ∧ -149 ≤ e ∧ e ≤ 104 := by
  have hmag : a.toNat % 2 ^ 31 < 2 ^ 31 := Nat.mod_lt _ (Nat.two_pow_pos 31)
  have hparts : fval .f32 a.toNat = (ffmt .f32).parts (natBit a.toNat 31) (a.toNat % 2 ^ 31) := fval_eq_parts .f32 a.toNat
  rw [hparts] at h ⊢
  have hc := parts_isFin _ (ffmt_eb_pos .f32) hmag h
  have hdiv := (le_maxCode_iff (ffmt .f32) rfl (ffmt_eb_pos .f32) _).mp hc
  rw [parts_fin _ (ffmt_eb_pos .f32) hc, natBit_toNat]
  refine ⟨_, _, rfl, mant_lt .., ?_, ?_⟩
  · exact le_add_of_nonneg_right (Int.natCast_nonneg _)
  · have hexp : (ffmt .f32).expo (a.toNat % 2 ^ 31) = -149 + (a.toNat % 2 ^ 31 / 2 ^ 23 - 1 : Nat) := rfl
    have hdiv' : a.toNat % 2 ^ 31 / 2 ^ 23 < 255 := hdiv
    rw [hexp]
    omega

end Sys2Proof.Machine
end

section
/-! PROOFS. Special functions: the exact cases, and the flags of the open ones (spec/06 R162). -/

namespace Sys2Proof.Machine

open Sys2Proof.Claims

/-! ### Exact results -/

/-- A zero of a sign; a one of a sign. -/
def zeroRes (n : Bool) : Res := (if n then 0x80000000 else 0, 0)
def oneRes (n : Bool) : Res := (if n then 0xBF800000 else 0x3F800000, 0)

section exact
variable (mode : RMode) (sat n : Bool)

theorem exactResult_nan : exactResult mode sat .nan NV = (0x7FC00000, NV) := rfl

theorem exactResult_zero : exactResult mode sat (.zero n) 0 = zeroRes n := by cases n <;> rfl

theorem exactResult_inf (fl : Flags) : exactResult mode sat (.inf n) fl = infinite sat n fl := by
  cases sat
  · have hfl : 0 ||| fl = fl := BitVec.zero_or
    cases n <;> exact Prod.ext rfl hfl
  · cases n <;> rfl

theorem exactResult_one : exactResult .rne sat (.num n 1 1 0) 0 = oneRes n := by cases sat <;> cases n <;> decide

theorem exactResult_eq (x : Ex) (fl : Flags) :
    exactResult mode sat x fl = ((roundF (ffmt .f32) mode sat x).1, (roundF (ffmt .f32) mode sat x).2 ||| fl) := rfl

theorem exactResult_plain (x : Ex) : exactResult mode sat x 0 = roundF (ffmt .f32) mode sat x := Prod.ext rfl BitVec.or_zero

end exact

/-! ### What every special function does with absent and with NaN -/

/-- A function of one f32 operand that answers absent with absent and a NaN with the canonical one. -/
def passesOn (g : Nat → Res) : Prop :=
  ∀ x, (fval .f32 x = .absent → g x = (0xFFFFFFFF, 0)) ∧ ((fval .f32 x).isNan = true → g x = (0x7FC00000, if (fval .f32 x).isSig then NV else 0))

theorem passesOn_of {g : Nat → Res} (h0 : ∀ x, fval .f32 x = .absent → g x = (absentOf .f32, 0))
    (h1 : ∀ x s, fval .f32 x = .nan s → g x = ((ffmt .f32).nanCode, flagIf s NV)) : passesOn g := by
  refine fun x => ⟨h0 x, fun hnan => ?_⟩
  cases h : fval .f32 x with
  | nan s => exact h1 x s h
  | _ => simp [h, FVal.isNan] at hnan

section passesOn
variable (mode : RMode) (sat : Bool)

theorem rcpVal_passesOn : passesOn (rcpVal mode sat) := passesOn_of (fun x h => by rw [rcpVal, h]) (fun x s h => by rw [rcpVal, h])
theorem sqrtVal_passesOn : passesOn (sqrtVal mode sat) := passesOn_of (fun x h => by rw [sqrtVal, h]) (fun x s h => by rw [sqrtVal, h])
theorem rsqVal_passesOn : passesOn (rsqVal sat) := passesOn_of (fun x h => by rw [rsqVal, h]) (fun x s h => by rw [rsqVal, h])
theorem exp2Val_passesOn : passesOn (exp2Val sat) := passesOn_of (fun x h => by rw [exp2Val, h]) (fun x s h => by rw [exp2Val, h])
theorem log2Val_passesOn : passesOn (log2Val sat) := passesOn_of (fun x h => by rw [log2Val, h]) (fun x s h => by rw [log2Val, h])
theorem sinpiVal_passesOn : passesOn (sinpiVal sat) := passesOn_of (fun x h => by rw [sinpiVal, h]) (fun x s h => by rw [sinpiVal, h])
theorem cospiVal_passesOn : passesOn (cospiVal sat) := passesOn_of (fun x h => by rw [cospiVal, h]) (fun x s h => by rw [cospiVal, h])
theorem tanhVal_passesOn : passesOn (tanhVal sat) := passesOn_of (fun x h => by rw [tanhVal, h]) (fun x s h => by rw [tanhVal, h])

end passesOn

/-! ### Open results raise inexact, and beside it overflow or underflow alone -/

/-- The flags of a result whose value is left open. -/
def openFlag (fl : Flags) : Prop := fl &&& NX = NX ∧ fl &&& (NV ||| DZ ||| AP) = 0

theorem openFlag_openFlags (mode : RMode) (neg : Bool) (v : Approx) (r c : Nat) : openFlag (openFlags mode neg v r c) := by
  have h (tiny : Bool) : openFlag (NX ||| flagIf tiny UF) := by cases tiny <;> exact ⟨by decide, by decide⟩
  exact h _

theorem openFlag_roundF (f : FFmt) (mode : RMode) (sat neg : Bool) (n d : Nat) (e : ℤ) :
    openFlag ((roundF f mode sat (.num neg n d e)).2 ||| NX) := by
  have h (inexact tiny : Bool) : openFlag (flagIf inexact NX ||| flagIf (inexact && tiny) UF ||| NX) := by
    cases inexact <;> cases tiny <;> exact ⟨by decide, by decide⟩
  rw [roundF_num]
  split
  · exact (show openFlag (OF ||| NX ||| NX) from ⟨by decide, by decide⟩)
  · exact h ..

/-- A result with the flags of an open one. -/
def openRes (r : Res) : Prop := openFlag r.2

/-- A function that answers with an open value whatever it is asked. It is said of the function, not of its value: so `openValue` can be unfolded
without the kernel evaluating the rounding in it. -/
def AnswersOpen (g : SpecialFn → Word → RMode → Bool → Bool → Approx → Nat → Int → Res) : Prop :=
  ∀ fn x mode sat neg v tol te, openRes (g fn x mode sat neg v tol te)

theorem AnswersOpen.of_forall {g : SpecialFn → Word → RMode → Bool → Bool → Approx → Nat → Int → Res}
    (h : ∀ fn x mode sat neg v tol te, openRes (g fn x mode sat neg v tol te)) : AnswersOpen g := h

theorem openValue_answersOpen : AnswersOpen openValue := by
  delta openValue
  refine AnswersOpen.of_forall (fun fn x mode sat neg v tol te => ?_)
  have hrounded := openFlag_roundF (ffmt .f32) mode sat neg v.1 1 v.2
  generalize roundF (ffmt .f32) mode sat (.num neg v.1 1 v.2) = p at hrounded ⊢
  obtain ⟨r, fl⟩ := p
  simp only
  split
  · exact hrounded
  · split
    · split
      · exact openFlag_openFlags ..
      · exact openFlag_openFlags ..
    · exact openFlag_openFlags ..

theorem openUlps_open (fn : SpecialFn) (x : Word) (mode : RMode) (sat neg : Bool) (v : Approx) (tol : Nat) :
    openRes (openUlps fn x mode sat neg v tol) := openValue_answersOpen ..

end Sys2Proof.Machine
end

section
/-! PROOFS. Special functions of numbers: reciprocals, powers and logarithms of two, sines and cosines, and tanh (spec/06 R162). -/

namespace Sys2Proof.Machine

open Sys2Proof.Claims

/-! ### What each function does with a number -/

section equations
variable {x : Nat} {n : Bool} {m : Nat} {e : ℤ} (h : fval .f32 x = .fin n m e) (mode : RMode) (sat : Bool)
include h

theorem rcpVal_fin : rcpVal mode sat x = if m = 0 then exactResult mode sat (.inf n) DZ else exactResult mode sat (.num n 1 m (-e)) NX := by
  rw [rcpVal, h]

theorem sqrtVal_fin : sqrtVal mode sat x =
    if m = 0 then exactResult mode sat (.zero n) 0 else if n then exactResult mode sat .nan NV else exactResult mode sat (sqrtEx m e) NX := by
  rw [sqrtVal, h]

theorem rsqVal_fin : rsqVal sat x =
    if m = 0 then exactResult .rne sat (.inf n) DZ else if n then exactResult .rne sat .nan NV
    else openUlps .rsq (BitVec.ofNat 32 x) .rne sat false (rsqApprox m e) 1 := by
  rw [rsqVal, h]

/-- The exponent that EXP2 takes for ±o × 2^k, one past every exponent of f32 standing for all beyond. -/
def exp2Power (n : Bool) (o : Nat) (k : ℤ) : ℤ :=
  let i : ℤ := if decide (9 ≤ flog2 o 1 + k) then 512 else shiftUp o k
  if n then -i else i

theorem exp2Val_fin : exp2Val sat x =
    if m = 0 then exactResult .rne sat (.num false 1 1 0) 0
    else if 0 ≤ (oddPart 24 m e).2 then exactResult .rne sat (.num false 1 1 (exp2Power n (oddPart 24 m e).1 (oddPart 24 m e).2)) 0
    else openUlps .exp2 (BitVec.ofNat 32 x) .rne sat false (exp2Approx n (oddPart 24 m e).1 (oddPart 24 m e).2) 2 := by
  rw [exp2Val, h]
  rfl

theorem tanhVal_fin : m = 0 ∧ tanhVal sat x = exactResult .rne sat (.zero n) 0 ∨ m ≠ 0 ∧ openRes (tanhVal sat x) := by
  rw [tanhVal, h]
  by_cases hm : m = 0
  · exact .inl ⟨hm, if_pos hm⟩
  · refine .inr ⟨hm, ?_⟩
    simp only [if_neg hm]
    exact openUlps_open ..

/-- LOG2 of a power of two is the exponent, and of another positive number open. -/
theorem log2Val_fin (hm : m ≠ 0) (hn : n = false) :
    (m = 2 ^ (flog2 m 1).toNat → log2Val sat x = exactResult .rne sat (exOfInt (flog2 m 1 + e)) 0) ∧
    (m ≠ 2 ^ (flog2 m 1).toNat → openRes (log2Val sat x)) := by
  rw [log2Val, h]
  simp only [if_neg hm, hn, Bool.false_eq_true, if_false]
  refine ⟨fun hp => if_pos hp, fun hp => ?_⟩
  rw [if_neg hp]
  split
  · exact openValue_answersOpen ..
  · exact openUlps_open ..

theorem log2Val_special : (m = 0 → log2Val sat x = exactResult .rne sat (.inf true) DZ) ∧
    (m ≠ 0 → n = true → log2Val sat x = exactResult .rne sat .nan NV) := by
  rw [log2Val, h]
  exact ⟨fun hm => if_pos hm, fun hm hn => by simp only [if_neg hm, hn, if_true]⟩

/-- What the sine of π times a number comes to: 0, a one of a sign, or an open value; `sign` gives the sign from whether the number lies in the second
half of its turn. -/
def sineRes (sat zero : Bool) (sign : Bool → Bool) (fn : SpecialFn) (x : Word) : SinR → Res
  | .exact 0 => exactResult .rne sat (.zero zero) 0
  | .exact v => exactResult .rne sat (.num (sign (v < 0)) 1 1 0) 0
  | .near g v => openUlps fn x .rne sat (sign g) v 2

theorem sinpiVal_fin : sinpiVal sat x = sineRes sat n (· != n) .sinpi (BitVec.ofNat 32 x) (sinR (mod2 m e).1 (mod2 m e).2) := by
  rw [sinpiVal, h]
  rfl

/-- The place a quarter turn on, for a number of half turns with at least one fraction bit. -/
def quarterOn (m : Nat) (e : ℤ) : Nat :=
  ((mod2 m e).1 * 2 ^ ((mod2 m e).2 - min (mod2 m e).2 (-1)).toNat + 2 ^ (-1 - min (mod2 m e).2 (-1)).toNat) %
    2 ^ (1 - min (mod2 m e).2 (-1)).toNat

theorem cospiVal_fin : cospiVal sat x = sineRes sat false id .cospi (BitVec.ofNat 32 x) (sinR (quarterOn m e) (min (mod2 m e).2 (-1))) := by
  rw [cospiVal, h]
  rfl

end equations

section sine
variable (sat zero : Bool) (sign : Bool → Bool) (fn : SpecialFn) (x : Word)

theorem sineRes_zero : sineRes sat zero sign fn x (.exact 0) = zeroRes zero := exactResult_zero .rne sat zero

theorem sineRes_one (odd : Bool) : sineRes sat zero sign fn x (.exact (if odd then -1 else 1)) = oneRes (sign odd) := by
  cases odd
  · exact exactResult_one sat (sign false)
  · exact exactResult_one sat (sign true)

theorem sineRes_near (g : Bool) (v : Approx) : openRes (sineRes sat zero sign fn x (.near g v)) := openUlps_open ..

end sine

/-! ### Sines by the place in a turn -/

theorem sinR_eq (M E : Nat) :
    sinR (M % 2 ^ (E + 1)) (-E) =
      let r := min (M % 2 ^ E) (2 ^ E - M % 2 ^ E)
      let second := decide (2 ^ E ≤ M % (2 ^ E * 2))
      if r = 0 then .exact 0 else if 2 * r = 2 ^ E then .exact (if second then -1 else 1) else .near second (sinPiApprox r (-E)) := by
  have hE : (-(-(E : ℤ))).toNat = E := by omega
  simp only [sinR, hE, pow_succ, Nat.mod_mul_right_mod, decide_eq_true_eq]

/-- Of `M` steps, 2^E of which make half a turn: a whole number of halves, one and a half or so, or neither. -/
theorem sinR_cases (M E : Nat) :
    (∀ q, M = q * 2 ^ E → sinR (M % 2 ^ (E + 1)) (-E) = .exact 0) ∧
    (∀ q, 2 * M = (2 * q + 1) * 2 ^ E → sinR (M % 2 ^ (E + 1)) (-E) = .exact (if q % 2 == 1 then -1 else 1)) ∧
    ((∀ j, 2 * M ≠ j * 2 ^ E) → ∃ g v, sinR (M % 2 ^ (E + 1)) (-E) = .near g v) := by
  have hpos := Nat.two_pow_pos E
  rw [sinR_eq]
  generalize 2 ^ E = one at hpos ⊢
  refine ⟨fun q hM => ?_, fun q hM => ?_, fun hM => ?_⟩
  · have hr : M % one = 0 := by rw [hM, Nat.mul_mod_left]
    simp only [hr, Nat.zero_min, if_true]
  · obtain ⟨half, rfl⟩ : ∃ half, one = 2 * half := by
      have heven : Even ((2 * q + 1) * one) := ⟨M, by omega⟩
      obtain ⟨half, h⟩ := (Nat.even_mul.mp heven).resolve_left (by simp)
      exact ⟨half, by omega⟩
    have hMq : M = q * (2 * half) + half := by rw [add_mul, mul_assoc] at hM; omega
    have hr : M % (2 * half) = half := by rw [hMq, Nat.mul_add_mod_self_right, Nat.mod_eq_of_lt (by omega)]
    have hsecond : decide (2 * half ≤ M % (2 * half * 2)) = (q % 2 == 1) := by
      obtain ⟨p, rfl | rfl⟩ := Nat.even_or_odd' q
      · have hN : M % (2 * half * 2) = half := by
          rw [hMq, show 2 * p * (2 * half) + half = p * (2 * half * 2) + half by ring, Nat.mul_add_mod_self_right, Nat.mod_eq_of_lt (by omega)]
        rw [hN, decide_eq_false (by omega)]
        simp
      · have hN : M % (2 * half * 2) = 3 * half := by
          rw [hMq, show (2 * p + 1) * (2 * half) + half = p * (2 * half * 2) + 3 * half by ring, Nat.mul_add_mod_self_right, Nat.mod_eq_of_lt (by omega)]
        rw [hN, decide_eq_true (by omega)]
        simp
    have hmin : min half (2 * half - half) = half := by omega
    simp only [hr, hsecond, hmin, if_true, if_neg (show half ≠ 0 by omega)]
  · have hdiv := Nat.div_add_mod M one
    have hlt := Nat.mod_lt M hpos
    have hr (j : Nat) : 2 * (M % one) ≠ j * one := by
      intro hj
      refine hM (2 * (M / one) + j) ?_
      rw [add_mul, ← hj, mul_assoc, mul_comm (M / one)]
      omega
    have h0 := hr 0
    have h1 := hr 1
    exact ⟨_, _, by rw [if_neg (by omega), if_neg (by omega)]⟩

/-- Steps of 2^−E: which of them stand for a whole number, for one and a half or so, and for a multiple of a half. -/
theorem steps_of_value {y : ℚ} {M E : Nat} (hy : y = M * 2 ^ (-(E : ℤ))) (j : Nat) :
    (y = j ↔ M = j * 2 ^ E) ∧ (y = j + 1 / 2 ↔ 2 * M = (2 * j + 1) * 2 ^ E) ∧ (2 * y = j ↔ 2 * M = j * 2 ^ E) := by
  have hpos : (0 : ℚ) < 2 ^ E := by positivity
  have hM : y * 2 ^ E = M := by rw [hy, zpow_neg, zpow_natCast, mul_assoc, inv_mul_cancel₀ hpos.ne', mul_one]
  refine ⟨?_, ?_, ?_⟩
  · rw [← mul_left_inj' hpos.ne', hM]
    exact_mod_cast Iff.rfl
  · rw [← mul_left_inj' (mul_pos two_pos hpos).ne', mul_left_comm, hM, show ((j : ℚ) + 1 / 2) * (2 * 2 ^ E) = (2 * j + 1) * 2 ^ E by ring]
    exact_mod_cast Iff.rfl
  · rw [← mul_left_inj' hpos.ne', mul_assoc, hM]
    exact_mod_cast Iff.rfl

/-- A number with an exponent of 1 or more is an even whole number. -/
theorem even_of_pos_exponent {e : ℤ} (he : 1 ≤ e) (m : Nat) : ∃ p : Nat, (m : ℚ) * 2 ^ e = (2 * p : Nat) := by
  refine ⟨m * 2 ^ (e - 1).toNat, ?_⟩
  obtain ⟨i, rfl⟩ : ∃ i : Nat, e = i + 1 := ⟨(e - 1).toNat, by omega⟩
  rw [two_zpow_add]
  simp
  ring

theorem not_half (p q : Nat) : ((2 * p : Nat) : ℚ) ≠ q + 1 / 2 := by
  intro h
  have h2 : ((2 * (2 * p) : Nat) : ℚ) = (2 * q + 1 : Nat) := by push_cast at h ⊢; linarith
  have := Nat.cast_injective h2
  omega

/-- The sine of π times m × 2^e. -/
theorem sinR_mod2 (m : Nat) (e : ℤ) :
    (∀ q : Nat, (m : ℚ) * 2 ^ e = q → sinR (mod2 m e).1 (mod2 m e).2 = .exact 0) ∧
    (∀ q : Nat, (m : ℚ) * 2 ^ e = q + 1 / 2 → sinR (mod2 m e).1 (mod2 m e).2 = .exact (if q % 2 == 1 then -1 else 1)) ∧
    ((∀ j : Nat, 2 * ((m : ℚ) * 2 ^ e) ≠ j) → ∃ g v, sinR (mod2 m e).1 (mod2 m e).2 = .near g v) := by
  rcases le_or_gt 1 e with he | he
  · obtain ⟨p, hp⟩ := even_of_pos_exponent he m
    rw [mod2, if_pos he, hp]
    refine ⟨fun _ _ => rfl, fun q hq => absurd hq (not_half p q), fun h => absurd ?_ (h (2 * (2 * p)))⟩
    push_cast
    ring
  · obtain ⟨E, rfl⟩ : ∃ E : Nat, e = -E := ⟨(-e).toNat, by omega⟩
    have hsteps := steps_of_value (y := (m : ℚ) * 2 ^ (-(E : ℤ))) rfl
    have hmod : mod2 m (-E) = (m % 2 ^ (E + 1), -(E : ℤ)) := by rw [mod2, if_neg (by omega), show (1 - -(E : ℤ)).toNat = E + 1 by omega]
    obtain ⟨whole, half, near⟩ := sinR_cases m E
    rw [hmod]
    exact ⟨fun q hq => whole q ((hsteps q).1.mp hq), fun q hq => half q ((hsteps q).2.1.mp hq), fun h => near (fun j hj => h j ((hsteps j).2.2.mpr hj))⟩

/-- The place a quarter turn on, in steps of 2^−E. -/
theorem quarterOn_eq (m E : Nat) :
    ∃ h : Nat, min (mod2 m (-E)).2 (-1) = -((h + 1 : Nat) : ℤ) ∧
      ∃ M : Nat, (m : ℚ) * 2 ^ (-(E : ℤ)) = M * 2 ^ (-((h + 1 : Nat) : ℤ)) ∧ quarterOn m (-E) = (M + 2 ^ h) % 2 ^ (h + 1 + 1) := by
  have hmod : mod2 m (-E) = (m % 2 ^ (E + 1), -(E : ℤ)) := by rw [mod2, if_neg (by omega), show (1 - -(E : ℤ)).toNat = E + 1 by omega]
  refine ⟨E - 1, by rw [hmod]; simp only; omega, m * 2 ^ (E - 1 + 1 - E), ?_, ?_⟩
  · rw [show -(E : ℤ) = ((E - 1 + 1 - E : Nat) : ℤ) + -((E - 1 + 1 : Nat) : ℤ) by omega, two_zpow_add, zpow_natCast]
    push_cast
    ring
  · have hmin : min (-(E : ℤ)) (-1) = -((E - 1 + 1 : Nat) : ℤ) := by omega
    have h1 : (-(E : ℤ) - -((E - 1 + 1 : Nat) : ℤ)).toNat = E - 1 + 1 - E := by omega
    have h2 : (-1 - -((E - 1 + 1 : Nat) : ℤ)).toNat = E - 1 := by omega
    have h3 : (1 - -((E - 1 + 1 : Nat) : ℤ)).toNat = E - 1 + 1 + 1 := by omega
    have h4 : E - 1 + 1 + 1 = E + 1 + (E - 1 + 1 - E) := by omega
    simp only [quarterOn, hmod, hmin, h1, h2, h3]
    rw [← Nat.mul_mod_mul_right, ← pow_add, ← h4, Nat.mod_add_mod]

/-- The cosine of π times m × 2^e. -/
theorem sinR_quarterOn (m : Nat) (e : ℤ) :
    (∀ q : Nat, (m : ℚ) * 2 ^ e = q → sinR (quarterOn m e) (min (mod2 m e).2 (-1)) = .exact (if q % 2 == 1 then -1 else 1)) ∧
    (∀ q : Nat, (m : ℚ) * 2 ^ e = q + 1 / 2 → sinR (quarterOn m e) (min (mod2 m e).2 (-1)) = .exact 0) ∧
    ((∀ j : Nat, 2 * ((m : ℚ) * 2 ^ e) ≠ j) → ∃ g v, sinR (quarterOn m e) (min (mod2 m e).2 (-1)) = .near g v) := by
  rcases le_or_gt 1 e with he | he
  · obtain ⟨p, hp⟩ := even_of_pos_exponent he m
    have hmod : mod2 m e = (0, 0) := if_pos he
    simp only [quarterOn, hmod, hp]
    refine ⟨fun q hq => ?_, fun q hq => absurd hq (not_half p q), fun h => absurd ?_ (h (2 * (2 * p)))⟩
    · obtain rfl : q = 2 * p := (Nat.cast_injective hq).symm
      have heven : (2 * p % 2 == 1) = false := by rw [Nat.mul_mod_right]; rfl
      rw [heven]
      decide
    · push_cast
      ring
  · obtain ⟨E, rfl⟩ : ∃ E : Nat, e = -E := ⟨(-e).toNat, by omega⟩
    obtain ⟨h, hmin, M, hM, hplace⟩ := quarterOn_eq m E
    have hsteps := steps_of_value hM
    have hpow : 2 ^ (h + 1) = 2 * 2 ^ h := Nat.pow_succ'
    obtain ⟨whole, half, near⟩ := sinR_cases (M + 2 ^ h) (h + 1)
    rw [hmin, hplace]
    refine ⟨fun q hq => half q ?_, fun q hq => whole (q + 1) ?_, fun hne => near (fun j hj => ?_)⟩
    · rw [(hsteps q).1.mp hq, hpow]; ring
    · have := (hsteps q).2.1.mp hq
      rw [hpow] at this ⊢
      nlinarith
    · obtain ⟨i, rfl⟩ : ∃ i, j = i + 1 := Nat.exists_eq_succ_of_ne_zero (by rintro rfl; have := Nat.two_pow_pos h; omega)
      refine hne i ((hsteps i).2.2.mpr ?_)
      rw [hpow] at hj ⊢
      linarith

end Sys2Proof.Machine
end

section
/-! PROOFS. Powers and logarithms of two, and reciprocals (spec/06 R162). -/

namespace Sys2Proof.Machine

open Sys2Proof.Claims

/-! ### The odd part of a number -/

theorem oddPart_spec (fuel : Nat) {m : Nat} (hm : 0 < m) (hlt : m < 2 ^ fuel) (e : ℤ) :
    (oddPart fuel m e).1 % 2 = 1 ∧ ((oddPart fuel m e).1 : ℚ) * 2 ^ (oddPart fuel m e).2 = m * 2 ^ e := by
  induction fuel generalizing m e with
  | zero => omega
  | succ fuel ih =>
    unfold oddPart
    split_ifs with h
    · obtain ⟨hodd, hval⟩ := ih (m := m / 2) (by omega) (by rw [pow_succ] at hlt; omega) (e + 1)
      refine ⟨hodd, hval.trans ?_⟩
      obtain ⟨k, rfl⟩ : ∃ k, m = 2 * k := ⟨m / 2, by omega⟩
      rw [Nat.mul_div_cancel_left _ two_pos, two_zpow_add]
      push_cast
      ring
    · exact ⟨by omega, rfl⟩

/-- An odd number times a power of two is whole just where the power is. -/
theorem exponent_nonneg_of_int {o : Nat} (ho : o % 2 = 1) {k N : ℤ} (h : (o : ℚ) * 2 ^ k = N) : 0 ≤ k := by
  by_contra hneg
  obtain ⟨i, rfl⟩ : ∃ i : Nat, k = -((i + 1 : Nat) : ℤ) := ⟨(-k - 1).toNat, by omega⟩
  have hpos : (0 : ℚ) < 2 ^ (i + 1) := by positivity
  rw [zpow_neg, zpow_natCast, ← div_eq_mul_inv, div_eq_iff hpos.ne'] at h
  have hint : (o : ℤ) = N * 2 ^ (i + 1) := by exact_mod_cast h
  rw [pow_succ, ← mul_assoc] at hint
  omega

/-! ### Powers of two, rounded to f32 -/

section powers
variable (sat : Bool) {i : ℤ}

theorem lead_one (i : ℤ) : Ex.lead 1 1 i = i := by
  have h : flog2 1 1 = 0 := by decide
  rw [Ex.lead, h, zero_add]

/-- A power of two beyond the range of f32. -/
theorem roundF_pow_large (h : 128 ≤ i) :
    roundF (ffmt .f32) .rne sat (.num false 1 1 i) = (overflowCode (ffmt .f32) .rne false sat, OF ||| NX) := by
  have hmb : (ffmt .f32).mb = 23 := rfl
  have hqmin : (ffmt .f32).qmin = -149 := rfl
  have hmax : (ffmt .f32).maxCode = 2139095039 := rfl
  have hstep : (ffmt .f32).step 1 1 i = i - 23 := by rw [FFmt.step, lead_one, hmb, hqmin]; exact max_eq_left (by push_cast; omega)
  have hcount : 2 ^ 23 ≤ (ffmt .f32).count .rne false 1 1 i := by
    rw [FFmt.count, hstep]
    exact le_count .rne false i one_pos one_pos (by rw [lead_one]; push_cast; omega)
  rw [roundF_num, if_pos]
  rw [FFmt.code, hstep, hmb, hqmin, hmax]
  omega

/-- A power of two below half the least number of f32. -/
theorem roundF_pow_small (h : i ≤ -151) : roundF (ffmt .f32) .rne sat (.num false 1 1 i) = (0, NX ||| UF) := by
  have hmb : (ffmt .f32).mb = 23 := rfl
  have hqmin : (ffmt .f32).qmin = -149 := rfl
  have hbias : (ffmt .f32).bias = 127 := rfl
  have hstep : (ffmt .f32).step 1 1 i = -149 := by rw [FFmt.step, lead_one, hmb, hqmin]; exact max_eq_right (by push_cast; omega)
  have hat : roundAt .rne false 1 1 i (-149) = (0, true) := by
    have hup : shiftUp 1 (i - -149) = 1 := if_neg (by omega)
    have hdn : 2 ^ 2 ≤ shiftDn 1 (i - -149) := by
      rw [shiftDn, if_pos (by omega), one_mul]
      exact Nat.pow_le_pow_right two_pos (by omega)
    rw [roundAt_eq]
    simp only [hup]
    generalize shiftDn 1 (i - -149) = b at hdn
    have hdiv : 1 / b = 0 := Nat.div_eq_of_lt (by omega)
    have hmod : 1 % b = 1 := Nat.mod_eq_of_lt (by omega)
    rw [hdiv, hmod]
    have hstay : goesUp .rne false 0 1 b = false := by simp [goesUp]; omega
    rw [hstay]
    rfl
  have hcode : (ffmt .f32).code .rne false 1 1 i = 0 := by rw [FFmt.code, FFmt.count, hstep, hat, hqmin]; rfl
  have htiny : tinyAfter (ffmt .f32) .rne false 1 1 i = true := by
    have hle := count_le .rne false i one_pos one_pos (q := i - 23) (p := 23) (by rw [lead_one]; push_cast; omega)
    rw [tinyAfter_iff _ _ _ _ one_pos one_pos, lead_one, hmb, hbias]
    have hpos := two_zpow_pos (i - 23)
    calc ((roundAt .rne false 1 1 i (i - (23 : Nat))).1 : ℚ) * 2 ^ (i - ((23 : Nat) : ℤ)) ≤ 2 ^ (24 : ℤ) * 2 ^ (i - 23) := by
          push_cast
          gcongr
          exact_mod_cast hle
      _ = 2 ^ (24 + (i - 23)) := (two_zpow_add ..).symm
      _ < 2 ^ (1 - ((127 : Nat) : ℤ)) := two_zpow_lt.mpr (by push_cast; omega)
  rw [roundF_num, if_neg (by rw [hcode]; exact Nat.not_lt_zero _), hcode, hstep, hat, htiny]
  rfl

/-- Powers of two of which each lies beyond the same end of f32's range are rounded alike. -/
theorem roundF_pow_clamp {N : ℤ} (h : 512 ≤ |N|) :
    roundF (ffmt .f32) .rne sat (.num false 1 1 (if N < 0 then -512 else 512)) = roundF (ffmt .f32) .rne sat (.num false 1 1 N) := by
  split_ifs with hneg
  · rw [abs_of_neg hneg] at h
    rw [roundF_pow_small sat (by omega), roundF_pow_small sat (by omega)]
  · rw [abs_of_nonneg (by omega)] at h
    rw [roundF_pow_large sat (by omega), roundF_pow_large sat (by omega)]

/-- EXP2 of a whole number `N` = ±o × 2^k is the power of two rounded. -/
theorem roundF_exp2Power {n : Bool} {o : Nat} (ho : 0 < o) {k : ℤ} (hk : 0 ≤ k) {N : ℤ} (hN : (N : ℚ) = sgn n * (o * 2 ^ k)) :
    roundF (ffmt .f32) .rne sat (.num false 1 1 (exp2Power n o k)) = roundF (ffmt .f32) .rne sat (.num false 1 1 N) := by
  have hwhole : N = sgn n * shiftUp o k := by
    rw [← shiftUp_cast hk] at hN
    exact_mod_cast hN
  have hup : 0 < shiftUp o k := by unfold shiftUp; split <;> positivity
  unfold exp2Power
  by_cases hbig : 9 ≤ flog2 o 1 + k
  · have habs : 512 ≤ |N| := by
      obtain ⟨lo, -⟩ := flog2_spec ho one_pos
      have hge : (2 : ℚ) ^ (9 : ℤ) ≤ |(N : ℚ)| := by
        rw [hN, abs_mul, abs_sgn, one_mul, abs_of_nonneg (by have := two_zpow_pos k; positivity)]
        calc (2 : ℚ) ^ (9 : ℤ) ≤ 2 ^ (flog2 o 1 + k) := two_zpow_le.mpr hbig
          _ = 2 ^ flog2 o 1 * 2 ^ k := two_zpow_add ..
          _ ≤ o * 2 ^ k := mul_le_mul_of_nonneg_right (by simpa using lo) (two_zpow_pos k).le
      have : ((512 : ℤ) : ℚ) ≤ |(N : ℚ)| := by norm_num at hge ⊢; exact hge
      exact_mod_cast this
    rw [← roundF_pow_clamp sat habs, decide_eq_true hbig]
    have hsign : N < 0 ↔ n = true := by
      cases n
      · simp [hwhole, sgn]
      · simp [hwhole, sgn]; omega
    cases n <;> simp [hsign]
  · rw [decide_eq_false hbig, hwhole]
    cases n <;> simp [sgn]

end powers

/-! ### EXP2, LOG2 and RCP of numbers -/

section values
variable {x : Nat} {n : Bool} {m : Nat} {e : ℤ} (h : fval .f32 x = .fin n m e) (sat : Bool)
include h

theorem exp2Val_int (hm24 : m < 2 ^ 24) {N : ℤ} (hN : numOf (.fin n m e) = N) : roundsTo .f32 .rne sat (2 ^ N) (exp2Val sat x) := by
  have hpow : roundsTo .f32 .rne sat (2 ^ N) (roundF (ffmt .f32) .rne sat (.num false 1 1 N)) :=
    roundsTo_roundF rfl .rne sat false N one_pos one_pos (by simp [sgn])
  rw [exp2Val_fin h]
  by_cases hm : m = 0
  · obtain rfl : N = 0 := by rw [numOf_eq_zero_iff.mpr hm] at hN; exact_mod_cast hN.symm
    rw [if_pos hm, exactResult_plain]
    exact hpow
  · obtain ⟨hodd, hval⟩ := oddPart_spec 24 (Nat.pos_of_ne_zero hm) hm24 e
    rw [numOf_fin, ← hval] at hN
    generalize (oddPart 24 m e).1 = o at *
    generalize (oddPart 24 m e).2 = k at *
    have hk : 0 ≤ k := by
      refine exponent_nonneg_of_int hodd (N := sgn n * N) ?_
      have hsq : (sgn n : ℚ) * sgn n = 1 := by cases n <;> simp [sgn]
      rw [Int.cast_mul, ← hN, ← mul_assoc, hsq, one_mul]
    rw [if_neg hm, if_pos hk, exactResult_plain, roundF_exp2Power sat (by omega) hk hN.symm]
    exact hpow

theorem exp2Val_open (hm24 : m < 2 ^ 24) (hN : ∀ N : ℤ, numOf (.fin n m e) ≠ N) : openRes (exp2Val sat x) := by
  have hm : m ≠ 0 := fun hm => hN 0 (by rw [numOf_eq_zero_iff.mpr hm]; rfl)
  obtain ⟨-, hval⟩ := oddPart_spec 24 (Nat.pos_of_ne_zero hm) hm24 e
  have hk : ¬ 0 ≤ (oddPart 24 m e).2 := by
    intro hk
    refine hN (sgn n * shiftUp (oddPart 24 m e).1 (oddPart 24 m e).2) ?_
    rw [numOf_fin, ← hval, ← shiftUp_cast hk]
    push_cast
    rfl
  rw [exp2Val_fin h, if_neg hm, if_neg hk]
  exact openUlps_open ..

/-- RCP of a number other than 0 is the reciprocal rounded once, and raises inexact (R162). -/
theorem rcpVal_once (mode : RMode) (hm : m ≠ 0) :
    ∃ q, roundsTo .f32 mode sat (1 / numOf (.fin n m e)) q ∧ rcpVal mode sat x = (q.1, q.2 ||| NX) := by
  refine ⟨_, roundsTo_roundF rfl mode sat n (-e) one_pos (Nat.pos_of_ne_zero hm) ?_, ?_⟩
  · have hsgn : (1 : ℚ) / sgn n = sgn n := by cases n <;> norm_num [sgn]
    rw [numOf_fin, one_div, mul_inv, mul_inv, ← one_div, hsgn, zpow_neg, Nat.cast_one, one_div]
  · rw [rcpVal_fin h, if_neg hm]
    exact exactResult_eq ..

end values

/-- A whole number of at most 24 bits is a number of f32. -/
theorem exactResult_int (sat : Bool) {i : ℤ} (hi : |i| < 2 ^ 24) :
    let r := exactResult .rne sat (exOfInt i) 0
    r.2 = 0 ∧ r.1 < 2 ^ 32 ∧ isFin (fval .f32 r.1) = true ∧ numOf (fval .f32 r.1) = i := by
  intro r
  obtain ⟨hne, hzero⟩ := roundsOnce_roundF (t := .f32) rfl .rne sat (exOfInt_stands i)
  rw [← exactResult_plain] at hne hzero
  rcases eq_or_ne i 0 with rfl | hi0
  · rw [show r = (0, 0) from hzero Int.cast_zero, show fval .f32 (0, (0 : Flags)).1 = .fin false 0 (-149) by decide]
    exact ⟨rfl, by decide, rfl, by simp [numOf]⟩
  · have hlarge : |(i : ℚ)| ≤ numOf (fval .f32 (ffmt .f32).maxCode) := by
      rw [numOf_maxCode, largest_values.1]
      have : |(i : ℚ)| < 2 ^ 24 := by exact_mod_cast hi
      exact this.le.trans (by norm_num)
    obtain ⟨hlt, hfin, hnum, -, hflags⟩ := roundsTo_exact (K := i) (p := 0) (hne (by exact_mod_cast hi0)) (by simp) hi (by decide) hlarge
    exact ⟨hflags, hlt, hfin, hnum⟩

section logarithm
variable {x : Nat} {n : Bool} {m : Nat} {e : ℤ} (h : fval .f32 x = .fin n m e) (sat : Bool)
include h

omit h in
theorem positive_number (hpos : 0 < numOf (.fin n m e)) : n = false ∧ m ≠ 0 := by
  have hp := two_zpow_pos e
  rw [numOf_fin] at hpos
  refine ⟨?_, by rintro rfl; simp at hpos⟩
  cases n
  · rfl
  · have : (0 : ℚ) ≤ m * 2 ^ e := by positivity
    simp [sgn] at hpos
    linarith

theorem log2Val_pow (hm24 : m < 2 ^ 24) (hlo : -149 ≤ e) (hhi : e ≤ 104) {N : ℤ} (hN : numOf (.fin n m e) = 2 ^ N) :
    (log2Val sat x).2 = 0 ∧ (log2Val sat x).1 < 2 ^ 32 ∧ isFin (fval .f32 (log2Val sat x).1) = true ∧ numOf (fval .f32 (log2Val sat x).1) = N := by
  obtain ⟨rfl, hm⟩ := positive_number (hN ▸ two_zpow_pos N)
  obtain ⟨lo, hi⟩ := flog2_spec (Nat.pos_of_ne_zero hm) one_pos
  have hval : (m : ℚ) = 2 ^ (N - e) := by
    rw [numOf_fin] at hN
    rw [zpow_sub₀ two_ne_zero, eq_div_iff (two_zpow_pos e).ne', ← hN]
    simp [sgn]
  have hlog : flog2 m 1 = N - e := by
    rw [Nat.cast_one, div_one, hval] at lo hi
    have := two_zpow_le.mp lo
    have := two_zpow_lt.mp hi
    omega
  have h0 : 0 ≤ N - e := by
    have : (2 : ℚ) ^ (0 : ℤ) < 2 ^ (N - e + 1) := by
      rw [zpow_zero, two_zpow_add, ← hval]
      have : (1 : ℚ) ≤ m := by exact_mod_cast Nat.pos_of_ne_zero hm
      linarith
    have := two_zpow_lt.mp this
    omega
  have h24 : N - e < 24 := by
    have : (2 : ℚ) ^ (N - e) < 2 ^ (24 : ℤ) := by rw [← hval]; exact_mod_cast hm24
    exact two_zpow_lt.mp this
  have hpow : m = 2 ^ (flog2 m 1).toNat := by
    rw [hlog]
    have hcast : (m : ℚ) = (2 ^ (N - e).toNat : Nat) := by
      rw [hval, Nat.cast_pow, Nat.cast_ofNat, ← zpow_natCast, Int.toNat_of_nonneg h0]
    exact_mod_cast hcast
  rw [(log2Val_fin h sat hm rfl).1 hpow, hlog, sub_add_cancel]
  exact exactResult_int sat (by rw [abs_lt]; constructor <;> omega)

theorem log2Val_open (hpos : 0 < numOf (.fin n m e)) (hN : ∀ N : ℤ, numOf (.fin n m e) ≠ 2 ^ N) : openRes (log2Val sat x) := by
  obtain ⟨rfl, hm⟩ := positive_number hpos
  refine (log2Val_fin h sat hm rfl).2 (fun hpow => hN ((flog2 m 1).toNat + e) ?_)
  rw [numOf_fin, two_zpow_add, zpow_natCast]
  nth_rw 1 [hpow]
  simp [sgn]

end logarithm

end Sys2Proof.Machine
end

section
/-! PROOFS. The square root, rounded once (spec/06 R162). -/

namespace Sys2Proof.Machine

open Sys2Proof.Claims

/-! ### The root of a natural number -/

theorem isqrtAux_spec (n k r : Nat) (hlo : r * r ≤ n) (hhi : n < (r + 2 ^ k) * (r + 2 ^ k)) :
    isqrtAux n k r * isqrtAux n k r ≤ n ∧ n < (isqrtAux n k r + 1) * (isqrtAux n k r + 1) := by
  induction k generalizing r with
  | zero => exact ⟨hlo, hhi⟩
  | succ k ih =>
    simp only [isqrtAux]
    split_ifs with h
    · exact ih _ h (by rwa [pow_succ, mul_two, ← add_assoc] at hhi)
    · exact ih _ hlo (not_le.mp h)

theorem isqrt_spec (n : Nat) : isqrt n * isqrt n ≤ n ∧ n < (isqrt n + 1) * (isqrt n + 1) := by
  refine isqrtAux_spec n _ 0 (by simp) ?_
  calc n < 2 ^ (Nat.log2 n + 1) := Nat.lt_log2_self
    _ ≤ 2 ^ (Nat.log2 n / 2 + 1 + (Nat.log2 n / 2 + 1)) := Nat.pow_le_pow_right two_pos (by omega)
    _ = _ := by rw [pow_add, zero_add]

/-- A value that compares with every whole number as the square root of `n` does. -/
def ActsAsRoot (y : ℚ) (n : Nat) : Prop := ∀ j : Nat, ((j : ℚ) ≤ y ↔ j * j ≤ n) ∧ (y ≤ j ↔ n ≤ j * j)

theorem actsAsRoot_exact {r n : Nat} (h : r * r = n) : ActsAsRoot r n := by
  intro j
  rw [Nat.cast_le, Nat.cast_le, ← h, Nat.mul_self_le_mul_self_iff, Nat.mul_self_le_mul_self_iff]
  exact ⟨Iff.rfl, Iff.rfl⟩

theorem actsAsRoot_sticky {n : Nat} (h : isqrt n * isqrt n ≠ n) : ActsAsRoot ((2 * isqrt n + 1 : Nat) / (2 : Nat)) n := by
  obtain ⟨hlo, hhi⟩ := isqrt_spec n
  generalize isqrt n = r at *
  intro j
  have h1 : (j : ℚ) ≤ (2 * r + 1 : Nat) / (2 : Nat) ↔ j ≤ r := by
    rw [le_div_iff₀ (by norm_num)]
    norm_cast
    omega
  have h2 : ((2 * r + 1 : Nat) : ℚ) / (2 : Nat) ≤ j ↔ r < j := by
    rw [div_le_iff₀ (by norm_num)]
    norm_cast
    omega
  rw [h1, h2]
  refine ⟨⟨fun hj => (Nat.mul_self_le_mul_self hj).trans hlo, fun hj => ?_⟩, ⟨fun hj => hhi.le.trans (Nat.mul_self_le_mul_self hj), fun hj => ?_⟩⟩
  · exact Nat.lt_succ_iff.mp (Nat.mul_self_lt_mul_self_iff.mp (hj.trans_lt hhi))
  · exact Nat.mul_self_lt_mul_self_iff.mp ((lt_of_le_of_ne hlo h).trans_le hj)

/-- The value that SQRT rounds: it acts as the root of m × 2^e. -/
theorem sqrtEx_spec (m : Nat) (e : ℤ) :
    ∃ N D h, ∃ pad : Nat, sqrtEx m e = .num false N D h ∧ 0 < D ∧ 64 ≤ pad ∧ 2 * h = e - pad ∧ ActsAsRoot ((N : ℚ) / D) (m * 2 ^ pad) := by
  obtain ⟨pad, hpad, h64, heven⟩ : ∃ pad : Nat, (64 + (if (e - 64) % 2 = 0 then 0 else 1) : ℤ) = pad ∧ 64 ≤ pad ∧ (e - pad) % 2 = 0 := by
    by_cases h : (e - 64) % 2 = 0
    · exact ⟨64, by simp [h], le_rfl, by omega⟩
    · exact ⟨65, by simp [h], by decide, by omega⟩
  have hhalf : 2 * ((e - pad) / 2) = e - pad := by omega
  simp only [sqrtEx, hpad, Int.toNat_natCast]
  split_ifs with hsq
  · refine ⟨_, 1, _, pad, rfl, one_pos, h64, hhalf, ?_⟩
    rw [Nat.cast_one, div_one]
    exact actsAsRoot_exact hsq
  · exact ⟨_, 2, _, pad, rfl, two_pos, h64, hhalf, actsAsRoot_sticky hsq⟩

/-! ### Its rounding -/

/-- What a mode makes of the root of `n`, as `k` units of 2 × `u`, without the root itself (R99). -/
def rootRounded (mode : RMode) (n u : Nat) (k : ℤ) : Prop :=
  match mode with
  | .rne => ((2 * k - 1) * u) ^ 2 < (n : ℤ) ∧ (n : ℤ) < ((2 * k + 1) * u) ^ 2
  | .ru => ((k - 1) * (2 * u)) ^ 2 < (n : ℤ) ∧ (n : ℤ) ≤ (k * (2 * u)) ^ 2
  | _ => (k * (2 * u)) ^ 2 ≤ (n : ℤ) ∧ (n : ℤ) < ((k + 1) * (2 * u)) ^ 2

/-- An odd square times a power of four is no number of few bits times a power of two. -/
theorem ne_odd_square {m pad j i : Nat} (hm0 : 0 < m) (hm : m < 2 ^ 24) (hodd : j % 2 = 1) (hj : 2 ^ 12 ≤ j) : m * 2 ^ pad ≠ (j * 2 ^ i) * (j * 2 ^ i) := by
  intro h
  have hcop : Nat.Coprime (j * j) (2 ^ pad) := by
    refine Nat.Coprime.pow_right _ ?_
    rw [Nat.coprime_two_right, Nat.odd_mul]
    exact ⟨Nat.odd_iff.mpr hodd, Nat.odd_iff.mpr hodd⟩
  have hdvd : j * j ∣ m * 2 ^ pad := ⟨2 ^ i * 2 ^ i, by rw [h]; ring⟩
  have hle := Nat.le_of_dvd hm0 (hcop.dvd_of_dvd_mul_right hdvd)
  have := Nat.mul_le_mul hj hj
  omega

theorem rootRounded_of {mode : RMode} {y : ℚ} {m pad i k : Nat} (hm0 : 0 < m) (hm : m < 2 ^ 24) (hk : 2 ^ 12 ≤ k)
    (hroot : ActsAsRoot y (m * 2 ^ pad)) (hround : isRounding mode (y / (2 * 2 ^ i : Nat)) (k + 1 : Nat)) :
    rootRounded mode (m * 2 ^ pad) (2 ^ i) (k + 1 : Nat) := by
  have hu : (0 : ℚ) < (2 * 2 ^ i : Nat) := by positivity
  have above (j : Nat) (h : (j : ℚ) ≤ y / (2 * 2 ^ i : Nat)) : (j * (2 * 2 ^ i)) ^ 2 ≤ m * 2 ^ pad := by
    rw [le_div_iff₀ hu] at h
    rw [sq, ← (hroot _).1]
    exact_mod_cast h
  have below (j : Nat) (h : y / (2 * 2 ^ i : Nat) < j) : m * 2 ^ pad < (j * (2 * 2 ^ i)) ^ 2 := by
    rw [div_lt_iff₀ hu] at h
    rw [sq, ← not_le, ← (hroot _).1, not_le]
    exact_mod_cast h
  have strictly_above (j : Nat) (h : (j : ℚ) < y / (2 * 2 ^ i : Nat)) : (j * (2 * 2 ^ i)) ^ 2 < m * 2 ^ pad := by
    rw [lt_div_iff₀ hu] at h
    rw [sq, ← not_le, ← (hroot _).2, not_le]
    exact_mod_cast h
  have up_to (j : Nat) (h : y / (2 * 2 ^ i : Nat) ≤ j) : m * 2 ^ pad ≤ (j * (2 * 2 ^ i)) ^ 2 := by
    rw [div_le_iff₀ hu] at h
    rw [sq, ← (hroot _).2]
    exact_mod_cast h
  have down (lo : (((k + 1 : Nat) : ℤ) : ℚ) ≤ y / (2 * 2 ^ i : Nat)) (hi : y / (2 * 2 ^ i : Nat) < ((k + 1 : Nat) : ℤ) + 1) :
      rootRounded .rd (m * 2 ^ pad) (2 ^ i) (k + 1 : Nat) := by
    have h1 := above (k + 1) (by exact_mod_cast lo)
    have h2 := below (k + 2) (by push_cast at hi ⊢; linarith)
    constructor
    · exact_mod_cast h1
    · exact_mod_cast h2
  have above_odd (h : ((2 * k + 1 : Nat) : ℚ) / 2 ≤ y / (2 * 2 ^ i : Nat)) : ((2 * k + 1) * 2 ^ i) ^ 2 < m * 2 ^ pad := by
    rw [div_le_div_iff₀ two_pos hu] at h
    refine lt_of_le_of_ne ?_ fun h => ne_odd_square hm0 hm (j := 2 * k + 1) (by omega) (by omega) (by rw [← h, sq])
    rw [sq, ← (hroot _).1]
    push_cast at h ⊢
    linarith
  have below_odd (h : y / (2 * 2 ^ i : Nat) ≤ ((2 * k + 3 : Nat) : ℚ) / 2) : m * 2 ^ pad < ((2 * k + 3) * 2 ^ i) ^ 2 := by
    rw [div_le_div_iff₀ hu two_pos] at h
    refine lt_of_le_of_ne ?_ fun h => ne_odd_square hm0 hm (j := 2 * k + 3) (by omega) (by omega) (by rw [h, sq])
    rw [sq, ← (hroot _).2]
    push_cast at h ⊢
    linarith
  cases mode with
  | rne =>
    obtain ⟨half, -⟩ := hround
    obtain ⟨lo, hi⟩ := abs_le.mp (show |y / (2 * 2 ^ i : Nat) - ((k + 1 : Nat) : ℤ)| ≤ 1 / 2 by linarith)
    have h1 := above_odd (by push_cast at lo ⊢; linarith)
    have h2 := below_odd (by push_cast at hi ⊢; linarith)
    constructor
    · rw [show (2 * ((k + 1 : Nat) : ℤ) - 1) = (2 * k + 1 : Nat) by push_cast; ring]
      exact_mod_cast h1
    · exact_mod_cast h2
  | rz =>
    obtain ⟨lo, hi, hsign⟩ := hround
    have hpos : (0 : ℚ) < ((k + 1 : Nat) : ℤ) := by exact_mod_cast Nat.succ_pos k
    rw [abs_of_pos hpos, abs_of_nonneg (nonneg_of_mul_nonneg_right hsign hpos)] at lo hi
    exact down lo hi
  | ru =>
    obtain ⟨lo, hi⟩ := hround
    have h1 := strictly_above k (lt_of_le_of_lt (by push_cast; linarith) lo)
    have h2 := up_to (k + 1) (by exact_mod_cast hi)
    constructor
    · rw [show ((k + 1 : Nat) : ℤ) - 1 = (k : Nat) by push_cast; ring]
      exact_mod_cast h1
    · exact_mod_cast h2
  | rd =>
    obtain ⟨lo, hi⟩ := hround
    exact down lo hi

/-- A positive value between the least and the largest normal numbers of f32, rounded to 24 bits: neither underflow nor overflow (R92, R99). -/
theorem roundF_normal (mode : RMode) (sat : Bool) {N D : Nat} (hN : 0 < N) (hD : 0 < D) {h L : ℤ} (hL : Ex.lead N D h = L)
    (hlo : -126 ≤ L) (hhi : L ≤ 126) {r : Res} (hr : roundF (ffmt .f32) mode sat (.num false N D h) = r) :
    ∃ k : Nat, r.2 ||| NX = NX ∧ r.1 < 2 ^ 31 ∧ isFin (fval .f32 r.1) = true ∧ numOf (fval .f32 r.1) = k * 2 ^ (L - 23) ∧ 2 ^ 23 ≤ k ∧
      isRounding mode (N / D * 2 ^ (h - (L - 23))) k := by
  have hmb : (ffmt .f32).mb = 23 := rfl
  have hqmin : (ffmt .f32).qmin = -149 := rfl
  have hbias : (ffmt .f32).bias = 127 := rfl
  have hstep : (ffmt .f32).step N D h = L - 23 := by rw [FFmt.step, hL, hmb, hqmin]; exact max_eq_left (by push_cast; omega)
  have hround := isRounding_roundAt mode false N hD h (L - 23)
  have hge := le_count mode false h hN hD (q := L - 23) (p := 23) (by push_cast; omega)
  have hle := count_le mode false h hN hD (q := L - 23) (p := 23) (by push_cast; omega)
  have hval := codeVal_code (ffmt .f32) mode false h hN hD
  have htiny := tinyAfter_iff (ffmt .f32) mode false h hN hD
  have hcount : (ffmt .f32).count mode false N D h = (roundAt mode false N D h (L - 23)).1 := by rw [FFmt.count, hstep]
  rw [hcount, hstep] at hval
  rw [hL, hmb, hbias] at htiny
  have hq := two_zpow_pos (L - 23)
  have hcode : (ffmt .f32).code mode false N D h ≤ (ffmt .f32).maxCode := by
    rw [← (codeVal_strictMono _).le_iff_le, hval, largest_values.1]
    calc ((roundAt mode false N D h (L - 23)).1 : ℚ) * 2 ^ (L - 23) ≤ 2 ^ (24 : ℤ) * 2 ^ (L - 23) := by
          gcongr
          exact_mod_cast hle
      _ = 2 ^ (24 + (L - 23)) := (two_zpow_add ..).symm
      _ ≤ 2 ^ (127 : ℤ) := two_zpow_le.mpr (by omega)
      _ ≤ _ := by norm_num
  have hnotTiny : tinyAfter (ffmt .f32) mode false N D h = false := by
    rw [← Bool.not_eq_true, htiny, not_lt]
    calc (2 : ℚ) ^ (1 - ((127 : Nat) : ℤ)) ≤ 2 ^ (23 + (L - 23)) := two_zpow_le.mpr (by push_cast; omega)
      _ = 2 ^ (23 : ℤ) * 2 ^ (L - 23) := two_zpow_add ..
      _ ≤ _ := by
        push_cast
        gcongr
        exact_mod_cast hge
  have hsign : (ffmt .f32).sign false = 0 := rfl
  have hfin := fval_code (t := .f32) false hcode
  have hnum := numOf_code (t := .f32) false hcode
  rw [hval, sgn, if_neg (by decide), Int.cast_one, one_mul] at hnum
  rw [roundF_num, if_neg (not_lt.mpr hcode), hnotTiny] at hr
  refine ⟨_, ?_, ?_, ?_, ?_, hge, ?_⟩
  · have hflags (inexact : Bool) : flagIf inexact NX ||| flagIf false UF ||| NX = NX := by cases inexact <;> decide
    rw [← hr, Bool.and_false]
    exact hflags _
  · rw [← hr, hsign, Nat.zero_add]
    exact hcode.trans_lt (by decide)
  · rw [← hr, hfin]
    rfl
  · rw [← hr, hnum]
  · simpa [sgn] using hround

/-- How near `root`, a multiple of `ulp`, comes to the square root of `v` in a mode, without the square root itself (R99). -/
def rootWithin (mode : RMode) (v root ulp : ℚ) : Prop :=
  match mode with
  | .rne => (root - ulp / 2) ^ 2 < v ∧ v < (root + ulp / 2) ^ 2
  | .ru => (root - ulp) ^ 2 < v ∧ v ≤ root ^ 2
  | _ => root ^ 2 ≤ v ∧ v < (root + ulp) ^ 2

/-- `r` holds the square root of the positive number `v`, rounded to 24 bits (R162). -/
def rootOnce (mode : RMode) (v : ℚ) (r : Res) : Prop :=
  r.2 = NX ∧ r.1 < 2 ^ 31 ∧ ∃ k e : ℤ, isFin (fval .f32 r.1) = true ∧
    let ulp := (2 : ℚ) ^ (e - 23)
    let root := (k : ℚ) * ulp
    numOf (fval .f32 r.1) = root ∧ (2 : ℚ) ^ (2 * e) ≤ v ∧ v < (2 : ℚ) ^ (2 * e + 2) ∧ 0 < k ∧
    rootWithin mode v root ulp

/-- The bounds of a value that acts as the root of `n`, by the place of its leading bit. -/
theorem root_bounds {N D n : Nat} (hN : 0 < N) (hD : 0 < D) (hroot : ActsAsRoot ((N : ℚ) / D) n) (hn : 2 ^ 64 ≤ n) :
    ∃ l : Nat, flog2 N D = l ∧ 32 ≤ l ∧ (2 ^ l) ^ 2 ≤ n ∧ n < (2 ^ (l + 1)) ^ 2 := by
  obtain ⟨lo, hi⟩ := flog2_spec hN hD
  have h32 : 32 ≤ flog2 N D := by
    have hy : ((2 ^ 32 : Nat) : ℚ) ≤ N / D := (hroot _).1.mpr (by rwa [← pow_add])
    have : (2 : ℚ) ^ (32 : ℤ) < 2 ^ (flog2 N D + 1) := lt_of_le_of_lt (by exact_mod_cast hy) hi
    have := two_zpow_lt.mp this
    omega
  obtain ⟨l, hl⟩ : ∃ l : Nat, flog2 N D = l := ⟨(flog2 N D).toNat, by omega⟩
  rw [hl] at lo hi h32
  refine ⟨l, hl, by omega, ?_, ?_⟩
  · rw [sq, ← (hroot _).1]
    exact_mod_cast lo
  · rw [sq, ← not_le, ← (hroot _).1, not_le]
    exact_mod_cast hi

theorem rootWithin_of_rounded {mode : RMode} {n i k : Nat} {L h : ℤ} (hL : L - 23 = i + 1 + h) (hr : rootRounded mode n (2 ^ i) k) :
    rootWithin mode (n * 2 ^ (2 * h)) ((k : ℤ) * 2 ^ (L - 23)) (2 ^ (L - 23)) := by
  have hulp : (2 : ℚ) ^ (L - 23) = 2 * 2 ^ i * 2 ^ h := by
    rw [hL, two_zpow_add, two_zpow_add, zpow_natCast, zpow_one]
    ring
  have hscale : (2 : ℚ) ^ (2 * h) = (2 ^ h) ^ 2 := by rw [mul_comm, zpow_mul]; norm_cast
  have hpos := two_zpow_pos h
  have lt_of {x : ℤ} {y : ℚ} (hy : y = x * 2 ^ h) (hx : x ^ 2 < (n : ℤ)) : y ^ 2 < n * 2 ^ (2 * h) := by
    rw [hy, mul_pow]
    rw [hscale]
    gcongr
    exact_mod_cast hx
  have le_of {x : ℤ} {y : ℚ} (hy : y = x * 2 ^ h) (hx : x ^ 2 ≤ (n : ℤ)) : y ^ 2 ≤ n * 2 ^ (2 * h) := by
    rw [hy, mul_pow]
    rw [hscale]
    gcongr
    exact_mod_cast hx
  have of_lt {x : ℤ} {y : ℚ} (hy : y = x * 2 ^ h) (hx : (n : ℤ) < x ^ 2) : n * 2 ^ (2 * h) < y ^ 2 := by
    rw [hy, mul_pow]
    rw [hscale]
    gcongr
    exact_mod_cast hx
  have of_le {x : ℤ} {y : ℚ} (hy : y = x * 2 ^ h) (hx : (n : ℤ) ≤ x ^ 2) : n * 2 ^ (2 * h) ≤ y ^ 2 := by
    rw [hy, mul_pow]
    rw [hscale]
    gcongr
    exact_mod_cast hx
  rw [hulp]
  cases mode
  case rne => exact ⟨lt_of (by push_cast; ring) hr.1, of_lt (by push_cast; ring) hr.2⟩
  case ru => exact ⟨lt_of (by push_cast; ring) hr.1, of_le (by push_cast; ring) hr.2⟩
  all_goals exact ⟨le_of (by push_cast; ring) hr.1, of_lt (by push_cast; ring) hr.2⟩

theorem rootOnce_intro {mode : RMode} {v : ℚ} {c : Nat} {fl : Flags} {k : Nat} {e : ℤ} (hflags : fl = NX) (hlt : c < 2 ^ 31)
    (hfin : isFin (fval .f32 c) = true) (hnum : numOf (fval .f32 c) = k * 2 ^ (e - 23)) (lo : (2 : ℚ) ^ (2 * e) ≤ v) (hi : v < 2 ^ (2 * e + 2)) (hk : 0 < k)
    (hroot : rootWithin mode v ((k : ℤ) * 2 ^ (e - 23)) (2 ^ (e - 23))) : rootOnce mode v (c, fl) :=
  ⟨hflags, hlt, k, e, hfin, by rw [hnum, Int.cast_natCast], lo, hi, by exact_mod_cast hk, hroot⟩

theorem sqrtVal_once {x m : Nat} {n : Bool} {e : ℤ} (hx : fval .f32 x = .fin n m e) (hm : m < 2 ^ 24) (hlo : -149 ≤ e) (hhi : e ≤ 104)
    (mode : RMode) (sat : Bool) (hpos : 0 < numOf (.fin n m e)) : rootOnce mode (numOf (.fin n m e)) (sqrtVal mode sat x) := by
  obtain ⟨rfl, hm0⟩ := positive_number hpos
  obtain ⟨N, D, h, pad, hex, hD, h64, hh, hroot⟩ := sqrtEx_spec m e
  have hn : 2 ^ 64 ≤ m * 2 ^ pad := (Nat.pow_le_pow_right two_pos h64).trans (Nat.le_mul_of_pos_left _ (Nat.pos_of_ne_zero hm0))
  have hN : 0 < N := by
    rcases Nat.eq_zero_or_pos N with rfl | h
    · have := (hroot 0).2.mp (by simp)
      omega
    · exact h
  obtain ⟨l, hl, h32, lo, hi⟩ := root_bounds hN hD hroot hn
  have hv : numOf (.fin false m e) = (m * 2 ^ pad : Nat) * 2 ^ (2 * h) := by
    have : e = pad + 2 * h := by omega
    rw [numOf_fin, this, two_zpow_add, zpow_natCast]
    simp [sgn, mul_assoc]
  have hscale := two_zpow_pos (2 * h)
  have hge : (2 : ℚ) ^ (2 * (l + h)) ≤ (m * 2 ^ pad : Nat) * 2 ^ (2 * h) := by
    rw [mul_add, two_zpow_add]
    gcongr
    rw [← pow_mul, mul_comm] at lo
    exact_mod_cast lo
  have hlt : (m * 2 ^ pad : Nat) * (2 : ℚ) ^ (2 * h) < 2 ^ (2 * (l + h) + 2) := by
    rw [show 2 * ((l : ℤ) + h) + 2 = 2 * (l + 1) + 2 * h by ring, two_zpow_add]
    gcongr
    rw [← pow_mul, mul_comm (l + 1)] at hi
    exact_mod_cast hi
  have hlead : Ex.lead N D h = l + h := by rw [Ex.lead, hl]
  have he := two_zpow_pos e
  have hval : numOf (.fin false m e) = m * 2 ^ e := by simp [numOf_fin, sgn]
  have hmin : -126 ≤ (l : ℤ) + h := by
    have : (2 : ℚ) ^ e < 2 ^ (2 * (l + h) + 2) := by
      refine lt_of_le_of_lt ?_ hlt
      rw [← hv, hval]
      exact le_mul_of_one_le_left he.le (by exact_mod_cast Nat.pos_of_ne_zero hm0)
    have := two_zpow_lt.mp this
    omega
  have hmax : (l : ℤ) + h ≤ 126 := by
    have : (2 : ℚ) ^ (2 * (l + h)) < 2 ^ (24 + e) := by
      refine hge.trans_lt ?_
      rw [← hv, hval, two_zpow_add]
      gcongr
      exact_mod_cast hm
    have := two_zpow_lt.mp this
    omega
  rw [sqrtVal_fin hx, if_neg hm0, if_neg Bool.false_ne_true, hex, exactResult_eq, hv]
  generalize hr : roundF (ffmt .f32) mode sat (.num false N D h) = r
  obtain ⟨k, hflags, hlt31, hfin, hnum, hk, hround⟩ := roundF_normal mode sat hN hD hlead hmin hmax hr
  obtain ⟨i, rfl⟩ : ∃ i : Nat, l = i + 24 := ⟨l - 24, by omega⟩
  obtain ⟨k, rfl⟩ : ∃ j : Nat, k = j + 1 := ⟨k - 1, by omega⟩
  refine rootOnce_intro hflags hlt31 hfin hnum hge hlt (Nat.succ_pos k) ?_
  have hstep : ((i + 24 : Nat) : ℤ) + h - 23 = i + 1 + h := by push_cast; ring
  refine rootWithin_of_rounded hstep ?_
  refine rootRounded_of (Nat.pos_of_ne_zero hm0) hm (by omega) hroot ?_
  rw [show h - ((i + 24 : Nat) + h - 23) = -((i + 1 : Nat) : ℤ) by push_cast; ring, zpow_neg, zpow_natCast, pow_succ', ← div_eq_mul_inv] at hround
  exact_mod_cast hround

end Sys2Proof.Machine
end

section
/-! PROOFS. The special functions by their rule (spec/06 R162). -/

namespace Sys2Proof.Machine

open Sys2Proof.Claims

/-! ### Whole numbers and halves, by sign and magnitude -/

section magnitudes
variable {n : Bool} {m : Nat} {e : ℤ}

theorem negative_number (hneg : numOf (.fin n m e) < 0) : n = true ∧ m ≠ 0 := by
  have hp := two_zpow_pos e
  rw [numOf_fin] at hneg
  refine ⟨?_, by rintro rfl; simp at hneg⟩
  cases n
  · have : (0 : ℚ) ≤ m * 2 ^ e := by positivity
    simp [sgn] at hneg
    linarith
  · rfl

/-- The magnitude of a whole number, which is odd just where the number is. -/
theorem magnitude_of_int {N : ℤ} (hN : numOf (.fin n m e) = N) :
    ∃ q : Nat, (m : ℚ) * 2 ^ e = q ∧ (q % 2 == 1) = (N % 2 == 1) := by
  have hy : (0 : ℚ) ≤ m * 2 ^ e := by have := two_zpow_pos e; positivity
  refine ⟨N.natAbs, ?_, by rw [Bool.eq_iff_iff, beq_iff_eq, beq_iff_eq]; omega⟩
  have habs : |numOf (.fin n m e)| = m * 2 ^ e := by rw [numOf_fin, abs_mul, abs_sgn, one_mul, abs_of_nonneg hy]
  rw [← habs, hN, Nat.cast_natAbs, Int.cast_abs]

/-- The magnitude of a whole number and a half. -/
theorem magnitude_of_half {N : ℤ} (hN : numOf (.fin n m e) = N + 1 / 2) :
    ∃ q : Nat, (m : ℚ) * 2 ^ e = q + 1 / 2 ∧ ((q % 2 == 1) != n) = (N % 2 == 1) := by
  have hy : (0 : ℚ) ≤ m * 2 ^ e := by have := two_zpow_pos e; positivity
  rw [numOf_fin] at hN
  cases n
  · simp only [sgn, Bool.false_eq_true, if_false, Int.cast_one, one_mul] at hN
    have h0 : 0 ≤ N := by
      have : (-1 : ℚ) < N := by linarith
      have : -1 < N := by exact_mod_cast this
      omega
    obtain ⟨q, rfl⟩ : ∃ q : Nat, N = q := ⟨N.toNat, by omega⟩
    refine ⟨q, hN, ?_⟩
    rw [Bool.bne_false, Bool.eq_iff_iff, beq_iff_eq, beq_iff_eq]
    omega
  · simp only [sgn, if_true, Int.cast_neg, Int.cast_one, neg_mul, one_mul] at hN
    have h0 : N < 0 := by
      have : (N : ℚ) < 0 := by linarith
      exact_mod_cast this
    obtain ⟨q, rfl⟩ : ∃ q : Nat, N = -((q : ℤ) + 1) := ⟨(-N - 1).toNat, by omega⟩
    refine ⟨q, by push_cast at hN; linarith, ?_⟩
    rw [Bool.bne_true, Bool.eq_iff_iff, Bool.not_eq_true', beq_eq_false_iff_ne, beq_iff_eq]
    omega

theorem magnitude_of_neither (h : ∀ N : ℤ, 2 * numOf (.fin n m e) ≠ N) (j : Nat) : 2 * ((m : ℚ) * 2 ^ e) ≠ j := by
  intro hj
  refine h (sgn n * j) ?_
  rw [numOf_fin, Int.cast_mul, Int.cast_natCast, ← hj]
  ring

end magnitudes

/-! ### SINPI and COSPI of numbers -/

section sine
variable {x : Nat} {n : Bool} {m : Nat} {e : ℤ} (h : fval .f32 x = .fin n m e) (sat : Bool)
include h

theorem sinpiVal_int {N : ℤ} (hN : numOf (.fin n m e) = N) : sinpiVal sat x = zeroRes n := by
  obtain ⟨q, hq, -⟩ := magnitude_of_int hN
  rw [sinpiVal_fin h, (sinR_mod2 m e).1 q hq, sineRes_zero]

theorem cospiVal_int {N : ℤ} (hN : numOf (.fin n m e) = N) : cospiVal sat x = oneRes (N % 2 == 1) := by
  obtain ⟨q, hq, hodd⟩ := magnitude_of_int hN
  rw [cospiVal_fin h, (sinR_quarterOn m e).1 q hq, sineRes_one, id, hodd]

theorem sinpiVal_half {N : ℤ} (hN : numOf (.fin n m e) = N + 1 / 2) : sinpiVal sat x = oneRes (N % 2 == 1) := by
  obtain ⟨q, hq, hodd⟩ := magnitude_of_half hN
  rw [sinpiVal_fin h, (sinR_mod2 m e).2.1 q hq, sineRes_one, hodd]

theorem cospiVal_half {N : ℤ} (hN : numOf (.fin n m e) = N + 1 / 2) : cospiVal sat x = zeroRes false := by
  obtain ⟨q, hq, -⟩ := magnitude_of_half hN
  rw [cospiVal_fin h, (sinR_quarterOn m e).2.1 q hq, sineRes_zero]

theorem sinpiVal_open (hN : ∀ N : ℤ, 2 * numOf (.fin n m e) ≠ N) : openRes (sinpiVal sat x) := by
  obtain ⟨g, v, hv⟩ := (sinR_mod2 m e).2.2 (magnitude_of_neither hN)
  rw [sinpiVal_fin h, hv]
  exact sineRes_near ..

theorem cospiVal_open (hN : ∀ N : ℤ, 2 * numOf (.fin n m e) ≠ N) : openRes (cospiVal sat x) := by
  obtain ⟨g, v, hv⟩ := (sinR_quarterOn m e).2.2 (magnitude_of_neither hN)
  rw [cospiVal_fin h, hv]
  exact sineRes_near ..

end sine

/-! ### The zeros, the infinities and the negative numbers -/

section exact
variable {x : Nat} (mode : RMode) (sat : Bool)

/-- The eight functions of an infinity. -/
theorem special_inf {n : Bool} (h : fval .f32 x = .inf n) :
    rcpVal mode sat x = zeroRes n ∧ tanhVal sat x = oneRes n ∧ sinpiVal sat x = (0x7FC00000, NV) ∧ cospiVal sat x = (0x7FC00000, NV) ∧
    sqrtVal mode sat x = (if n then (0x7FC00000, NV) else infinite sat false 0) ∧ rsqVal sat x = (if n then (0x7FC00000, NV) else zeroRes false) ∧
    exp2Val sat x = (if n then zeroRes false else infinite sat false 0) ∧ log2Val sat x = (if n then (0x7FC00000, NV) else infinite sat false 0) := by
  simp only [rcpVal, tanhVal, sinpiVal, cospiVal, sqrtVal, rsqVal, exp2Val, log2Val, h, exactResult_nan, exactResult_zero, exactResult_inf,
    exactResult_one, and_self]

/-- The functions of which a zero is a special case. -/
theorem special_zero {n : Bool} {e : ℤ} (h : fval .f32 x = .fin n 0 e) :
    rcpVal mode sat x = infinite sat n DZ ∧ sqrtVal mode sat x = zeroRes n ∧ rsqVal sat x = infinite sat n DZ ∧ log2Val sat x = infinite sat true DZ ∧
    tanhVal sat x = zeroRes n := by
  refine ⟨?_, ?_, ?_, ?_, ?_⟩
  · rw [rcpVal_fin h, if_pos rfl, exactResult_inf]
  · rw [sqrtVal_fin h, if_pos rfl, exactResult_zero]
  · rw [rsqVal_fin h, if_pos rfl, exactResult_inf]
  · rw [(log2Val_special h sat).1 rfl, exactResult_inf]
  · obtain ⟨-, htanh⟩ | ⟨hne, -⟩ := tanhVal_fin h sat
    · rw [htanh, exactResult_zero]
    · exact absurd rfl hne

theorem special_negative {m : Nat} {e : ℤ} (h : fval .f32 x = .fin true m e) (hm : m ≠ 0) :
    sqrtVal mode sat x = (0x7FC00000, NV) ∧ rsqVal sat x = (0x7FC00000, NV) ∧ log2Val sat x = (0x7FC00000, NV) := by
  refine ⟨?_, ?_, ?_⟩
  · rw [sqrtVal_fin h, if_neg hm, if_pos rfl, exactResult_nan]
  · rw [rsqVal_fin h, if_neg hm, if_pos rfl, exactResult_nan]
  · rw [(log2Val_special h sat).2 hm rfl, exactResult_nan]

theorem rsqVal_open {n : Bool} {m : Nat} {e : ℤ} (h : fval .f32 x = .fin n m e) (hpos : 0 < numOf (.fin n m e)) : openRes (rsqVal sat x) := by
  obtain ⟨rfl, hm⟩ := positive_number hpos
  rw [rsqVal_fin h, if_neg hm, if_neg Bool.false_ne_true]
  exact openUlps_open ..

theorem tanhVal_open {n : Bool} {m : Nat} {e : ℤ} (h : fval .f32 x = .fin n m e) (hne : numOf (.fin n m e) ≠ 0) : openRes (tanhVal sat x) := by
  obtain ⟨rfl, -⟩ | ⟨-, hopen⟩ := tanhVal_fin h sat
  · exact absurd (numOf_eq_zero_iff.mpr rfl) hne
  · exact hopen

end exact

/-! ### The rows -/

/-- A property of the rows of the eight special functions. -/
theorem all_special {w : IWord} {p : Instr → Prop} (hrcp : p (.rcp w)) (hsqrt : p (.sqrt w)) (hrsq : p (.rsq w)) (hexp2 : p (.exp2 w)) (hlog2 : p (.log2 w))
    (hsinpi : p (.sinpi w)) (hcospi : p (.cospi w)) (htanh : p (.tanh w)) :
    ∀ i ∈ [Instr.rcp w, .sqrt w, .rsq w, .exp2 w, .log2 w, .sinpi w, .cospi w, .tanh w], p i := by
  simp only [List.forall_mem_cons]
  exact ⟨hrcp, hsqrt, hrsq, hexp2, hlog2, hsinpi, hcospi, htanh, fun _ h => absurd h List.not_mem_nil⟩

theorem special_passesOn {w : IWord} {l : Lane} {x b c : Nat} {p : Res → Prop}
    (hp : ∀ g, passesOn g → p (g x)) :
    ∀ i ∈ [Instr.rcp w, .sqrt w, .rsq w, .exp2 w, .log2 w, .sinpi w, .cospi w, .tanh w], gives specialRow i l x b c p :=
  all_special ⟨_, rfl, hp _ (rcpVal_passesOn _ _)⟩ ⟨_, rfl, hp _ (sqrtVal_passesOn _ _)⟩ ⟨_, rfl, hp _ (rsqVal_passesOn _)⟩
    ⟨_, rfl, hp _ (exp2Val_passesOn _)⟩ ⟨_, rfl, hp _ (log2Val_passesOn _)⟩ ⟨_, rfl, hp _ (sinpiVal_passesOn _)⟩ ⟨_, rfl, hp _ (cospiVal_passesOn _)⟩
    ⟨_, rfl, hp _ (tanhVal_passesOn _)⟩

theorem special_values : specialValues := by
  intro w l a b c x v neg mode sat is nan zero one open_ all
  refine ⟨fun hx => special_passesOn fun g hg => (hg _).1 hx, fun hx => special_passesOn fun g hg => (hg _).2 hx, fun hx => ?_, fun hx hv => ?_,
    fun hx hv => ?_, fun hx hv _ => ?_, fun hx hv => ?_, fun hx => ?_⟩
  · obtain ⟨hrcp, htanh, hsinpi, hcospi, hsqrt, hrsq, hexp2, hlog2⟩ := special_inf mode sat hx
    exact ⟨⟨_, rfl, hrcp⟩, ⟨_, rfl, htanh⟩, ⟨_, rfl, hsinpi⟩, ⟨_, rfl, hcospi⟩, ⟨_, rfl, hsqrt⟩, ⟨_, rfl, hrsq⟩, ⟨_, rfl, hexp2⟩, ⟨_, rfl, hlog2⟩⟩
  all_goals
    obtain ⟨m, e, hfin, hm, hlo, hhi⟩ := fval_f32_fin hx
    have hnum : v = numOf (.fin neg m e) := congrArg numOf hfin
    clear_value v
    subst hnum
  · obtain rfl := numOf_eq_zero_iff.mp hv
    obtain ⟨hrcp, hsqrt, hrsq, hlog2, htanh⟩ := special_zero mode sat hfin
    exact ⟨⟨_, rfl, hrcp⟩, ⟨_, rfl, hsqrt⟩, ⟨_, rfl, hrsq⟩, ⟨_, rfl, hlog2⟩, ⟨_, rfl, htanh⟩⟩
  · obtain ⟨hneg, hm0⟩ := negative_number hv
    rw [show a.getLsbD 31 = true from hneg] at hfin
    obtain ⟨hsqrt, hrsq, hlog2⟩ := special_negative mode sat hfin hm0
    exact ⟨⟨_, rfl, hsqrt⟩, ⟨_, rfl, hrsq⟩, ⟨_, rfl, hlog2⟩⟩
  · exact ⟨_, rfl, rcpVal_once hfin sat mode (fun h => hv (numOf_eq_zero_iff.mpr h))⟩
  · exact ⟨⟨_, rfl, sqrtVal_once hfin hm hlo hhi mode sat hv⟩, ⟨_, rfl, rsqVal_open sat hfin hv⟩⟩
  · exact ⟨fun n hn => ⟨⟨_, rfl, exp2Val_int hfin sat hm hn⟩, ⟨_, rfl, sinpiVal_int hfin sat hn⟩, ⟨_, rfl, cospiVal_int hfin sat hn⟩⟩,
      fun n hn => ⟨⟨_, rfl, sinpiVal_half hfin sat hn⟩, ⟨_, rfl, cospiVal_half hfin sat hn⟩⟩,
      fun n hn => ⟨_, rfl, log2Val_pow hfin sat hm hlo hhi hn⟩,
      fun hn => ⟨_, rfl, exp2Val_open hfin sat hm hn⟩,
      fun hn => ⟨⟨_, rfl, sinpiVal_open hfin sat hn⟩, ⟨_, rfl, cospiVal_open hfin sat hn⟩⟩,
      fun hpos hn => ⟨_, rfl, log2Val_open hfin sat hpos hn⟩,
      fun hne => ⟨_, rfl, tanhVal_open sat hfin hne⟩⟩

end Sys2Proof.Machine
end

section
/-! PROOFS. The packed float group: HADD2, HMUL2, HFMA2 and FDOT2 (spec/06 R152, R156; spec/04 R95, R97). -/

namespace Sys2Proof.Machine

open Sys2Proof.Claims

/-- A packed type of two floats of 16 bits and its elements' type. -/
def TwoHalves (t e : Ty) : Prop := t = .h2 ∧ e = .f16 ∨ t = .bh2 ∧ e = .bf16

theorem TwoHalves.spec {t e : Ty} (h : TwoHalves t e) :
    tyElem t = e ∧ tyKind e = .flt ∧ tyWidth e = 16 ∧ tyCount t = 2 ∧ absentOf e = 0xFFFF := by
  obtain ⟨rfl, rfl⟩ | ⟨rfl, rfl⟩ := h
  · exact ⟨rfl, rfl, rfl, rfl, rfl⟩
  · exact ⟨rfl, rfl, rfl, rfl, rfl⟩

/-- A float pattern of its type's width is absent just where all its bits are ones (R90). -/
theorem isAbsent_ones {t : Ty} (hk : tyKind t = .flt) {n : Nat} (hn : tyWidth t = n) (x : BitVec n) : isAbsent t x.toNat = (x == BitVec.allOnes n) := by
  rw [isAbsent_flt hk, Bool.eq_iff_iff, beq_iff_eq, beq_iff_eq, ← BitVec.toNat_inj, BitVec.toNat_allOnes]
  simp only [absentOf, hk, hn]

theorem roundsOnce_lt {t : Ty} (hw : 0 < tyWidth t) {mode : RMode} {sat zero : Bool} {x : ℚ} {r : Res}
    (h : roundsOnce t mode sat x zero r) : r.1 < 2 ^ tyWidth t := by
  obtain ⟨hne, hzero⟩ := h
  by_cases hx : x = 0
  · have hlt : 2 ^ (tyWidth t - 1) < 2 ^ tyWidth t := Nat.pow_lt_pow_right one_lt_two (by omega)
    have hpos := Nat.two_pow_pos (tyWidth t)
    rw [hzero hx]
    cases zero
    · exact hpos
    · exact hlt
  · exact (hne hx).1

/-! ### Operations on two elements -/

/-- Whether an element is absent. -/
def gone (x : Word) (i : Nat) : Bool := pixel x i == 0xFFFF#16

section pairs
variable {t e : Ty} (h : TwoHalves t e)
include h

theorem isAbsent_pixel_half (x : Word) (i : Nat) : isAbsent e (pixel x i).toNat = gone x i := by
  obtain ⟨-, hk, hw, -, -⟩ := h.spec
  exact isAbsent_ones hk hw _

theorem isAbsent_half (x : Word) (i : Nat) : isAbsent e (elemOf t i x.toNat) = gone x i := by
  obtain ⟨rfl, -, hw, -, -⟩ := h.spec
  rw [elemOf_pixel hw, isAbsent_pixel_half h]

/-- An operation on elements that are numbers or absent, by the rule of absent operands (R95). -/
theorem packed_each {xs : List Word} (hne : xs ≠ [])
    (hfin : xs.all (fun x => (List.range 2).all (fun i => isFin (fval e (pixel x i).toNat) || gone x i)) = true)
    {g : Nat → Res} {ai : Bool} {ids : List Nat} {f : List Nat → Res} {p : Nat → Res → Prop} (hai : ai = false)
    (hg : ∀ i, g i = withAbsent e ai ids (xs.map (fun x => elemOf t i x.toNat)) f)
    (hp : ∀ i, (∀ x ∈ xs, isFin (fval e (elemOf t i x.toNat)) = true) → p i (g i)) (hlt : ∀ i r, p i r → r.1 < 2 ^ 16) :
    ∃ x y : BitVec 16 × Flags, packed t g = ((y.1 ++ x.1).toNat, x.2 ||| y.2) ∧ ∀ n < 2, let z := if n = 0 then x else y
      if xs.all (gone · n) then z = (0xFFFF#16, 0) else if xs.any (gone · n) then z = (0xFFFF#16, AP) else p n (z.1.toNat, z.2) := by
  subst hai
  obtain ⟨rfl, hk, hw, hc, habs⟩ := h.spec
  have helem (n : Nat) (hn : n < 2) : if xs.all (gone · n) then g n = (0xFFFF, 0) else if xs.any (gone · n) then g n = (0xFFFF, AP) else p n (g n) := by
    have hplain := withAbsent_plain (t := tyElem t) (ids := ids) (f := f) (ops := xs.map (fun x => elemOf t n x.toNat)) (by simpa using hne)
    simp only [List.all_map, List.any_map, Function.comp_def, isAbsent_half h, habs] at hplain
    split_ifs with hall hany
    · rw [hg, hplain, if_pos hall]
    · rw [hg, hplain, if_neg hall, if_pos hany]
    · refine hp n (fun x hx => ?_)
      have hpresent : gone x n = false := by simpa using List.any_eq_false.mp (Bool.eq_false_iff.mpr hany) x hx
      have hx2 := List.all_eq_true.mp (List.all_eq_true.mp hfin x hx) n (List.mem_range.mpr hn)
      rw [elemOf_pixel hw]
      simpa [hpresent] using hx2
  have h16 (n : Nat) (hn : n < 2) : (g n).1 < 2 ^ 16 := by
    have hn := helem n hn
    split_ifs at hn with hall hany
    · rw [hn]
      decide
    · rw [hn]
      decide
    · exact hlt n _ hn
  have hres (n : Nat) (hn : n < 2) : g n = halfRes (BitVec.ofNat 16 (g n).1, (g n).2) := by
    rw [halfRes, BitVec.toNat_ofNat, Nat.mod_eq_of_lt (h16 n hn)]
  refine ⟨_, _, packed_pixels hw hc hres, fun n hn => ?_⟩
  intro z
  have hz : z = (BitVec.ofNat 16 (g n).1, (g n).2) := by
    obtain rfl | rfl : n = 0 ∨ n = 1 := by omega
    · rfl
    · rfl
  have hn' := helem n hn
  rw [hz]
  split_ifs at hn' ⊢ with hall hany
  · rw [hn']
  · rw [hn']
  · show p n (halfRes (BitVec.ofNat 16 (g n).1, (g n).2))
    rwa [← hres n hn]

end pairs

/-! ### HADD2, HMUL2 and HFMA2 -/

section operations
variable {t e : Ty} (h : TwoHalves t e)
include h

theorem half_roundsOnce_lt {mode : RMode} {sat zero : Bool} {x : ℚ} {r : Res} (hr : roundsOnce e mode sat x zero r) : r.1 < 2 ^ 16 := by
  obtain ⟨-, -, hw, -, -⟩ := h.spec
  have hlt := roundsOnce_lt (by rw [hw]; decide) hr
  rwa [hw] at hlt

end operations

/-! ### FDOT2 -/

section dot
variable {t e : Ty} (h : TwoHalves t e) (mode : RMode) (sat : Bool) (a b c : Word)

/-- The elements that are present in both operands, and their values. -/
def presentPairs (a b : Word) : List Nat := (List.range 2).filter (fun i => !gone a i && !gone b i)
def halfVal (e : Ty) (x : Word) (i : Nat) : FVal := fval e (pixel x i).toNat

/-- The addend C, where it is present. -/
def addend (c : Word) : List FVal := if c = 0xFFFFFFFF#32 then [] else [fval .f32 c.toNat]

include h in
theorem fdot2Val_eq : fdot2Val t mode sat a.toNat b.toNat c.toNat =
    let ps := (presentPairs a b).map (fun i => mulV (halfVal e a i) (halfVal e b i))
    if ps.isEmpty ∧ (addend c).isEmpty then (0xFFFFFFFF, 0)
    else roundRes .f32 mode sat (sumV mode (ps.map Prod.fst ++ addend c)).1 (ps.foldl (fun f p => f ||| p.2) (sumV mode (ps.map Prod.fst ++ addend c)).2) := by
  obtain ⟨rfl, -, hw, -, -⟩ := h.spec
  have hc : (if isAbsent .f32 c.toNat then [] else [fval .f32 c.toNat]) = addend c := by
    rw [isAbsent_ones (n := 32) rfl rfl, addend]
    exact if_congr beq_iff_eq rfl rfl
  simp only [fdot2Val, elemOf_pixel hw, isAbsent_pixel_half h, hc]
  rfl

theorem addend_fin (hc : isFin (fval .f32 c.toNat) = true ∨ c = 0xFFFFFFFF#32) : ∀ v ∈ addend c, isFin v = true := by
  intro v hv
  unfold addend at hv
  split_ifs at hv with hgone
  · exact absurd hv List.not_mem_nil
  · rw [List.mem_singleton] at hv
    exact hv ▸ hc.resolve_right hgone

/-- Products of numbers: they raise no flag, and each is a number of its value and sign. -/
theorem products_stand {xs ys : Nat → FVal} {is : List Nat} (hfin : ∀ i ∈ is, isFin (xs i) = true ∧ isFin (ys i) = true) (fl : Flags) :
    let ps := is.map (fun i => mulV (xs i) (ys i))
    (∀ v ∈ ps.map Prod.fst, isFin v = true) ∧ ps.foldl (fun f p => f ||| p.2) fl = fl ∧
    (ps.map Prod.fst).map numOf = is.map (fun i => numOf (xs i) * numOf (ys i)) ∧
    (ps.map Prod.fst).map negOf = is.map (fun i => negOf (xs i) != negOf (ys i)) := by
  induction is with
  | nil => exact ⟨fun v hv => absurd hv List.not_mem_nil, rfl, rfl, rfl⟩
  | cons i is ih =>
    obtain ⟨⟨hx, hy⟩, htail⟩ := List.forall_mem_cons.mp hfin
    obtain ⟨z, hz, hzfin, hznum, hzneg⟩ := mulV_stands hx hy
    obtain ⟨ihfin, ihfl, ihnum, ihneg⟩ := ih htail
    have hor : fl ||| 0 = fl := BitVec.or_zero
    simp only [List.map_cons, List.foldl_cons, hz, hor, hznum, hzneg, ihnum, ihneg, ihfl]
    exact ⟨List.forall_mem_cons.mpr ⟨hzfin, ihfin⟩, trivial, trivial, trivial⟩

include h in
theorem fdot2Val_once
    (hfin : [a, b].all (fun x => (List.range 2).all (fun i => isFin (halfVal e x i) || gone x i)) = true)
    (hc : isFin (fval .f32 c.toNat) = true ∨ c = 0xFFFFFFFF#32) :
    if presentPairs a b = [] ∧ addend c = [] then fdot2Val t mode sat a.toNat b.toNat c.toNat = (0xFFFFFFFF, 0)
    else roundsOnce .f32 mode sat
      (((presentPairs a b).map (fun i => numOf (halfVal e a i) * numOf (halfVal e b i))).sum + ((addend c).map numOf).sum)
      (zeroSum mode ((presentPairs a b).map (fun i => negOf (halfVal e a i) != negOf (halfVal e b i)) ++ (addend c).map negOf))
      (fdot2Val t mode sat a.toNat b.toNat c.toNat) := by
  have hpairs : ∀ i ∈ presentPairs a b, isFin (halfVal e a i) = true ∧ isFin (halfVal e b i) = true := by
    intro i hi
    obtain ⟨hi2, hgone⟩ := List.mem_filter.mp hi
    simp only [List.all_cons, List.all_nil, Bool.and_true, Bool.and_eq_true, List.all_eq_true, Bool.or_eq_true] at hfin
    simp only [Bool.and_eq_true, Bool.not_eq_true'] at hgone
    exact ⟨(hfin.1 i hi2).resolve_right (by simp [hgone.1]), (hfin.2 i hi2).resolve_right (by simp [hgone.2])⟩
  rw [fdot2Val_eq h]
  simp only [List.isEmpty_iff, List.map_eq_nil_iff]
  split_ifs with hempty
  · rfl
  · obtain ⟨hps, hfl, hnum, hneg⟩ := products_stand hpairs
      (sumV mode (((presentPairs a b).map (fun i => mulV (halfVal e a i) (halfVal e b i))).map Prod.fst ++ addend c)).2
    rw [hfl, ← hnum, ← hneg, ← List.sum_append, ← List.map_append, ← List.map_append]
    exact roundsOnce_sumV rfl mode sat (List.forall_mem_append.mpr ⟨hps, addend_fin c hc⟩)

end dot

/-! ### The rows -/

theorem packed_values : packedValues := by
  intro w l e a b c h mode sat val num neg gone fins each there
  have h : TwoHalves w.t e := h
  obtain ⟨he, hk, hw, -, -⟩ := h.spec
  subst he
  have hpixel := elemOf_pixel hw
  refine ⟨fun hfin hai => ⟨_, rfl, ?_⟩, fun hfin hai => ⟨_, rfl, ?_⟩, fun hfin hai => ⟨_, rfl, ?_⟩,
    fun hfin hc => ⟨_, rfl, fdot2Val_once h mode sat a b c hfin hc⟩⟩
  all_goals refine packed_each h (List.cons_ne_nil _ _) hfin hai (fun i => rfl) (fun i hx => ?_) (fun i r hr => half_roundsOnce_lt h hr)
  all_goals simp only [hpixel, List.forall_mem_cons] at hx ⊢
  · obtain ⟨ha, hb, -⟩ := hx
    exact faddVal_once hk mode sat (aiOf w) ha hb
  · obtain ⟨ha, hb, -⟩ := hx
    exact fmulVal_once hk mode sat (aiOf w) ha hb
  · obtain ⟨ha, hb, hc, -⟩ := hx
    exact ffmaVal_once hk mode sat (aiOf w) ha hb hc

end Sys2Proof.Machine
end

section
/-! PROOFS. Codes of quantised groups, and their values: QGRP and DQGRP (spec/06 R158; spec/04 R104, R105). -/

namespace Sys2Proof.Machine

open Sys2Proof.Claims

/-- A type of quantised codes and its width. -/
def GroupCodes (t : Ty) (bits : Nat) : Prop := t = .q4 ∧ bits = 4 ∨ t = .q8 ∧ bits = 8

theorem GroupCodes.spec {t : Ty} {bits : Nat} (h : GroupCodes t bits) :
    tyWidth t = bits ∧ 2 ≤ 2 ^ bits ∧ 2 ^ bits ≤ 256 ∧ (∀ q, isAbsent t q = (q == 2 ^ bits - 1)) ∧ absentOf t = 2 ^ bits - 1 ∧
    ∀ b : Word, groupZp t b.toNat = fld b (15 + bits) 16 ∧ fld b (15 + bits) 16 < 256 := by
  obtain ⟨rfl, rfl⟩ | ⟨rfl, rfl⟩ := h
  · exact ⟨rfl, by decide, by decide, fun _ => rfl, rfl,
      fun b => ⟨by simp [groupZp, fld, Nat.shiftRight_eq_div_pow], (Nat.mod_lt _ (Nat.two_pow_pos _)).trans_le (by decide)⟩⟩
  · exact ⟨rfl, by decide, by decide, fun _ => rfl, rfl,
      fun b => ⟨by simp [groupZp, fld, Nat.shiftRight_eq_div_pow], (Nat.mod_lt _ (Nat.two_pow_pos _)).trans_le (by decide)⟩⟩

/-! ### QGRP -/

/-- The code that R105 gives for a value and a scale, both present. -/
def quantised (qmax : ℤ) (mode : RMode) (zp : Nat) : FVal → FVal → Res
  | .inf a, .fin b _ _ => (if a != b then 0 else qmax.toNat, NV)
  | .fin _ _ _, .inf _ => quantCode qmax 0 zp false
  | .fin a m e, .fin b n k =>
    if n = 0 then (if m = 0 then (0, NV) else (if a != b then 0 else qmax.toNat, NV))
    else
      let r := if m = 0 then (0, false) else roundI mode (a != b) m n (e - k)
      quantCode qmax r.1 zp r.2
  | _, _ => (0, NV)

section quantise
variable {t : Ty} {bits : Nat} (h : GroupCodes t bits) (mode : RMode) (zp : Nat) {x s : Nat}
include h

theorem quantise_absent (ha : isAbsent .f32 x = true ∨ isAbsent .f16 s = true) : quantise t mode x s zp = (2 ^ bits - 1, 0) := by
  obtain ⟨-, -, -, -, habs, -⟩ := h.spec
  rw [quantise, if_pos ha, habs]

theorem quantise_present (ha : ¬ (isAbsent .f32 x = true ∨ isAbsent .f16 s = true)) :
    quantise t mode x s zp = quantised (2 ^ bits - 2) mode zp (fval .f32 x) (fval .f16 s) := by
  obtain ⟨hw, -⟩ := h.spec
  rw [quantise, if_neg ha, hw]
  push_cast
  generalize fval .f32 x = u
  generalize fval .f16 s = v
  cases u <;> cases v <;> rfl

end quantise

/-- A code whose quotient was rounded to `r`: with the zero point added and clamped, by the flags of R105. -/
theorem quantCode_eq {qmax r : ℤ} {zp : Nat} {inexact : Bool} {y : ℚ} (h : inexact = false ↔ (r : ℚ) = y) :
    quantCode qmax r zp inexact =
      ((max 0 (min qmax (r + zp))).toNat, if max 0 (min qmax (r + zp)) ≠ r + zp then NV else if (r : ℚ) ≠ y then NX else 0) := by
  simp only [quantCode, clampInt, ne_eq, ite_not, ← h]
  cases inexact <;> rfl

theorem isRounding_zero (mode : RMode) : isRounding mode 0 0 := by
  have h := isRounding_roundAt mode false 0 one_pos 0 0
  simp only [Nat.cast_zero, zero_div, zero_mul, mul_zero] at h
  rwa [isRounding_int h (K := 0) (by simp)] at h

/-- The quotient of two numbers, rounded to a whole number in the mode (R99, R105). -/
theorem roundI_quotient {mode : RMode} {a b : Bool} {m n : Nat} (hn : n ≠ 0) (e k : ℤ) {r : ℤ × Bool}
    (hr : (if m = 0 then (0, false) else roundI mode (a != b) m n (e - k)) = r) :
    isRounding mode (numOf (.fin a m e) / numOf (.fin b n k)) r.1 ∧ (r.2 = false ↔ (r.1 : ℚ) = numOf (.fin a m e) / numOf (.fin b n k)) := by
  rcases eq_or_ne m 0 with rfl | hm
  · rw [if_pos rfl] at hr
    have hzero : numOf (.fin a 0 e) = 0 := numOf_eq_zero_iff.mpr rfl
    rw [hzero, zero_div, ← hr]
    exact ⟨isRounding_zero mode, by simp⟩
  · have hquot : numOf (.fin a m e) / numOf (.fin b n k) = sgn (a != b) * (m / n * 2 ^ (e - k - 0)) := by
      have hb : (sgn b : ℚ) ≠ 0 := sgn_ne_zero b
      have hk := (two_zpow_pos k).ne'
      have hn' : (n : ℚ) ≠ 0 := by exact_mod_cast hn
      have hsgn : (sgn a : ℚ) / sgn b = sgn (a != b) := by cases a <;> cases b <;> simp [sgn]
      rw [numOf_fin, numOf_fin, ← hsgn, sub_zero, zpow_sub₀ two_ne_zero]
      field_simp
    have hround := isRounding_roundAt mode (a != b) m (Nat.pos_of_ne_zero hn) (e - k) 0
    have hexact := roundAt_exact mode (a != b) m (Nat.pos_of_ne_zero hn) (e - k) 0
    have hrI : roundI mode (a != b) m n (e - k) = (sgn (a != b) * (roundAt mode (a != b) m n (e - k) 0).1, (roundAt mode (a != b) m n (e - k) 0).2) := by
      unfold roundI
      cases a != b <;> simp [sgn]
    rw [if_neg hm, hrI] at hr
    rw [hquot, ← hr]
    refine ⟨hround, hexact.trans ?_⟩
    push_cast
    rw [mul_right_inj' (sgn_ne_zero _)]

section codes
variable {qmax : ℤ} {mode : RMode} {zp : Nat} {u v : FVal}

theorem quantised_nan (h : u.isNan = true ∨ v.isNan = true) : quantised qmax mode zp u v = (0, NV) := by
  cases u <;> cases v <;> simp [FVal.isNan] at h <;> rfl

theorem quantised_infs {m n : Bool} (hu : u = .inf m) (hv : v = .inf n) : quantised qmax mode zp u v = (0, NV) := by
  subst hu hv
  rfl

theorem quantised_inf {m : Bool} (hu : u = .inf m) (hv : isFin v = true) :
    quantised qmax mode zp u v = (if negOf u = negOf v then qmax.toNat else 0, NV) := by
  subst hu
  cases v with
  | fin n q e => cases m <;> cases n <;> rfl
  | _ => simp [isFin] at hv

theorem quantised_by_inf {n : Bool} (hu : isFin u = true) (hv : v = .inf n) (hq : 0 ≤ qmax) :
    quantised qmax mode zp u v = if qmax < zp then (qmax.toNat, NV) else ((zp : ℤ).toNat, 0) := by
  subst hv
  cases u with
  | fin a m e =>
    rw [quantised, quantCode_eq (y := 0) (by simp)]
    rcases lt_or_ge qmax (zp : ℤ) with h | h
    · have hclamp : max 0 (min qmax (0 + (zp : ℤ))) = qmax := by omega
      rw [if_pos h, hclamp, if_pos (by omega)]
    · have hclamp : max 0 (min qmax (0 + (zp : ℤ))) = zp := by omega
      rw [hclamp, if_neg (not_not.mpr (zero_add _).symm), if_neg (not_not.mpr Int.cast_zero), if_neg (not_lt.mpr h)]
  | _ => simp [isFin] at hu

theorem quantised_by_zero (hu : isFin u = true) (hv : isFin v = true) (hv0 : numOf v = 0) :
    quantised qmax mode zp u v = if numOf u = 0 then (0, NV) else (if negOf u = negOf v then qmax.toNat else 0, NV) := by
  cases u with
  | fin a m e =>
    cases v with
    | fin b n k =>
      rw [quantised, if_pos (numOf_eq_zero_iff.mp hv0)]
      refine if_congr numOf_eq_zero_iff.symm rfl (congrArg (·, NV) ?_)
      cases a <;> cases b <;> rfl
    | _ => simp [isFin] at hv
  | _ => simp [isFin] at hu

theorem quantised_quotient (hu : isFin u = true) (hv : isFin v = true) (hv0 : numOf v ≠ 0) :
    ∃ k : ℤ, isRounding mode (numOf u / numOf v) k ∧ quantised qmax mode zp u v =
      ((max 0 (min qmax (k + zp))).toNat, if max 0 (min qmax (k + zp)) ≠ k + zp then NV else if (k : ℚ) ≠ numOf u / numOf v then NX else 0) := by
  cases u with
  | fin a m e =>
    cases v with
    | fin b n k =>
      have hn : n ≠ 0 := fun h => hv0 (numOf_eq_zero_iff.mpr h)
      obtain ⟨hround, hexact⟩ := roundI_quotient (mode := mode) (a := a) (b := b) (m := m) hn e k rfl
      refine ⟨_, hround, ?_⟩
      rw [quantised, if_neg hn, quantCode_eq hexact]
    | _ => simp [isFin] at hv
  | _ => simp [isFin] at hu

end codes

/-! ### DQGRP -/

/-- A number of a float type: its significand has the type's bits, its exponent is no less than that of the least number (R90). -/
theorem fval_fin_bounds {t : Ty} {x : Nat} (h : isFin (fval t x) = true) :
    ∃ n m e, fval t x = .fin n m e ∧ m < 2 ^ ((ffmt t).mb + 1) ∧ (ffmt t).qmin ≤ e := by
  have hmag : x % 2 ^ ((ffmt t).eb + (ffmt t).mb) < 2 ^ ((ffmt t).eb + (ffmt t).mb) := Nat.mod_lt _ (Nat.two_pow_pos _)
  rw [fval_eq_parts] at h ⊢
  rw [parts_fin _ (ffmt_eb_pos t) (parts_isFin _ (ffmt_eb_pos t) hmag h)]
  exact ⟨_, _, _, rfl, mant_lt .., le_add_of_nonneg_right (Int.natCast_nonneg _)⟩

theorem dqgrpVal_eq {t : Ty} {bits : Nat} (h : GroupCodes t bits) (q : Nat) (b : Word) :
    dqgrpVal t q b.toNat = if q = 2 ^ bits - 1 ∨ isAbsent .f16 (b.toNat % 2 ^ 16) then (0xFFFFFFFF, 0)
      else
        let k : ℤ := q - (fld b (15 + bits) 16 : Nat)
        let p := mulV (fval .f16 (b.toNat % 2 ^ 16)) (.fin (k < 0) k.natAbs 0)
        roundRes .f32 .rne false p.1.toEx p.2 := by
  obtain ⟨-, -, -, hgone, -, hzp⟩ := h.spec
  rw [dqgrpVal, dequant, hgone, (hzp b).1]
  simp only [beq_iff_eq]
  split_ifs with habs
  · rfl
  · rfl

/-- The sign of a product of a number and an integer. -/
theorem sign_of_product {n : Bool} {m : Nat} {e k : ℤ} (h : numOf (.fin n m e) * k ≠ 0) :
    decide (numOf (.fin n m e) * k < 0) = (negOf (.fin n m e) != decide (k < 0)) := by
  obtain ⟨hnum, hk⟩ := mul_ne_zero_iff.mp h
  have hm : m ≠ 0 := fun hm => hnum (numOf_eq_zero_iff.mpr hm)
  have hy : (0 : ℚ) < m * 2 ^ e := by have := two_zpow_pos e; positivity
  have hk0 : k ≠ 0 := by exact_mod_cast hk
  rw [numOf_fin]
  cases n
  · simp [sgn, negOf, mul_neg_iff, hy, hy.not_gt]
  · simp only [sgn, negOf, if_true, Int.cast_neg, Int.cast_one, neg_mul, one_mul, neg_neg_iff_pos, mul_pos_iff_of_pos_left hy, Int.cast_pos,
      Bool.true_bne, ← decide_not, decide_eq_decide]
    omega

/-- A scale of 16 bits times a difference of codes is a number of f32, and its product is exact (R104). -/
theorem scaled_exact {v : FVal} {n : Bool} {m : Nat} {e k : ℤ} (hv : v = .fin n m e) (hm : m < 2 ^ 11) (he : -24 ≤ e) (hlarge : |numOf v| ≤ 65504)
    (hk : |k| < 2 ^ 8) {r : Res} (hr : roundsOnce .f32 .rne false (numOf v * k) (negOf v != decide (k < 0)) r) :
    r.2 = 0 ∧ r.1 < 2 ^ 32 ∧ isFin (fval .f32 r.1) = true ∧ numOf (fval .f32 r.1) = numOf v * k ∧
      negOf (fval .f32 r.1) = (negOf v != decide (k < 0)) := by
  subst hv
  obtain ⟨hne, hzero⟩ := hr
  by_cases hx : numOf (.fin n m e) * k = 0
  · have hnull (z : Bool) : isFin (fval .f32 (if z then 2 ^ 31 else 0)) = true ∧ numOf (fval .f32 (if z then 2 ^ 31 else 0)) = 0 ∧
        negOf (fval .f32 (if z then 2 ^ 31 else 0)) = z ∧ (if z then 2 ^ 31 else 0) < 2 ^ 32 := by
      have hpattern : fval .f32 (if z then 2 ^ 31 else 0) = .fin z 0 (-149) := by cases z <;> decide
      rw [hpattern]
      exact ⟨rfl, numOf_eq_zero_iff.mpr rfl, rfl, by cases z <;> decide⟩
    obtain ⟨hfin, hnum, hneg, hlt⟩ := hnull (negOf (.fin n m e) != decide (k < 0))
    rw [hzero hx, hx]
    exact ⟨rfl, hlt, hfin, hnum, hneg⟩
  · have hK : |(sgn n * m * k : ℤ)| < 2 ^ 24 := by
      have hsgn : |sgn n| = 1 := by cases n <;> rfl
      rw [abs_mul, abs_mul, hsgn, one_mul, Nat.abs_cast]
      have hm' : (m : ℤ) < 2 ^ 11 := by exact_mod_cast hm
      have := abs_nonneg k
      nlinarith
    have hle : |numOf (.fin n m e) * k| ≤ numOf (fval .f32 (ffmt .f32).maxCode) := by
      rw [numOf_maxCode, largest_values.1, abs_mul]
      have hk' : |(k : ℚ)| ≤ 2 ^ 8 := by exact_mod_cast hk.le
      calc |numOf (.fin n m e)| * |(k : ℚ)| ≤ 65504 * 2 ^ 8 := mul_le_mul hlarge hk' (abs_nonneg _) (by norm_num)
        _ ≤ _ := by norm_num
    have hvalue : numOf (.fin n m e) * k = (sgn n * m * k : ℤ) * 2 ^ e := by
      rw [numOf_fin]
      push_cast
      ring
    have hqmin : (ffmt .f32).qmin ≤ e := he.trans' (by decide)
    obtain ⟨hlt, hfin, hnum, hneg, hflags⟩ := roundsTo_exact (hne hx) hvalue hK hqmin hle
    exact ⟨hflags, hlt, hfin, hnum, hneg.trans (sign_of_product hx)⟩

/-- DQGRP of a present code with a scale that is a number (R104). -/
theorem dqgrp_fin {s : Nat} {k : ℤ} (hs : isFin (fval .f16 s) = true) (hk : |k| < 2 ^ 8) {r : Res}
    (hr : roundRes .f32 .rne false (mulV (fval .f16 s) (.fin (k < 0) k.natAbs 0)).1.toEx (mulV (fval .f16 s) (.fin (k < 0) k.natAbs 0)).2 = r) :
    r.2 = 0 ∧ r.1 < 2 ^ 32 ∧ isFin (fval .f32 r.1) = true ∧ numOf (fval .f32 r.1) = numOf (fval .f16 s) * k ∧
      negOf (fval .f32 r.1) = (negOf (fval .f16 s) != decide (k < 0)) := by
  obtain ⟨n, m, e, hv, hm, he⟩ := fval_fin_bounds hs
  have hlarge : |numOf (fval .f16 s)| ≤ 65504 := by
    have hle := abs_numOf_le hs
    rwa [numOf_maxCode, largest_values.2.1] at hle
  obtain ⟨z, hz, hzfin, hznum, hzneg⟩ := mulV_stands (y := .fin (k < 0) k.natAbs 0) hs rfl
  have hint : numOf (.fin (k < 0) k.natAbs 0) = k := by
    rw [numOf_fin, zpow_zero, mul_one, Nat.cast_natAbs, Int.cast_abs]
    rcases lt_or_ge k 0 with h | h
    · rw [abs_of_neg (by exact_mod_cast h)]
      simp [sgn, h]
    · rw [abs_of_nonneg (by exact_mod_cast h)]
      simp [sgn, not_lt.mpr h]
  rw [hint] at hznum
  rw [hz, roundRes_zero] at hr
  refine scaled_exact hv hm he hlarge hk ?_
  have hround := roundsOnce_roundF (t := .f32) rfl .rne false (toEx_stands hzfin)
  rwa [hznum, hzneg, hr] at hround

/-- DQGRP of a scale that is an infinity, and of a NaN (R94, R104). -/
theorem dqgrp_inf (n : Bool) (k : ℤ) :
    roundRes .f32 .rne false (mulV (.inf n) (.fin (k < 0) k.natAbs 0)).1.toEx (mulV (.inf n) (.fin (k < 0) k.natAbs 0)).2 =
      if k = 0 then (0x7FC00000, NV) else infinite false (n != decide (k < 0)) 0 := by
  have hmul : mulV (.inf n) (.fin (k < 0) k.natAbs 0) = if k = 0 then (.nan false, NV) else (.inf (n != decide (k < 0)), 0) := by
    simp only [mulV, FVal.isNan, Bool.or_self, Bool.false_eq_true, if_false, Int.natAbs_eq_zero]
  rw [hmul]
  split_ifs with h
  · rfl
  · cases n != decide (k < 0)
    · rfl
    · rfl

theorem dqgrp_nan {v : FVal} (hv : v.isNan = true) (k : ℤ) :
    roundRes .f32 .rne false (mulV v (.fin (k < 0) k.natAbs 0)).1.toEx (mulV v (.fin (k < 0) k.natAbs 0)).2 =
      (0x7FC00000, if v.isSig then NV else 0) := by
  cases v with
  | nan sig =>
    have hmul : mulV (.nan sig) (.fin (k < 0) k.natAbs 0) = (.nan false, flagIf sig NV) := by simp [mulV, FVal.isNan, FVal.isSig]
    rw [hmul]
    cases sig
    · rfl
    · rfl
  | _ => simp [FVal.isNan] at hv

/-! ### The rows -/

theorem group_values : groupValues := by
  intro w l a b c bits h code s zp most gone is end_
  have h : GroupCodes w.t bits := h
  obtain ⟨-, htwo, h256, -, -, hzp⟩ := h.spec
  have hs16 : b.toNat % 2 ^ 16 < 2 ^ tyWidth .f16 := Nat.mod_lt _ (by decide)
  have hcode : code = .absent ↔ isAbsent .f32 a.toNat = true := fval_absent_iff rfl a.isLt
  have hs : s = .absent ↔ isAbsent .f16 (b.toNat % 2 ^ 16) = true := fval_absent_iff rfl hs16
  have hmost : 0 ≤ most := by
    have : (2 : ℤ) ≤ 2 ^ bits := by exact_mod_cast htwo
    omega
  obtain ⟨hzp, hzp256⟩ := hzp b
  have his {p : Res → Prop} (hp : p (quantise w.t (modeOf w l) a.toNat (b.toNat % 2 ^ 16) (fld b (15 + bits) 16))) : is p := by
    rw [← hzp] at hp
    exact ⟨_, rfl, hp⟩
  refine ⟨fun habs => his ?_, fun hca hsa => ?_, fun q hq => ?_⟩
  · rw [hcode, hs] at habs
    exact quantise_absent h _ _ habs
  · rw [ne_eq, hcode] at hca
    rw [ne_eq, hs] at hsa
    have hrow := quantise_present h (modeOf w l) (fld b (15 + bits) 16) (not_or.mpr ⟨hca, hsa⟩)
    refine ⟨fun hnan => his (hrow.trans (quantised_nan hnan)), fun ⟨_, _, hm, hn⟩ => his (hrow.trans (quantised_infs hm hn)),
      fun ⟨_, hm⟩ hfin => his (hrow.trans (quantised_inf hm hfin)), fun hfin ⟨_, hn⟩ => his (hrow.trans (quantised_by_inf hfin hn hmost)),
      fun hfin hfin' => ⟨fun h0 h1 => his ?_, fun h0 h1 => his ?_, fun h0 => his ?_⟩⟩
    · exact hrow.trans ((quantised_by_zero hfin hfin' h0).trans (if_pos h1))
    · exact hrow.trans ((quantised_by_zero hfin hfin' h0).trans (if_neg h1))
    · obtain ⟨k, hround, hval⟩ := quantised_quotient (qmax := most) (mode := modeOf w l) (zp := fld b (15 + bits) 16) hfin hfin' h0
      exact ⟨k, hround, hrow.trans hval⟩
  · intro back k
    have hrow := dqgrpVal_eq h q b
    refine ⟨fun habs => ⟨_, rfl, ?_⟩, fun hlt => ?_⟩
    · rw [hs] at habs
      exact hrow.trans (if_pos habs)
    · have hk : |k| < 2 ^ 8 := by
        rw [abs_lt]
        constructor <;> omega
      have hpresent (hsa : s ≠ .absent) : ¬ (q = 2 ^ bits - 1 ∨ isAbsent .f16 (b.toNat % 2 ^ 16) = true) :=
        not_or.mpr ⟨hlt.ne, fun habs => hsa (hs.mpr habs)⟩
      refine ⟨fun hfin => ⟨_, rfl, ?_⟩, fun n hn => ⟨_, rfl, ?_⟩, fun hnan => ⟨_, rfl, ?_⟩⟩
      · have hsa : s ≠ .absent := fun habs => by rw [habs] at hfin; exact Bool.false_ne_true hfin
        exact dqgrp_fin hfin hk (hrow.trans (if_neg (hpresent hsa))).symm
      · have hsa : s ≠ .absent := fun habs => by rw [habs] at hn; cases hn
        have hval := dqgrp_inf n k
        rw [← hn] at hval
        exact (hrow.trans (if_neg (hpresent hsa))).trans hval
      · have hsa : s ≠ .absent := fun habs => by rw [habs] at hnan; exact Bool.false_ne_true hnan
        exact (hrow.trans (if_neg (hpresent hsa))).trans (dqgrp_nan hnan k)

end Sys2Proof.Machine
end

section
/-! PROOFS. The results of the arithmetic groups: the obligation (spec/06 R142 to R165; spec/04 R95, R104, R105). -/

namespace Sys2Proof.Machine

open Sys2Proof.Claims

/-- Settles O13: every row is delivered, each group's values follow its rules, and a division delivers or traps. -/
theorem resultsAreDelivered : Obligations.ResultsAreDelivered := by
  unfold Obligations.ResultsAreDelivered
  refine ⟨delivers_arithmeticRow, bits_values, pixels_values, special_values, packed_values, group_values, ?_⟩
  intro s u t k l w a b c hal hq hr result goes ok trapped
  exact ⟨divides (i := .idiv w) (fun _ => rfl) kind_of_tIn (fun hk _ _ => idivVal_eq hk) hal hq hr,
    divides (i := .irem w) (fun _ => rfl) kind_of_tIn (fun hk _ _ => iremVal_eq hk) hal hq hr⟩

end Sys2Proof.Machine
end
